-- ==== Sys2Proof/Word.lean ====
section
/-! DEFINITION. Octets, octet strings and sparse maps: the plainest data of the model. -/

namespace Sys2Proof

/-- One octet of a frame or record (spec 00 R5). -/
abbrev Byte := BitVec 8

/-- Sparse data by key: pairs whose keys rise strictly, none of them holding the value an unlisted key reads as. -/
abbrev Map (α : Type) := List (Nat × α)

end Sys2Proof
end

