-- ==== Sys2Proof/Syntax.lean ====
section
/-! DEFINITION. The commands: one constructor of Instr per row of spec/opcode_table.json, with the operands the
spec's text gives the row, and the records that the larger operands are made of.
Instance operands are bounded by Table 0.3; values that the device itself must judge are plain numbers. -/

namespace Sys2Proof

/-- The key and the IV under which a sender protected a frame (R151, Table 5.3). -/
structure Seal where
  key : Nat
  iv : Nat
deriving DecidableEq, Repr

/-- A Clelek frame as it reaches the device (Table 5.2): the path it took, its source address and UDP port (or, in
band, the sender's MAC address, above it at bit 48 the frame's destination address and at bit 96 whether it has a VLAN tag, whose 16 bits stand in place
of the UDP port), its length from header to tag, the header's fields, the key and IV under which its sender formed the tag over
this header and body (none where no one formed it over them), and the body as that seal opens (log entry 3). -/
structure ClFrame where
  path : Nat
  src : Nat
  sport : Nat
  len : Nat
  version : Nat
  op : Nat
  session : Nat
  flags : Nat
  seq : Nat
  recCount : Nat
  status : Nat
  bodyLen : Nat
  rsvd : Nat
  nonce : Nat
  tag : Option Seal
  body : List Byte
deriving DecidableEq, Repr

/-- Where a UDP datagram goes: an address of IPv4 or IPv6, and a port (R144). -/
structure UdpTo where
  v6 : Bool
  dst : Nat
  port : Nat
deriving DecidableEq, Repr

/-- What a management-port frame carries (R144). -/
inductive MgtBody where
  | arp (target : Nat)
  | neighbour (target : Nat)
  | echo4 (dst : Nat) (data : List Byte)
  | echo6 (dst : Nat) (data : List Byte)
  | clelek (addr : UdpTo) (f : ClFrame)
  | other
deriving DecidableEq, Repr

/-- A frame at a management port: destination MAC, tag, and whether its 32 KiB crossing FIFO is full (R47, R146). -/
structure MgtFrame where
  dmac : Nat
  smac : Nat
  tagged : Bool
  fifoFull : Bool
  body : MgtBody
deriving DecidableEq, Repr

/-- A host-path frame (Table 5.11) with its management port and source, the Ethernet and UDP fields under which R144 takes it, and whether the
port's crossing FIFO is full. -/
structure InjFrame where
  path : Nat
  dmac : Nat
  tagged : Bool
  fifoFull : Bool
  addr : UdpTo
  src : Nat
  version : Nat
  kind : Nat
  lif : Nat
  tc : Nat
  reason : Nat
  tenant : Nat
  seq : Nat
  ruleRef : Nat
  ts : Nat
  tag : Option Seal
  data : List Byte
deriving DecidableEq, Repr

/-- A fault as its detector reports it (Table 20.7): tile, class, DETAIL, class data, and the tile of the block whose
interface is concerned where there is one (R587). -/
structure FaultRep where
  tile : Nat
  cls : Nat
  detail : Nat
  arg : Nat
  against : Option Nat
deriving DecidableEq, Repr

/-- Why KINDLE ends (R84). -/
inductive KindleCause where
  | rail | interposer | hbm
deriving DecidableEq, Repr

/-- What the ECC of an HBM read finds (R407 to R410): no error, a corrected one, one that is uncorrectable but not on the retry, one that
the retry does not mend, and one that neither the retry nor the partner copy mends. -/
inductive EccOutcome where
  | clean | corrected | retried | uncorrectable | uncorrectableBoth
deriving DecidableEq, Repr

/-- A defect as its receiver reports it: its bit of Table 6.4 and what was seen, that is the positions at which each PCS lane (or FlexE instance) matched its pattern, how many
overhead blocks or frames followed the lock, the FlexE group number, the number of the PHY and those that the PHY map names, the skew between the
members in ns, and the client identifiers announced for calendar slots (R187, R188, R192, R195). -/
structure DefectRep where
  bit : Fin 32
  lanes : List (List Nat) := []
  after : Nat := 0
  group : Nat := 0
  phy : Nat := 0
  phyMap : List Nat := []
  skew : Nat := 0
  ids : List (Nat × Nat) := []
deriving DecidableEq, Repr

/-- What one FEC second of a port brings (R204). -/
structure PmInput where
  corrCw : Nat
  uncorrCw : Nat
  corrSym : Nat
  fcsErr : Nat
deriving DecidableEq, Repr

/-- An IEEE 1687 access over the TAP (R568, R579). -/
inductive IjtagOp where
  | read (tile : Nat)
  | margin (tile code : Nat)
  | bist (tile : Nat)
  | inject (f : FaultRep)
deriving DecidableEq, Repr

/-- Class of an HBM request (Table 12.3). -/
inductive HCls where
  | flow | pool | trace | bulk
deriving DecidableEq, Repr

/-- An HBM request (Table 12.3): stack, first of its lines, how many, direction, class, and requester (0 a basin, 1 a pool's link word, 2 a mill's bitmap,
3 flare's export buffer, 4 a trace, 5 any other). Pseudo-channels, page hint, region and owner follow from these (R394, R399, R412). -/
structure HbmReq where
  stack : Nat
  line : Nat
  lines : Nat
  write : Bool
  cls : HCls
  requester : Nat
deriving DecidableEq, Repr

/-- The commands, in the order of spec/opcode_table.json; each docstring is the row's mnemonic and rule. -/
inductive Instr where
  /-- LANTERN_RAIL_VALID (R82). -/
  | lanternRailValid (straps : Fin 8) (refclk trngPass imageOk : Bool) (corrupt : List (Fin 69))
  /-- LANTERN_RAIL_LOSS (R74). -/
  | lanternRailLoss
  /-- CORE_UNDERVOLT (R57). -/
  | coreUndervolt (d : Fin 4) (mv : Nat)
  /-- RAIL_OUT_OF_RANGE (R633). -/
  | railOutOfRange (r : Fin 12) (mv : Nat)
  /-- THERMAL_TRIP (R641). -/
  | thermalTrip (sensor : Fin 21) (temp : Int)
  /-- DIE_TEMP_LIMIT (R643). -/
  | dieTempLimit (die : Fin 13) (temp : Int)
  /-- PACE_WINDOW (R50). -/
  | paceWindow (t : Fin 442) (eq : Nat)
  /-- AVS_INTERVAL (R59). -/
  | avsInterval (d : Fin 4) (mv ma : Nat)
  /-- AVS_FAILURE (R63). -/
  | avsFailure (d : Fin 4)
  /-- PACE_DEFICIT (R62). -/
  | paceDeficit (d : Fin 4)
  /-- AVS_LOOP_EN_WRITE (R63). -/
  | avsLoopEnWrite (ses : Fin 64) (v : Nat)
  /-- CORE_VCORE_SET_WRITE (R66). -/
  | coreVcoreSetWrite (ses : Fin 64) (d : Fin 4) (v : Nat)
  /-- MODE_REQ_PILOT (R647). -/
  | modeReqPilot (ses : Fin 64)
  /-- MODE_REQ_TRIM (R647). -/
  | modeReqTrim (ses : Fin 64)
  /-- MODE_REQ_PRIMED (R647). -/
  | modeReqPrimed (ses : Fin 64)
  /-- MODE_REQ_LIT (R647). -/
  | modeReqLit (ses : Fin 64)
  /-- MODE_REQ_LEAN (R647). -/
  | modeReqLean (ses : Fin 64)
  /-- MODE_REQ_EBB (R647). -/
  | modeReqEbb (ses : Fin 64)
  /-- MODE_REQ_BANKED (R647). -/
  | modeReqBanked (ses : Fin 64)
  /-- MODE_REQ_PROBE (R579). -/
  | modeReqProbe (ses : Fin 64)
  /-- MODE_REQ_QUENCH (R72). -/
  | modeReqQuench (ses : Fin 64)
  /-- KINDLE_COMPLETE (R84). -/
  | kindleComplete (failed : List (Fin 442))
  /-- KINDLE_ABORT (R84). -/
  | kindleAbort (cause : KindleCause)
  /-- LEAN_TO_LIT_ENTRY (R76). -/
  | leanToLitEntry (timeout : Bool)
  /-- EBB_DRAINED (R93). -/
  | ebbDrained
  /-- EBB_LIMIT_EXPIRY (R93). -/
  | ebbLimitExpiry
  /-- EBB_RETURN (R93). -/
  | ebbReturn
  /-- BANKED_ENTRY (R96). -/
  | bankedEntry
  /-- BANKED_EXIT_COMPLETE (R97). -/
  | bankedExitComplete
  /-- QUENCH_ZEROISE (R100). -/
  | quenchZeroise
  /-- QUENCH_COMPLETE (R100). -/
  | quenchComplete
  /-- RESET_BLOCK (R102). -/
  | resetBlock (ses : Fin 64) (tile : Nat)
  /-- RESET_DIE (R102). -/
  | resetDie (ses : Fin 64) (die : Nat)
  /-- RESET_ASSEMBLY (R102). -/
  | resetAssembly (ses : Fin 64)
  /-- FN_START (R119). -/
  | fnStart (ses : Fin 64) (fn : Fin 65536)
  /-- FN_STOP (R119). -/
  | fnStop (ses : Fin 64) (fn : Fin 65536)
  /-- FN_INIT_COMPLETE (R118). -/
  | fnInitComplete (fn : Fin 65536)
  /-- FN_STOP_COMPLETE (R118). -/
  | fnStopComplete (fn : Fin 65536)
  /-- RL_LANDING (R113). -/
  | rlLanding (id : Fin 4294967296) (idx : Nat)
  /-- HOLD_AGE_EXPIRY (R127). -/
  | holdAgeExpiry (r : Fin 8) (pkt : Nat)
  /-- OBJECT_WRITE (R110). -/
  | objectWrite (ses : Fin 64) (id : Fin 4294967296) (val : List Byte)
  /-- READ_CLEAR (R66). -/
  | readClear (ses : Fin 64) (id : Fin 4294967296)
  /-- MGT_FRAME_RX (R144). -/
  | mgtFrameRx (p : Fin 2) (f : MgtFrame)
  /-- MGT_SPEED_WRITE (R147). -/
  | mgtSpeedWrite (ses : Fin 64) (p : Fin 2) (v : Nat)
  /-- INBAND_CLELEK_RX (R148). -/
  | inbandClelekRx (b : Fin 1024) (f : ClFrame)
  /-- CLELEK_READ (R153). -/
  | clelekRead
  /-- CLELEK_WRITE (R161). -/
  | clelekWrite
  /-- CLELEK_BATCH (R165). -/
  | clelekBatch
  /-- BATCH_EXECUTE (R166). -/
  | batchExecute
  /-- WINDOW_READ (R169). -/
  | windowRead
  /-- WINDOW_WRITE (R169). -/
  | windowWrite
  /-- SUBSCRIBE (R171). -/
  | subscribe
  /-- SUBSCRIBE_CANCEL (R171). -/
  | subscribeCancel
  /-- ATTEST (R553). -/
  | attest
  /-- ATTEST_SIGNED (R553). -/
  | attestSigned
  /-- IMPORT (R550). -/
  | importKey
  /-- BUNDLE (R137): a frame of a bundle, and the ML-DSA-44 public key under which the signature of the message that it ends verifies, none where it
  verifies under none (R555). -/
  | bundle (sigOk : Option (List Byte))
  /-- BUNDLE_EXECUTE (R138). -/
  | bundleExecute
  /-- CLELEK_BAD_OP (R160). -/
  | clelekBadOp
  /-- MESSAGE_TIMEOUT (R155). -/
  | messageTimeout (ses : Fin 64)
  /-- SES_CONFIG_WRITE (R159). -/
  | sesConfigWrite (ses target : Fin 64) (sub : Nat) (v : Nat)
  /-- NOTE_LOSS (R172). -/
  | noteLoss (slot : Fin 16)
  /-- INJECT_PORT (R178). -/
  | injectPort (f : InjFrame)
  /-- INJECT_PIPELINE (R178). -/
  | injectPipeline (f : InjFrame)
  /-- INJECT_DRAIN (R178). -/
  | injectDrain
  /-- PUNT_SEND (R177). -/
  | puntSend
  /-- DEFECT_RAISE (R196). -/
  | defectRaise (b : Fin 1024) (k : DefectRep)
  /-- DEFECT_CLEAR (R196). -/
  | defectClear (b : Fin 1024) (k : DefectRep)
  /-- DOWN_HOLD_EXPIRY (R198). -/
  | downHoldExpiry (b : Fin 1024)
  /-- UP_HOLD_EXPIRY (R198). -/
  | upHoldExpiry (b : Fin 1024)
  /-- AN_RESTART (R186). -/
  | anRestart (b : Fin 1024)
  /-- BP_ENABLE_WRITE (R196). -/
  | bpEnableWrite (ses : Fin 64) (b : Fin 1024) (v : Nat)
  /-- BP_HOLD_WRITE (R199). -/
  | bpHoldWrite (ses : Fin 64) (b : Fin 1024) (up : Bool) (v : Nat)
  /-- PAUSE_RX (R202). -/
  | pauseRx (b : Fin 1024) (opcode : Nat) (enable : Nat) (quanta : List Nat)
  /-- PAUSE_EXPIRY (R202). -/
  | pauseExpiry (b : Fin 1024) (cls : Fin 8)
  /-- XOFF_REFRESH (R203). -/
  | xoffRefresh (b : Fin 1024) (cls : Fin 8)
  /-- PM_SECOND (R204). -/
  | pmSecond (b : Fin 1024) (f : PmInput)
  /-- FLX_CAL_USE_WRITE (R194). -/
  | flxCalUseWrite (ses : Fin 64) (g : Fin 128) (v : Nat)
  /-- FLX_CAL_SWITCH (R194). -/
  | flxCalSwitch (g : Fin 128)
  /-- FLX_CAL_TIMEOUT (R194). -/
  | flxCalTimeout (g : Fin 128)
  /-- FRAME_RX (R208). -/
  | frameRx (b : Fin 1024) (client : Nat) (fcsOk overflow : Bool) (data : List Byte)
  /-- CONTEXT_ASSIGN (R209). -/
  | contextAssign (r : Fin 8)
  /-- PARSE_COMPLETE (R218). -/
  | parseComplete (r : Fin 8) (pkt : Nat)
  /-- GRAPH_PARSE_START (R226). -/
  | graphParseStart (r : Fin 8)
  /-- GRAPH_PARSE_COMPLETE (R226). -/
  | graphParseComplete (r : Fin 8)
  /-- KEY_EPOCH (R238). -/
  | keyEpoch
  /-- PASS_START (R245). -/
  | passStart (r : Fin 8) (pkt : Nat)
  /-- PASS_END (R248). -/
  | passEnd (r : Fin 8) (pkt : Nat)
  /-- BACKWATER_REENTRY (R270). -/
  | backwaterReentry (r : Fin 8) (pkt : Nat)
  /-- QUERY_RECEIPT (R336). -/
  | queryReceipt (b : Fin 16) (src : Nat)
  /-- BUCKET_READ_DONE (R282). -/
  | bucketReadDone (b : Fin 16) (e : Nat)
  /-- RESULT_ARRIVAL (R297). -/
  | resultArrival (b : Fin 16) (e : Nat)
  /-- OPERATION_APPLY (R303). -/
  | operationApply (b : Fin 16) (e : Nat)
  /-- PARK_ARRIVAL (R340). -/
  | parkArrival (b : Fin 16) (e : Nat)
  /-- VERDICT_WAIT_BASIN (R341). -/
  | verdictWaitBasin (b : Fin 16) (e : Nat)
  /-- VERDICT_WAIT_LANE (R341). -/
  | verdictWaitLane (r : Fin 8) (lane : Fin 4096)
  /-- VERDICT_ARRIVAL (R299). -/
  | verdictArrival (r : Fin 8) (pkt : Nat)
  /-- LANE_RELEASE (R332). -/
  | laneRelease (r : Fin 8) (lane : Fin 4096)
  /-- WRITE_BACK_AGE (R294). -/
  | writeBackAge (b : Fin 16) (slot : Nat)
  /-- FLW_REQ_LOOKUP (R323). -/
  | flwReqLookup (ses : Fin 64) (i : Fin 256)
  /-- FLW_REQ_INSERT (R323). -/
  | flwReqInsert (ses : Fin 64) (i : Fin 256)
  /-- FLW_REQ_UPDATE (R323). -/
  | flwReqUpdate (ses : Fin 64) (i : Fin 256)
  /-- FLW_REQ_DELETE (R323). -/
  | flwReqDelete (ses : Fin 64) (i : Fin 256)
  /-- FLW_CLEAR (R325). -/
  | flwClear (ses : Fin 64)
  /-- FLW_CLEAR_DONE (R325). -/
  | flwClearDone
  /-- FLW_SIZE_WRITE (R279). -/
  | flwSizeWrite (ses : Fin 64) (v : Nat)
  /-- FLW_GROW (R284). -/
  | flwGrow (ses : Fin 64)
  /-- EVENT_POST (R361). -/
  | eventPost (b : Fin 16)
  /-- EVENT_DISPATCH (R363). -/
  | eventDispatch (b : Fin 16)
  /-- CREATE (R310). -/
  | create (b : Fin 16) (ctx : Nat)
  /-- LINK_CREATE (R314). -/
  | linkCreate (b : Fin 16) (ctx : Nat)
  /-- PAIR_NOTE (R308). -/
  | pairNote (b : Fin 16) (ctx : Nat)
  /-- PAIR_DELETE (R371). -/
  | pairDelete (b : Fin 16) (ctx : Nat)
  /-- POOL_ALLOC (R369). -/
  | poolAlloc (b : Fin 16) (ctx : Nat)
  /-- PORT_RELEASE (R370). -/
  | portRelease (b : Fin 16) (ctx : Nat)
  /-- AGE (R343). -/
  | age (b : Fin 16) (ctx : Nat)
  /-- EXPORT (R377). -/
  | exportEvent (b : Fin 16) (ctx : Nat)
  /-- SWEEP (R375). -/
  | sweep (b : Fin 16) (ctx : Nat)
  /-- SPLIT (R286). -/
  | split (b : Fin 16) (ctx : Nat)
  /-- SWEEP_TIMER (R375). -/
  | sweepTimer (b : Fin 16)
  /-- SPLIT_TIMER (R379). -/
  | splitTimer (b : Fin 16)
  /-- POOL_RECOUNT (R385). -/
  | poolRecount (ses : Fin 64)
  /-- POOL_RECOUNT_DONE (R385). -/
  | poolRecountDone
  /-- TRC_ARM (R387). -/
  | trcArm (ses : Fin 64) (b : Fin 16)
  /-- HBM_REQUEST (R397). -/
  | hbmRequest (q : HbmReq)
  /-- HBM_READ_COMPLETE (R397). -/
  | hbmReadComplete (pc : Fin 512) (ecc : EccOutcome)
  /-- HBM_WRITE_COMPLETE (R414). -/
  | hbmWriteComplete (pc : Fin 512)
  /-- HBM_REFRESH (R400). -/
  | hbmRefresh (pc : Fin 512) (bank : Nat)
  /-- HBM_RETRAIN (R401). -/
  | hbmRetrain (stk : Fin 8) (ch : Fin 32) (ok : Bool) (temp : Int)
  /-- SELF_REFRESH_IDLE (R403). -/
  | selfRefreshIdle (stk : Fin 8) (ch : Fin 32)
  /-- SELF_REFRESH_EXIT (R405). -/
  | selfRefreshExit (stk : Fin 8) (ch : Fin 32)
  /-- HBM_SCRUB (R411). -/
  | hbmScrub (stk : Fin 8) (line : Nat) (ecc : EccOutcome)
  /-- HBM_MAP_ORDER_WRITE (R395). -/
  | hbmMapOrderWrite (ses : Fin 64) (v : Nat)
  /-- REMAP_DONE (R395). -/
  | remapDone
  /-- CELL_FREE (R427). -/
  | cellFree (r : Fin 8) (pool : Fin 4) (cell : Nat) (owner : Nat)
  /-- HBM_POOL_ALLOC (R431). -/
  | hbmPoolAlloc (b : Fin 16) (len : Nat)
  /-- HBM_STOCK_REFILL (R431). -/
  | hbmStockRefill (p : Fin 16)
  /-- HBM_POOL_FREE (R432): the requesting basin, the stack, and the stack offset in octets. -/
  | hbmPoolFree (b : Fin 16) (p : Fin 8) (off : Nat)
  /-- HPL_REBUILD (R435). -/
  | hplRebuild (ses : Fin 64) (p : Nat)
  /-- HPL_REBUILD_DONE (R435). -/
  | hplRebuildDone (p : Fin 16)
  /-- CHANNEL_SEND (R444). -/
  | channelSend (ch : Fin 256)
  /-- VOQ_REQUEST_ARRIVAL (R452). -/
  | voqRequestArrival (e : Fin 8)
  /-- GRANT_ISSUE (R453). -/
  | grantIssue (e : Fin 8)
  /-- GRANT_ARRIVAL (R454). -/
  | grantArrival (i : Fin 8)
  /-- CREDIT_RETURN (R454). -/
  | creditReturn (e : Fin 8)
  /-- EGRESS_ARRIVAL (R457). -/
  | egressArrival (e : Fin 8)
  /-- SKIP_ARRIVAL (R459). -/
  | skipArrival (e : Fin 8)
  /-- MC_REPLICATE (R460). -/
  | mcReplicate (e : Fin 8)
  /-- DONE_ARRIVAL (R461). -/
  | doneArrival (i : Fin 8)
  /-- PORT_STATE_ARRIVAL (R447). -/
  | portStateArrival (r : Fin 8)
  /-- VOQ_DROP_DEQUEUE (R465). -/
  | voqDropDequeue (r : Fin 8)
  /-- SCHED_DECISION (R480). -/
  | schedDecision (b : Fin 1024)
  /-- PCS_FRAME_START (R490). -/
  | pcsFrameStart (b : Fin 1024)
  /-- SHAPER_REFILL (R483). -/
  | shaperRefill (b : Fin 1024) (q : Option (Fin 65536))
  /-- EGRESS_DROP_DEQUEUE (R494). -/
  | egressDropDequeue (b : Fin 1024)
  /-- GATE_USE_WRITE (R491). -/
  | gateUseWrite (ses : Fin 64) (b : Fin 1024) (v : Nat)
  /-- GATE_SWITCH_LAND (R491). -/
  | gateSwitchLand (b : Fin 1024)
  /-- TB_RATE_WRITE (R499). -/
  | tbRateWrite (ses : Fin 64) (v : Nat)
  /-- TB_ADJUST (R499). -/
  | tbAdjust (ses : Fin 64) (v : Nat)
  /-- TB_SET (R499). -/
  | tbSet (ses : Fin 64) (v : Nat)
  /-- TB_SET_AT_PPS (R499). -/
  | tbSetAtPps (ses : Fin 64) (v : Nat)
  /-- ANCHOR_LANDING (R499). -/
  | anchorLanding
  /-- PPS_IN_EDGE (R502). -/
  | ppsInEdge (rising : Bool)
  /-- PPS_OUT_EDGE (R503). -/
  | ppsOutEdge
  /-- REF_LOSS (R501). -/
  | refLoss
  /-- REF_RELOCK (R501). -/
  | refRelock
  /-- TS_TXQ_NEXT_READ (R511). -/
  | tsTxqNextRead (ses : Fin 64)
  /-- CNT_STICKY_CLEAR (R517). -/
  | cntStickyClear (ses : Fin 64) (v : Nat)
  /-- GEC_SELECT_WRITE (R522). -/
  | gecSelectWrite (ses : Fin 64) (i : Fin 256) (v : Nat)
  /-- BW_WINDOW_END (R525). -/
  | bwWindowEnd (b : Fin 1024)
  /-- FL_BUFFER_FLUSH_AGE (R526). -/
  | flBufferFlushAge (b : Fin 16)
  /-- FL_MESSAGE_SEND (R530). -/
  | flMessageSend (col die : Fin 4)
  /-- FL_TEMPLATE_PERIOD (R530). -/
  | flTemplatePeriod (col : Fin 4)
  /-- FL_LOSS_SECOND (R532). -/
  | flLossSecond
  /-- FL_COL_EN_WRITE (R531). -/
  | flColEnWrite (ses : Fin 64) (col : Fin 4) (v : Nat)
  /-- FL_TEMPLATE_WRITE (R527). -/
  | flTemplateWrite (ses : Fin 64) (t : Fin 16) (mask : Nat)
  /-- LC_SHIP (R536). -/
  | lcShip (ses : Fin 64)
  /-- OWNER_CLAIM (R538). -/
  | ownerClaim (ses : Fin 64) (arg : Nat)
  /-- OWNER_TRANSFER (R539). -/
  | ownerTransfer (ses : Fin 64) (arg : Nat)
  /-- OWNER_RETURN (R540). -/
  | ownerReturn (ses : Fin 64) (arg : Nat)
  /-- SLOT_ERASE (R547). -/
  | slotErase (ses : Fin 64) (slot : Fin 69)
  /-- TRNG_HEALTH_FAIL (R565). -/
  | trngHealthFail
  /-- TRNG_RETEST (R565). -/
  | trngRetest (ses : Fin 64) (pass : Bool)
  /-- CIPHER_SEAL (R562). -/
  | cipherSeal (ses : Fin 64) (i : Fin 16)
  /-- CIPHER_OPEN (R562). -/
  | cipherOpen (ses : Fin 64) (i : Fin 16)
  /-- CIPHER_MAC (R562). -/
  | cipherMac (ses : Fin 64) (i : Fin 16)
  /-- CIPHER_VERIFY (R562). -/
  | cipherVerify (ses : Fin 64) (i : Fin 16)
  /-- TAP_INSTRUCTION_LOAD (R570). -/
  | tapInstructionLoad (op : Fin 256) (keyIsland : Bool)
  /-- WICK_APPLY (R575). -/
  | wickApply (ses : Fin 64) (sigOk : Bool)
  /-- WICK_REVOKE (R576). -/
  | wickRevoke (ses : Fin 64)
  /-- WICK_EXPIRY (R576). -/
  | wickExpiry
  /-- DBG_LEVEL_REQ (R577). -/
  | dbgLevelReq (ses : Fin 64) (v : Nat)
  /-- DBG_OWNER_CONSENT_WRITE (R576). -/
  | dbgOwnerConsentWrite (ses : Fin 64) (v : Nat)
  /-- DBG_OBSERVE_EN_WRITE (R569). -/
  | dbgObserveEnWrite (ses : Fin 64) (v : Nat)
  /-- FAULT_DETECT (R584). -/
  | faultDetect (f : FaultRep)
  /-- SNUFFER_DECIDE (R586). -/
  | snufferDecide
  /-- BLOCK_RESTART_COMPLETE (R590). -/
  | blockRestartComplete (tile : Fin 442)
  /-- CONTAINMENT_END (R600). -/
  | containmentEnd (tile : Fin 442)
  /-- FLT_RESTORE (R600). -/
  | fltRestore (ses : Fin 64) (arg : Nat)
  /-- HANDBACK_COMPLETE (R601). -/
  | handbackComplete (b : Fin 16)
  /-- STACK_REBUILD_COMPLETE (R598). -/
  | stackRebuildComplete (stk : Fin 8)
  /-- FLT_ACK_OVERFLOW (R588). -/
  | fltAckOverflow (ses : Fin 64)
  /-- FLT_ACK_PIN (R604). -/
  | fltAckPin (ses : Fin 64)
  /-- SNUFFER_HEARTBEAT_LOSS (R604). -/
  | snufferHeartbeatLoss
  /-- TRIM_WORK_WRITE (R613). -/
  | trimWorkWrite (ses : Fin 64) (view : Fin 3) (i : Nat) (val : List Byte)
  /-- TRIM_MEASURE (R614). -/
  | trimMeasure (ses : Fin 64) (arg : Nat)
  /-- TRIM_MEASURE_DONE (R614). -/
  | trimMeasureDone
  /-- TRIM_COMMIT (R615). -/
  | trimCommit (ses : Fin 64)
  /-- TRIM_COMMIT_DONE (R615). -/
  | trimCommitDone
  /-- ADTIEB_COMMIT (R618). -/
  | adtiebCommit
  /-- ADTIEB_SECOND (R620). -/
  | adtiebSecond (temps : List (Option Int))
  /-- MGT_LINK_CHANGE (R147). -/
  | mgtLinkChange (p : Fin 2) (up : Bool)
  /-- IJTAG_ACCESS (R579). -/
  | ijtagAccess (op : IjtagOp)
  /-- PPS_OUT_FALL (R503). -/
  | ppsOutFall
deriving DecidableEq, Repr

end Sys2Proof
end

