-- ==== Sys2Proof/Config.lean ====
section
/-! DEFINITION. What one device fixes at manufacture, what cryptography answers, and the free values: constants
without a body, so that no proof can see what they are. -/

namespace Sys2Proof

/-- The n-th free value of a run: what the spec leaves open while the device goes on (log entry 2). -/
opaque Config.freeValue : Nat → BitVec 64

/-- DEV-SERIAL, fixed at manufacture (R140). -/
opaque Config.devSerial : BitVec 64

/-- A: the alignment-marker period that IEEE 802.3 fixes for the PCS of a PG-MODE, in the positions of a lane's stream (R187). -/
opaque Config.markerPeriod : Nat → BitVec 24

/-- SHA3-256 (FIPS 202) of an octet string (R135, R543, R554). -/
opaque Config.sha3 : List Byte → BitVec 256

/-- ML-DSA-44 (FIPS 204) signing in hedged mode: key, context string, message and hedge; 2,420 octets (R553). -/
opaque Config.mldsaSign : Nat → List Byte → List Byte → BitVec 256 → BitVec 19360

/-- ML-KEM-768 (FIPS 203) decapsulation: key and ciphertext; answers the shared secret, which a wrong ciphertext only makes another (R549). -/
opaque Config.mlkemDecaps : Nat → List Byte → BitVec 256

/-- XTS-AES-256 encryption (IEEE 1619) of one 64-octet data unit under a 512-bit key pair and a tweak (R412). -/
opaque Config.xts (key : BitVec 512) (tweak : BitVec 128) : BitVec 512 → BitVec 512

/-- AES-256-GCM sealing: key, 12-octet nonce, additional data, text; answers tag and ciphertext (R562). -/
opaque Config.gcmSeal : Nat → Nat → List Byte → List Byte → BitVec 128 × List Byte

/-- AES-256-GCM opening: key, nonce, tag, additional data, ciphertext; none where the tag fails (R562). -/
opaque Config.gcmOpen : Nat → Nat → Nat → List Byte → List Byte → Option (List Byte)

/-- SEQUENCE of the header of a NOTIFY frame, which Table 5.2 does not state, by epoch and counter (log entry 140). -/
opaque Config.notifySequence : Nat → Nat → BitVec 64

/-- The n-th octet string of 32 octets the DRBG answers (R563). -/
opaque Config.drbg : Nat → BitVec 256

/-- Factory trim record of a tile, 16 octets (Table 21.2), measured at manufacture. -/
opaque Config.factoryTile : Nat → BitVec 128

/-- Safe margin codes of a tile in the layout of Table 21.2 (R43, R613). -/
opaque Config.safeTile : Nat → BitVec 128

/-- Fused floor codes of a tile, one octet a class, 0xFF absent (R610, R612). -/
opaque Config.trimFloor : Nat → BitVec 128

/-- Factory die record of a die index, 8 octets (Table 21.3). -/
opaque Config.factoryDie : Nat → BitVec 64

/-- The public key of an identity slot or the fixed keys: 0 slot 66, 1 debug key, 2 vendor bundle key, 3 slot 67 (R552, R555, R573). -/
opaque Config.publicKey : Nat → List Byte

/-- A certificate of DEV-CERTS, 8,192 octets (R552). -/
opaque Config.devCert : Nat → BitVec 65536

/-- The keys placed at manufacture in slots 64, 66, 67 and 68 (Table 18.5). -/
opaque Config.factoryKey : Nat → BitVec 512

/-- FL-PEN, the enterprise number (R534). -/
opaque Config.flPen : BitVec 32

/-- MAC address that a management port's neighbour has for an address: the spec does not say what answers its ARP or neighbour solicitation (log entry 180). -/
opaque Config.neighbourMac : Nat → Nat → BitVec 48

/-- What a line of a stack holds that the model keeps no content of: held lines, and lines of pool buffers outside their use (log entry 89). -/
opaque Config.restLine : Nat → Nat → BitVec 512

/-- Least passing margin code of a stage class of a tile at the n-th measurement (R614). -/
opaque Config.measuredCode : Nat → Nat → Nat → BitVec 6

end Sys2Proof
end

