-- ==== Sys2Proof/Machine/State.lean ====
section
/-! DEFINITION. The state of the block: plain data, every field with the value it has at reset.
Reset is the mode DARK with no Lantern rail, on a device as it leaves the factory (R74, R535): volatile state is at its
defaults, MRAM holds the lifecycle SHIPPED and the factory trim set (log entries 1 and 4). -/

namespace Sys2Proof.Machine

/-- The twelve modes (Table 3.1). -/
inductive Mode where
  | dark | pilot | kindle | trim | primed | lit | lean | ebb | banked | guard | probe | quench
deriving DecidableEq, Repr

/-- A transition in progress (R72): waiting for functions to stop or for a batch that holds them (R91, R124), KINDLE towards TRIM or PRIMED, an
assembly reset, unparking to LIT, the drain of a BANKED request, the return from EBB, the exit from BANKED, and QUENCH before and after
its zeroisation. -/
inductive Trans where
  | stops (goal : Mode)
  | kindle (goal : Mode)
  | assembly
  | toLit
  | drain
  | ebbReturn (goal : Mode)
  | bankedExit (goal : Mode)
  | quench (zeroised : Bool)
deriving DecidableEq, Repr

/-- MODE-CUR, MODE-TARGET, MODE-RETURN and the transition in progress (R67, R71, R77). -/
structure ModeCtl where
  mode : Mode := .dark
  target : Mode := .dark
  ret : Mode := .lit
  trans : Option Trans := none
deriving DecidableEq, Repr

/-- Function states (Table 4.3). -/
inductive FnState where
  | stopped | starting | running | stopping | faulted
deriving DecidableEq, Repr

/-- A function control record (Table 4.3); FN-PENDING is computed. -/
structure FnRec where
  state : FnState := .stopped
  disp : Nat := 0
  fallback : Nat := 0
  holdAge : Nat := 1000
  since : Nat := 0
  startErr : Nat := 0
  met : Nat := 0
  holder : Nat := 0xFF
  stopNext : Bool := false
  startNext : Bool := false
deriving DecidableEq, Repr

/-- Types of object values (Table 0.4). -/
inductive Ty where
  | b | u8 | u16 | u32 | u64 | s32 | s64 | e8 | m32 | m64 | t96 | os | tbl | cmd
deriving DecidableEq, Repr

/-- Access codes (Table 0.5). -/
inductive Acc where
  | ro | rw | rs | rl | wo | cm
deriving DecidableEq, Repr

/-- The range rule of an object: none, an unsigned or signed interval, a mask of writable bits, or a rule of its own. -/
inductive Chk where
  | any
  | rng (lo hi : Nat)
  | srng (lo hi : Int)
  | mask (m : Nat)
  | special
deriving DecidableEq, Repr

/-- The functions that own an object: none, function base + instance div d, the 16 basins, basins and sluices, the rule
sets that name an exact table (R255), the regions a ternary entry lies in (R258), or the list of the interface (R484). -/
inductive Own where
  | none
  | fn (base div : Nat)
  | basins
  | basinsSluices
  | exact
  | tcam
  | lifQueue
deriving DecidableEq, Repr

/-- One row of an object table: area, base item, subindex, instances (the stride is 1 throughout), type, octets of the value
or entry, access, privilege, default, range rule, owners, whether MRAM keeps it, and the entries of a table. -/
structure ObjDef where
  area : Nat
  item : Nat
  sub : Nat
  count : Nat
  ty : Ty
  len : Nat
  acc : Acc
  priv : Nat
  dflt : Nat
  chk : Chk
  own : Own
  mram : Bool
  entries : Nat
deriving DecidableEq, Repr

/-- Clelek status codes (Table 5.6). -/
inductive Status where
  | ok | deferred | unknownObject | type | range | access | privilege | functionRunning | functionFaulted | mode
  | auth | replay | session | busy | batchTooLarge | batchAborted | signature | lifecycle
deriving DecidableEq, Repr

/-- What the device puts on its ports: a Clelek reply and a NOTIFY frame, each with its body as sent and its GCM tag (R151), a management-port
answer, a frame on a breakout port, a punted packet with its destination, header and tag (R175), a flare message, an AVSBus setpoint, a pause frame, a FlexE calendar request, and what a READ_CLEAR of FLW-SLOTS brings that has waited for its slots (R321). -/
inductive Out where
  | reply (session path dest : Nat) (op seq : Nat) (conf more : Bool) (status : Status) (count : Nat) (body : List Byte) (epoch ctr tag : Nat)
  | note (session path dest : Nat) (record : Nat) (epoch ctr tag : Nat)
  | mgt (port : Nat) (kind : Nat) (data : List Byte)
  | frame (bport : Nat) (data : List Byte)
  | punt (port dest : Nat) (hdr : Nat) (data : List Byte) (tag : Nat)
  | flare (port col : Nat) (data : List Byte)
  | avs (rail mv : Nat)
  | pause (bport cls quanta : Nat)
  | calendar (group use : Nat)
  | slots (session : Nat) (status : Status) (data : List Byte)
deriving DecidableEq, Repr

/-- The clock, the free-value counter, the object values, table entries, pending RL values and functions.
`frc` counts 2^-16 ns (R497); `objs` is keyed by identifier (R105), `tabs` by identifier times 2^32 plus index. -/
structure Com where
  frc : Nat := 0
  free : Nat := 0
  objs : Map Nat := []
  tabs : Map Nat := []
  pend : Map (Option Nat) := []
  fns : Map FnRec := []
  status : Status := .ok
  value : Nat := 0
  out : List Out := []
deriving DecidableEq, Repr

/-- An AVSBus loop of a core die (R59 to R64): intervals in a row below the band, whether the setpoint moved in the last one, FAILED, when the
die reached AT-CEILING and since when its deficit is counted, the last setpoint acknowledged, when the last interval was, and what the interval
in progress steers by: active target, range and hysteresis. -/
structure Avs where
  below : Nat := 0
  moved : Bool := false
  failed : Bool := false
  ceil : Option Nat := none
  deficit : Option Nat := none
  acked : Nat := 0
  at_ : Option Nat := none
  tgt : Nat := 370
  vmin : Nat := 650
  vmax : Nat := 800
  hyst : Nat := 10
  every : Nat := 100
deriving DecidableEq, Repr

/-- Power, pace and thermal state that no object holds: AVSBus loops, excluded tiles, margin overrides of IJTAG-RW, dies
armed for a THERMAL record (R643), whether start-up is held for want of a reference (R635), and
whether THERMTRIP_N is low (R641). READY and FAULT_N are computed (R82, R604). -/
structure Pwr where
  avs : Map Avs := []
  excl : Map Bool := []
  override : Map (Option Nat) := []
  warm : Map Bool := []
  held : Bool := false
  tripped : Bool := false
deriving DecidableEq, Repr

/-- What the mode rules remember (ch. 03): functions that ran at entry to EBB, those the device stopped and the host
stopped during EBB, parked port groups, the aging clock's suspended time, when the transition in progress was accepted, and when
the counters of area 98 were copied for BANKED, with the copy, and whether containment or an overflow stood at the request for service (R76, R78, R81, R93, R94, R518). -/
structure Trn where
  ran : List Nat := []
  devStopped : List Nat := []
  hostStopped : List Nat := []
  parked : List Nat := []
  suspended : Nat := 0
  quenchCore : Bool := false
  suspendAt : Option Nat := none
  drained : Bool := false
  limitOver : Bool := false
  quenchSession : Nat := 0
  quenchKey : Bool := false
  quenchCopy : Nat := 0
  acceptAt : Nat := 0
  copyAt : Nat := 0
  counters : Map Nat := []
  guardAsk : Bool := false
deriving DecidableEq, Repr

/-- Where a reply goes and what it answers: session, path, source of the request, operation, the sequence of its last frame, CONF (R150, R152). -/
structure RepTo where
  ses : Nat
  path : Nat
  dest : Nat
  op : Nat
  seq : Nat
  conf : Bool
deriving DecidableEq, Repr

/-- A window write in progress (R132, R169): table, base, count, entries applied, and the status so far. -/
structure WinMsg where
  id : Nat
  base : Nat
  count : Nat
  done : Nat
  acc : Status
deriving DecidableEq, Repr

/-- An open multi-frame message of a session (R154): octets so far, when its last frame came, and the progress of a window write. -/
structure OpenMsg where
  toward : RepTo
  body : List Byte
  lastAt : Nat
  win : Option WinMsg
deriving DecidableEq, Repr

/-- A record of a batch or bundle (Table 4.9); `bad` one that is not well formed. -/
inductive BRec where
  | segBegin (fns : List Nat)
  | write (id : Nat) (val : List Byte)
  | winWrite (id base count : Nat) (data : List Byte)
  | segEnd (leave : Nat)
  | bad
deriving DecidableEq, Repr

/-- A batch or bundle that has passed its checks (R166 to R168): who is answered, unless its session has closed since, its holder number,
privilege, records, and for a bundle its BUNDLE-ID and digest. -/
structure Staged where
  toward : RepTo
  mute : Bool
  holder : Nat
  priv : Nat
  recs : List BRec
  bundle : Bool
  id : Nat
  digest : Nat
deriving DecidableEq, Repr

/-- What an execution waits for (R123, R166): functions to stop or to run, or the request entries of a record to complete (R322). -/
inductive JobPhase where
  | run | stops | starts | entries
deriving DecidableEq, Repr

/-- The batch or bundle in execution: records to come, the functions its segment holds, what it waits for, reply records so far with their
number, the status so far, segments completed, and the request entries that the record in hand has started (R322). -/
structure Job where
  st : Staged
  rest : List BRec
  seg : List Nat
  phase : JobPhase
  out : List Byte
  n : Nat
  acc : Status
  segs : Nat
  wait : List Nat := []
deriving DecidableEq, Repr

/-- A slot of FLW-SLOTS that a reply waits to read (R321): where its octets stand in the body, its number, its read, and whether it has been read. -/
structure SlotRead where
  off : Nat
  slot : Nat
  id : Nat
  done : Bool := false
deriving DecidableEq, Repr

/-- A reply that waits for the request entries its write has started (R322), or for slots to be read (R321): request places still open, what it says,
the slots, and of a window read the table, first entry and count that its frames name. -/
structure Owed where
  toward : RepTo
  wait : List Nat
  status : Status
  count : Nat
  body : List Byte
  slots : List SlotRead := []
  frames : Option (Nat × Nat × Nat) := none
deriving DecidableEq, Repr

/-- A subscription's running state (R171, R172). Tokens are held in units of 10^-9. -/
structure SubRt where
  path : Nat := 0
  dest : Nat := 0
  tok : Nat := 0
  at_ : Nat := 0
  missed : Nat := 0
  missAt : Nat := 0
  lastMiss : Nat := 0
  lossAt : Nat := 0
deriving DecidableEq, Repr

/-- A session's window into a table (R131). -/
structure Win where
  base : Nat := 0
  count : Nat := 1
  next : Nat := 0
deriving DecidableEq, Repr

/-- A quote waiting for its signature (R553). -/
structure AttReq where
  toward : RepTo
  challenge : List Byte
deriving DecidableEq, Repr

/-- A packet waiting to be punted, and one injected (R177, R178). -/
structure HostPkt where
  lif : Nat
  tc : Nat
  reason : Nat
  tenant : Nat
  ruleRef : Nat
  ts : Nat
  tag : Nat
  pipeline : Bool
  data : List Byte
deriving DecidableEq, Repr

/-- The Clelek engine and the host path (ch. 05). `inbandTx` lists the device frames sent in band that the counters of their ports have yet to take:
where each goes and its length (R520, log entry 8). -/
structure Clk where
  engineQ : List ClFrame := []
  msgs : Map (Option OpenMsg) := []
  staged : List Staged := []
  job : Option Job := none
  owed : List Owed := []
  reads : Nat := 0
  floor : Map Nat := []
  devCtr : Map Nat := []
  wins : Map Win := []
  subs : Map SubRt := []
  noteNum : Nat := 0
  attQ : List AttReq := []
  inbandSec : Nat := 0
  inbandN : Nat := 0
  inbandTx : List (Nat × Nat) := []
  puntQ : Map (List HostPkt) := []
  puntCount : Nat := 0
  injQ : List HostPkt := []
  puntAt : Nat := 0
  injAt : Nat := 0
  injHigh : Nat := 0
  injFloor : Nat := 0
deriving DecidableEq, Repr

/-- A pending change of adjusted time (Table 16.1). -/
inductive TbStep where
  | adjust (ns : Int)
  | set (t96 : Nat)
  | setAtPps (t96 : Nat)
deriving DecidableEq, Repr

/-- The timebase (ch. 16): anchor in 2^-16 ns, rate in force, pending changes with the FRC of the write, the transmit
timestamp queue and lost ring position, PPS output state. -/
structure Tb where
  frc0 : Nat := 0
  adj0 : Int := 0
  rate : Int := 0
  step : Option TbStep := none
  stepAt : Nat := 0
  rateAt : Nat := 0
  ppsLast : Option Nat := none
  ppsOut : Bool := false
  ppsRise : Option Nat := none
  ppsNext : Option Int := none
  txq : List Nat := []
  txTied : Nat × Nat := (0, 0)
  lostNext : Nat := 0
  refLost : List Nat := []
  lossSec : Nat := 0
deriving DecidableEq, Repr

/-- Lifecycle states (Table 18.1). -/
inductive Life where
  | test | shipped | owned | returned | spent
deriving DecidableEq, Repr

/-- A key slot (Table 18.5): state 0 EMPTY, 1 LOADED, 2 CORRUPT, 3 DISABLED; the key itself is read by no path. -/
structure Slot where
  state : Nat := 0
  purpose : Nat := 0
  key : Nat := 0
  nonce : Nat := 0
  loaded : Nat := 0
deriving DecidableEq, Repr

/-- Identity, keys and random numbers (ch. 18). -/
structure Sec where
  life : Life := .shipped
  slots : Map Slot := []
  root : List Byte := []
  drbgCtr : Nat := 0
  generates : Nat := 0
  reserve : Option (Nat × Nat) := none
deriving DecidableEq, Repr

/-- The wick in force (R576). -/
structure Wick where
  level : Nat
  ses : Nat
  ticket : Nat
deriving DecidableEq, Repr

/-- Debug (ch. 19): the wick or TEST level in force, the TAP instruction, what the boundary cells of the output balls hold (R571), whether this PROBE visit has scanned, and whether level 4 has
ended in PROBE (R581). -/
structure Dbg where
  wick : Option Wick := none
  testLevel : Option Nat := none
  level : Nat := 0
  logNext : Nat := 0
  tap : Nat := 0x01
  cells : Nat := 0
  scanned : Bool := false
  scanEnd : Bool := false
deriving DecidableEq, Repr

/-- A fault record (Table 20.7) as it waits in the queue or is logged. -/
structure FltRec where
  seq : Nat
  time : Nat
  tile : Nat
  cls : Nat
  detail : Nat
  arg : Nat
  suppressed : Bool
  rescan : Bool
  overflow : Bool
  init : Nat
deriving DecidableEq, Repr

/-- Containment of a block, keyed by its first tile (R586 to R600): level, whether a reset is in progress, the functions to
restart, since when the stable period runs, whether the level-1 period follows a restore, the FRC of the last end, the
pending level of an overflow, and whether a host's reset of an HBM controller block is in progress (R417). -/
structure Contain where
  level : Nat := 0
  resetting : Bool := false
  restart : List Nat := []
  stableAt : Option Nat := none
  restore : Bool := false
  endedAt : Option Nat := none
  pendLevel : Nat := 0
  hostReset : Bool := false
deriving DecidableEq, Repr

/-- The snuffer (ch. 20). -/
structure Flt where
  queue : List FltRec := []
  seq : Nat := 0
  logNext : Nat := 0
  pinLatch : Bool := false
  blk : Map Contain := []
  dead : Bool := false
  handback : Map Nat := []
  rebuild : Map Bool := []
  rebuildAt : Map Nat := []
  lostPair : Map Bool := []
deriving DecidableEq, Repr

/-- A trim set: origin, generation, time of commit, and the records that differ from the factory or safe set it began as
(Tables 21.1 to 21.3). `sound` says that the header and DIGEST check out (R611). -/
structure TrimImg where
  origin : Nat := 0
  generation : Nat := 1
  written : Nat := 0
  safe : Bool := false
  sound : Bool := true
  tiles : Map (Option Nat) := []
  dies : Map (Option Nat) := []
deriving DecidableEq, Repr

/-- An Adtieb image (R618): commit number, mode at commit, counters and histograms. -/
structure AdtImg where
  num : Nat
  mode : Nat
  counters : Map Nat
  hists : Map Nat
deriving DecidableEq, Repr

/-- The trim set in MRAM, the set in force, the working image and the Adtieb record with the last second of FRC counted (ch. 21). -/
structure Trm where
  stored : Option TrimImg := some {}
  inForce : Option TrimImg := none
  work : Option TrimImg := none
  measuring : Option Nat := none
  committing : Option TrimImg := none
  measures : Nat := 0
  evSeq : Nat := 0
  evSec : Nat := 0
  evN : Nat := 0
  images : List AdtImg := []
  counters : Map Nat := []
  hists : Map Nat := []
  lastCommit : Option Nat := none
  commitDue : Bool := false
  secDone : Nat := 0
deriving DecidableEq, Repr

/-- A cell of an on-die pool in use: its owner (Table 13.3) and the breakout port and class charged (R424). -/
structure CellRec where
  owner : Nat
  bport : Nat
  cls : Nat
deriving DecidableEq, Repr

/-- An on-die pool: freed cells, last freed first, then the cells from `fresh` on that were never taken; the side words in use
and the rotation state (R421, R426). -/
structure PoolSt where
  freed : List Nat := []
  fresh : Nat := 0
  used : Map (Option CellRec) := []
  rot : Nat := 0
deriving DecidableEq, Repr

/-- An HBM pool: freed buffers, last freed first, then those from `fresh` on; free count, stock, the octets that
each basin is charged for it, and state (R429 to R434). -/
structure HPool where
  freed : List Nat := []
  fresh : Nat := 0
  free : Nat := 262144
  stock : Nat := 32
  charge : Map Nat := []
  frozen : Bool := false
  rebuilding : Bool := false
  rot : Nat := 0
deriving DecidableEq, Repr

/-- Where a packet stands in its reach. -/
inductive Stage where
  | fifo | graphFifo | ctx | graph | parsed | pass | water | ready | held
deriving DecidableEq, Repr

/-- The working result of a packet (R246): destination, class, DSCP, flow class, copies, policer, tag, generations, pass number,
the rule set of the present or next pass, and the RULE-REF of the list that set DEST. -/
structure Work where
  dest : Nat := 0
  tc : Nat := 0
  dscp : Option Nat := none
  cls : Nat := 0
  noCreate : Bool := false
  copy : Option Nat := none
  mirror : Option (Nat × Nat) := none
  pol : Option Nat := none
  tag : Nat := 0
  gens : List (Nat × Nat) := []
  pass : Nat := 0
  set : Nat := 0
  restarted : Bool := false
  ref : Nat := 0
  bypass : Bool := false
deriving DecidableEq, Repr

/-- What step 1 of a pass found (R245): route and exact entries hit, the DEST in force with its RULE-REF, and the exact entry's PARAM and list. -/
structure PassLook where
  route : Option Nat
  ex : Option Nat
  dest : Nat
  ref : Nat
  param : Nat
  exList : Nat
deriving DecidableEq, Repr

/-- A packet in a reach, from its FIFO to its last reference: frame without FCS, parse result (Table 7.5), flow key (Table 7.7),
hashes, ordering lane, holds, query and verdict (Table 9.7), cell and references. `helds` are the functions that have held it with the moment it met
each (R129), `ebb` says that it was admitted before EBB (R92), `inCtx` that it still has its taper context, `again` that it has re-entered and waits
for a slot (R247), `domain` is its tenant's route domain (R244), `voqd` that its cell has been handed to the VOQ set (R428), `look` step 1 of the present pass, and `pdelay` marks a message that Table 16.2
punts. -/
structure Pkt where
  reach : Nat
  bport : Nat
  lif : Nat
  tenant : Nat
  tc : Nat
  data : List Byte
  stamp : Int
  ts : Nat
  flexe : Bool
  at_ : Nat
  stage : Stage
  binding : Nat := 0
  prog : Nat := 0
  res : Nat := 0
  key : Nat := 0
  hash : Nat := 0
  spread : Nat := 0
  lane : Option Nat := none
  heldBy : Nat := 0
  heldAt : Nat := 0
  released : Bool := false
  w : Work := {}
  query : Option Nat := none
  result : Bool := false
  parked : Bool := false
  verdict : Option Nat := none
  cell : Option (Nat × Nat) := none
  refs : Nat := 0
  done : List Nat := []
  pend : Option Nat := none
  helds : List (Nat × Nat) := []
  ebb : Bool := false
  inCtx : Bool := false
  again : Bool := false
  domain : Nat := 0
  voqd : Bool := false
  look : Option PassLook := none
  pdelay : Bool := false
deriving DecidableEq, Repr

/-- A frame on its way to and through an egress reach: a copy of a packet with what rewrite and scheduling use (R444, R474). `kind` is
0 unicast, 1 mirror, 2 multicast, 3 injected; `src` the packet at its ingress reach; `chan` the channel its hash names; `ptp` the offset of
a PTP message in `data` and what carries it (0 Ethernet, 1 UDP over IPv4, 2 UDP over IPv6); `waited` and `late`
say that it has been counted in ES-GATE-WAITS and ES-GATE-LATE, `met` that FN-MET of its port group has counted it, `sent` is when its channel took it. -/
structure Copy where
  kind : Nat
  src : Nat
  inReach : Nat
  chan : Nat
  inPort : Nat
  inLif : Nat
  lif : Nat
  rw : Nat
  tc : Nat
  data : List Byte
  res : Nat
  dscp : Option Nat
  ecn : Bool
  verdict : Nat
  stamp : Int
  flexe : Bool
  group : Nat
  voq : Nat
  ptp : Option (Nat × Nat)
  tag : Nat
  cell : Option (Nat × Nat)
  waited : Bool
  late : Bool
  met : Bool := false
  sent : Nat := 0
deriving DecidableEq, Repr

/-- An event (Tables 11.3 and 11.4): its 16-octet head and 48-octet body, the record of its sender (R314, R371), the steps it has run, its saved
progress, whether its post has been counted as waiting, the sluice and context that wait at the post (R361), and of a LINK-CREATE or PAIR-NOTE the pair that it
is about (Table 10.2). -/
structure Ev where
  head : Nat
  body : Nat
  sender : Nat := 0
  steps : Nat := 0
  pos : Nat := 0
  waited : Bool := false
  by_ : Option (Nat × Nat) := none
  pair : Nat := 0
deriving DecidableEq, Repr

/-- A message of the confluence (Table 14.1), in the octet forms of Tables 9.5 to 9.7 and 11.3 where the spec gives one. -/
inductive Msg where
  | query (b pkt q : Nat)
  | result (b pkt v : Nat)
  | park (b pkt : Nat)
  | verdict (pkt v : Nat)
  | request (ing voq : Nat) (pending : Bool)
  | ret (ing voq octets : Nat)
  | skip (ing pkt group cls : Nat)
  | grant (voq octets : Nat)
  | done (pkt egress : Nat)
  | portState (b state : Nat)
  | event (b : Nat) (e : Ev)
deriving DecidableEq, Repr

/-- A confluence channel: its message FIFO, the packets on their way and the VOQ last chosen (R444, R445), the FRC at which its data path is free (R442), and the
time up to which CH-WAITS has counted. -/
structure ChSt where
  msgs : List Msg := []
  flight : List Copy := []
  last : Nat := 0
  busy : Nat := 0
  waited : Nat := 0
deriving DecidableEq, Repr

/-- A reference in a VOQ: packet, whether a mirror copy, its ECN mark and time of entry (R448 to R451). -/
structure VRef where
  pkt : Nat
  mirror : Bool
  ecn : Bool
  at_ : Nat
deriving DecidableEq, Repr

/-- A VOQ with its credit, whether it stands as pending at its egress reach, and since when its head could be sent for its credit (R446, R452, R454). -/
structure Voq where
  q : List VRef := []
  credit : Int := 0
  pending : Bool := false
  readyAt : Option Nat := none
deriving DecidableEq, Repr

/-- A replication in progress: the packet, its group entry, the next position and the refused positions (R460, R461). -/
structure Repl where
  copy : Copy
  group : Nat
  next : Nat := 0
  refused : Nat := 0
  beyond : Bool := false
deriving DecidableEq, Repr

/-- A reach: its FIFOs, the frames in its graph parser in the order taken, backwater, view of port states, ECN register, rotations, packets to
replicate and the replication in progress. -/
structure Rch where
  fifo : List Nat := []
  gfifo : List Nat := []
  gpipe : List Nat := []
  rel : List Nat := []
  water : List Nat := []
  view : Map Nat := []
  lfsr : Nat := 0xACE1
  gntRot : Nat := 0
  rxRot : Nat := 0
  dropRot : Nat := 0
  mcq : List Copy := []
  repl : Option Repl := none
deriving DecidableEq, Repr

/-- What an in-flight entry serves (R335, R338): a packet, a host request of a session, the event in a mill context, a read of a slot by its number,
or a relocation, split move or sweep write, which the operation of an entry (`sluice` false) or the event in a context (true) makes. -/
inductive IOp where
  | packet (pkt : Nat)
  | host (ses i : Nat)
  | mill (ctx : Nat)
  | read (id : Nat)
  | move (sluice : Bool) (of_ : Nat)
deriving DecidableEq, Repr

/-- How far an entry's lookup has come (R282): not begun, heads of the first or second candidate bucket, tail of a slot, or done. -/
inductive Look where
  | idle | heads (second : Bool) | tail (slot : Nat) | found | absent
deriving DecidableEq, Repr

/-- An in-flight entry (R335 to R340): operation, key, query message, time, receipt order, lookup, reads outstanding, result; whether it creates, has been
counted as waiting in its chain or for a way, and has met a creation before it; relocation moves made for it, whether its CREATE event is lost (R385), and
the FLW-CLASS entry by which its creation was decided (R316). -/
structure Ift where
  op : IOp
  key : Nat
  hash : Nat
  q : Nat
  at_ : Nat
  seq : Nat
  look : Look
  reads : Nat
  result : Option Nat
  creating : Bool
  behind : Bool
  wayWait : Bool
  joined : Bool
  moves : Nat := 0
  lost : Bool := false
  cls : Nat := 0
deriving DecidableEq, Repr

/-- A way of an eddy (R292): slot, record, whether dirty and since when, use order, write-backs outstanding with the record they carry. -/
structure Way where
  slot : Nat
  rec_ : Nat
  dirty : Bool
  dirtyAt : Nat
  used : Nat
  wb : Nat
  wbRec : Nat
deriving DecidableEq, Repr

/-- What is left of an event whose built-in work is done while a post of it waits (R361): its in-flight entry, kind, steps, and what its epilogue is given. -/
structure CtxEnd where
  entry : Option Nat
  kind : Nat
  steps : Nat
  live : Option Nat
  rec_ : Nat
  outcome : Nat
  why : Nat
deriving DecidableEq, Repr

/-- A mill context: its event, class, whether it stands in the shared remainder, dispatch order, and the reply of a
POOL-ALLOC it waits for: the port, or the reason of its failure (R365 to R369); its posts that have not met their list, and what is left once they have. -/
structure Ctx where
  ev : Ev
  cls : Nat
  shared : Bool
  ord : Nat
  asked : Bool
  reply : Option (Nat ⊕ Nat)
  posts : Nat := 0
  fin : Option CtxEnd := none
deriving DecidableEq, Repr

/-- A sluice: arriving events, ready lists by class, list pointer, contexts, sweep and split progress, and its trace (ch. 11), with whether the head of the
trace queue has been counted as waiting for its pseudo-channel (R398). -/
structure Slu where
  inbox : List Ev := []
  flow : List Ev := []
  age : List Ev := []
  exp : List Ev := []
  maint : List Ev := []
  ptr : Nat := 0
  ord : Nat := 0
  ctxs : Map (Option Ctx) := []
  sweepAt : Nat := 0
  sweepOut : Bool := false
  sweepDue : Bool := false
  sweepPos : Nat := 0
  sweepNb : Nat := 0
  passAt : Nat := 0
  passes : Nat := 0
  splitOut : Bool := false
  splitAt : Nat := 0
  trcSeq : Nat := 0
  trcQ : List Nat := []
  trcGap : Nat := 0
  trcLeft : Nat := 0
  trcWrote : Nat := 0
  trcWait : Bool := false
deriving DecidableEq, Repr

/-- An operation that waits at a basin's entrance (R336): what it serves, its key, its query message and its place in arrival order. -/
structure Arrival where
  op : IOp
  key : Nat
  q : Nat
  arr : Nat
deriving DecidableEq, Repr

/-- A basin: entrance queues, in-flight table, receipt order, creation tokens, recount and open export buffer (chs. 09, 10, 17). -/
structure Bsn where
  inPkt : List Arrival := []
  inOther : List Arrival := []
  ift : Map (Option Ift) := []
  seq : Nat := 0
  tok : Nat := 0
  tokAt : Nat := 0
  recount : Nat := 0
  pendCreate : Map Nat := []
deriving DecidableEq, Repr

/-- A translation pool at its home basin (R368): bitmap, count, cursor, the buffer that holds it, and the bitmap's poisoned lines (R436). -/
structure PPool where
  bits : Map Bool := []
  count : Nat := 0
  cursor : Nat := 0
  buf : Option (Nat × Nat) := none
  bad : List Nat := []
deriving DecidableEq, Repr

/-- A request in a pseudo-channel queue (R396): direction, lines, class, page hint, the lookup or write-back it belongs to, who asked (0 a basin), the access it
is part of, whether it reads a line for a copy that was uncorrectable (R408), whether the patrol scrub made it (R411), and the outcome of the ECC where that
came with the request. -/
structure HReq where
  write : Bool
  line : Nat
  lines : Nat
  cls : HCls
  opn : Bool
  look : Option (Nat × Nat)
  wb : Option (Nat × Nat × Nat)
  who : Nat
  acc : Nat := 0
  mend : Bool := false
  scrub : Bool := false
  ecc : Option EccOutcome := none
deriving DecidableEq, Repr

/-- A pseudo-channel (R397 to R400): queue, requests that wait at their requesters, open rows and refreshes owed by bank, and the requester admitted last. -/
structure Pc where
  rot : Nat := 0
  q : List HReq := []
  wait : List HReq := []
  rows : Map (Option Nat) := []
  owed : Map Nat := []
deriving DecidableEq, Repr

/-- Reads of a lost stack that its partner is to serve (R345): by pseudo-channel, the writes sent to the partner before the loss that have not completed; and
the reads, each with its pseudo-channel, issued once there are none. -/
structure Reissue where
  ahead : Map Nat := []
  reads : List (Nat × HReq) := []
deriving DecidableEq, Repr

/-- A channel of a stack (R401 to R405): 0 awake, 1 entering self-refresh, 2 in it, with the time of the state; empty since; last
training and its temperature (none: trained by KINDLE); and the self-refresh entries it has left or was put in at once (Table 12.6). -/
structure HCh where
  sr : Nat := 0
  srAt : Nat := 0
  emptyAt : Nat := 0
  trainAt : Nat := 0
  trainTemp : Option Int := none
  entries : Nat := 0
deriving DecidableEq, Repr

/-- A flare record in an export buffer: kind bit of Table 17.7, template ID and octets. -/
structure FlRec where
  kind : Nat
  tid : Nat
  data : List Byte
deriving DecidableEq, Repr

/-- An export buffer (R526): its basin, place, records, octets, the FRC of its first append, and in a collector's queue how many of its records are done with. -/
structure Xb where
  basin : Nat
  buf : Nat × Nat
  recs : List FlRec
  octs : Nat
  at_ : Nat
  done : Nat := 0
deriving DecidableEq, Repr

/-- What waits in a collector's queue (R530 to R532): a buffer, every template set, or a LOSS record. -/
inductive FlItem where
  | buf (x : Xb)
  | templates
  | loss (data : List Byte)
deriving DecidableEq, Repr

/-- The buffer of an item. -/
def FlItem.xb? : FlItem → Option Xb
  | .buf x => some x
  | _ => none

/-- A collector (R530, R531): its queue, each item with its die, template IDs it knows by die, sequence numbers by die, what
its token bucket lacks in 1/8000 octet, when templates were last sent, and records lost since the last LOSS second. -/
structure Col where
  q : List (Nat × FlItem) := []
  known : List (Nat × Nat) := []
  seq : Map Nat := []
  lack : Nat := 0
  lackAt : Nat := 0
  tmplAt : Nat := 0
  losses : Nat := 0
deriving DecidableEq, Repr

/-- A breakout port (chs. 06, 15, 17): raw defects, timers, pauses received and XOFF sent, the present second, deficits and turns of
its scheduler, what its port shaper lacks of its burst (in thousandths of an octet), transmit crossing FIFO, the end and class of the frame
last started, gate switch pending and the START of its gates (adjusted ns), the open bandwidth window, whether its link has completed training, and on
port 8n the skew that the deskew FIFOs of a FlexE group's members absorb, once measured. ADMIN is the cause of a port from the start. -/
structure PortSt where
  defects : Nat := 0
  cause : Nat := 24
  downAt : Option Nat := none
  upAt : Option Nat := none
  anAt : Option Nat := none
  paused : Map (Option Nat) := []
  xoff : Nat := 0
  xoffAt : Map Nat := []
  wasUp : Bool := false
  sawDown : Bool := false
  sawAny : Bool := false
  secAt : Nat := 0
  secStart : Option Nat := none
  fcs : Nat := 0
  degUp : Nat := 0
  degDown : Nat := 0
  cdef : Map Nat := []
  cturn : Option Nat := none
  qturn : Map (Option Nat) := []
  tok : Int := 0
  tokAt : Nat := 0
  txf : List Copy := []
  dropRot : Nat := 0
  gateAt : Option Nat := none
  txEnd : Nat := 0
  txLast : Nat := 0
  txOver : Bool := false
  txCls : Nat := 0
  gateFrom : Option Nat := none
  bwRx : Nat := 0
  bwTx : Nat := 0
  bwPart : Bool := false
  bwLen : Nat := 100000
  bwAt : Option Nat := none
  bwStart : Option Nat := none
  trained : Bool := false
  skew : Option Nat := none
deriving DecidableEq, Repr

/-- The span in which the condition of a general counter holds as long as only time goes on, and how far the counter has taken it (R523). -/
structure GecSpan where
  start : Nat
  stop : Option Nat
  seen : Nat
deriving DecidableEq, Repr

/-- The data plane (chs. 06 to 17), all of which KINDLE re-initialises (R86, R109). Keys: reaches, channels, basins, ports and pools by
their numbers; pools by 4r + k; lanes by 4096r + lane; VOQs by 8256r + number; egress queues, their deficits and their shapers by 8l + c; grant
rotation by VOQ number, credit out by 8 times VOQ number plus ingress reach; policers by 16384r + index; `oldMask` the flare template masks before their last write; `rsIn` the RS objects that act on
traffic while their function does not run, by identifier (R122); `growths` the growths begun; `linkFails` the primaries, by key, whose link could not be made and
whose PAIR-DELETE may still come (R372); `splits` the shares whose present bucket has begun to split (R338); `pairIds` the pair of each paired record, by key, and
`pairNext` the pairs made (Table 10.2); `ceTimes` when a stack's lines were read corrected in the last second (R407), `scrubAt` the line that its patrol
scrub reads next (R411), and `accNext` the accesses to HBM begun; `bwFirst` the FRC in ns and the adjusted time
at which the bandwidth windows that were open at KINDLE began (R525); reads reissued by the stack that serves them (R345); pending flags by reach times 8256 plus VOQ number at that reach; eddies by
131072b + 16 set + way; HBM copies of slots by copy times 2^32 plus slot of the device; pseudo-channels; channels by 32s + ch. -/
structure Dp where
  pkts : Map (Option Pkt) := []
  pktNext : Nat := 0
  rch : Map Rch := []
  pools : Map PoolSt := []
  hpools : Map HPool := []
  lanes : Map (List Nat) := []
  chans : Map ChSt := []
  voqs : Map Voq := []
  qdef : Map Nat := []
  out : Map Int := []
  gnt : Map Nat := []
  flags : Map Bool := []
  eqs : Map (List Copy) := []
  qtok : Map Int := []
  qtokAt : Map Nat := []
  ports : Map PortSt := []
  bsn : Map Bsn := []
  slu : Map Slu := []
  eddy : Map (Option Way) := []
  eddyUse : Nat := 0
  hbm : Map Nat := []
  wbq : Map (Option Nat) := []
  gone : Map Bool := []
  ppool : Map PPool := []
  pcs : Map Pc := []
  hch : Map HCh := []
  xbuf : Map (Option Xb) := []
  cols : Map Col := []
  gec : Map (Option GecSpan) := []
  bwFirst : Nat × Nat := (0, 0)
  flexReq : Map (Option Nat) := []
  pol : Map (Nat × Nat × Nat) := []
  seedDirty : Bool := false
  lossSeen : Nat := 0
  oldMask : Map Nat := []
  recounting : Bool := false
  remapping : Bool := false
  clearing : Bool := false
  growing : Bool := false
  growths : Nat := 0
  linkFails : List Nat := []
  splits : Map Bool := []
  pairIds : Map Nat := []
  pairNext : Nat := 0
  reissue : Map Reissue := []
  ceTimes : Map (List Nat) := []
  scrubAt : Map Nat := []
  accNext : Nat := 0
  rsIn : Map Nat := []
  flexIds : Map Nat := []
deriving DecidableEq, Repr

/-- Everything but the mode and the queue of commands. -/
structure Mach where
  com : Com := {}
  pwr : Pwr := {}
  trn : Trn := {}
  clk : Clk := {}
  tb : Tb := {}
  sec : Sec := {}
  dbg : Dbg := {}
  flt : Flt := {}
  trm : Trm := {}
  dp : Dp := {}
deriving DecidableEq, Repr

/-- The state of the block: the mode, the machine, and the commands that wait, first in, first out. -/
structure State where
  mc : ModeCtl := {}
  m : Mach := {}
  pending : List Instr := []
deriving DecidableEq, Repr

/-- Why a command stops the block. -/
inductive Fault where
  /-- Raised by every command outside the Lantern die while the snuffer has stopped: the device's state is undefined beyond R23 (R604). Safe. -/
  | snufferDead
deriving DecidableEq, Repr

/-- Why a command is not carried out. -/
inductive Refusal where
  /-- Raised by an arm of exec whose command has no meaning yet. Safe. -/
  | notModelled (mnemonic : String)
deriving DecidableEq, Repr

/-- Key slots as the factory leaves them: claim, identity and vendor keys loaded, the owner slots and the record slot empty
(Table 18.5, R535). -/
def State.factorySlots : Map Slot :=
  [(64, { state := 1, key := (Config.factoryKey 64).toNat }), (66, { state := 1, purpose := 2, key := (Config.factoryKey 66).toNat }),
   (67, { state := 1, purpose := 2, key := (Config.factoryKey 67).toNat }),
   (68, { state := 1, purpose := 2, key := (Config.factoryKey 68).toNat })]

/-- The machine before its Lantern rail is valid: DARK, volatile state at its defaults, MRAM as the factory leaves it. -/
def State.reset : State := { m := { sec := { slots := State.factorySlots } } }

end Sys2Proof.Machine
end

