-- ==== Sys2Proof/Machine/Dict.lean ====
section
/-! DEFINITION. The object dictionary (spec 04, R105 to R117, and the object tables of every chapter): one
definition per object row, in the tables' own columns, and the lists that gather them by area.
A value is held as the natural number its octets spell, most significant octet first (R5, R10).
Entries of a table object are numbered per instance. -/

namespace Sys2Proof.Machine


/-! Objects of spec/02_handshake_pace.md R66. -/

/-- PACE-TARGET-LIT -/
def O.paceTargetLit : ObjDef := ⟨0xC0, 0x1, 0, 1, .u16, 2, .rw, 1, 370, .rng 330 624, .none, false, 0⟩
/-- PACE-TARGET-LEAN -/
def O.paceTargetLean : ObjDef := ⟨0xC0, 0x2, 0, 1, .u16, 2, .rw, 1, 520, .rng 330 624, .none, false, 0⟩
/-- AVS-LOOP-EN -/
def O.avsLoopEn : ObjDef := ⟨0xC0, 0x3, 0, 1, .b, 1, .rw, 2, 1, .any, .none, false, 0⟩
/-- VCORE-MIN -/
def O.vcoreMin : ObjDef := ⟨0xC0, 0x4, 0, 1, .u16, 2, .rw, 2, 650, .rng 620 800, .none, false, 0⟩
/-- VCORE-MAX -/
def O.vcoreMax : ObjDef := ⟨0xC0, 0x5, 0, 1, .u16, 2, .rw, 2, 800, .rng 650 800, .none, false, 0⟩
/-- AVS-INTERVAL -/
def O.avsInterval : ObjDef := ⟨0xC0, 0x6, 0, 1, .u16, 2, .rw, 2, 100, .rng 50 1000, .none, false, 0⟩
/-- AVS-HYSTERESIS -/
def O.avsHysteresis : ObjDef := ⟨0xC0, 0x7, 0, 1, .u16, 2, .rw, 2, 10, .rng 0 50, .none, false, 0⟩
/-- MARGIN-SOURCE -/
def O.marginSource : ObjDef := ⟨0xC0, 0x9, 0, 1, .e8, 1, .ro, 0, 0, .any, .none, false, 0⟩
/-- VCORE-START -/
def O.vcoreStart : ObjDef := ⟨0xC0, 0x10, 0, 1, .u16, 2, .ro, 0, 0, .any, .none, false, 0⟩
/-- CORE-PACE -/
def O.corePace : ObjDef := ⟨0xC0, 0x200, 0, 4, .u8, 1, .ro, 0, 5, .any, .none, false, 0⟩
/-- CORE-PACE-WORST -/
def O.corePaceWorst : ObjDef := ⟨0xC0, 0x200, 1, 4, .u16, 2, .ro, 0, 0, .any, .none, false, 0⟩
/-- CORE-VCORE-READ -/
def O.coreVcoreRead : ObjDef := ⟨0xC0, 0x200, 2, 4, .u16, 2, .ro, 0, 0, .any, .none, false, 0⟩
/-- CORE-VCORE-SET -/
def O.coreVcoreSet : ObjDef := ⟨0xC0, 0x200, 3, 4, .u16, 2, .rw, 2, 0, .rng 600 820, .none, false, 0⟩
/-- CORE-AVS-STATE -/
def O.coreAvsState : ObjDef := ⟨0xC0, 0x200, 4, 4, .e8, 1, .ro, 0, 0, .any, .none, false, 0⟩
/-- CORE-PACE-DEFICIT -/
def O.corePaceDeficit : ObjDef := ⟨0xC0, 0x200, 5, 4, .u64, 8, .ro, 0, 0, .any, .none, false, 0⟩
/-- TILE-PACE -/
def O.tilePace : ObjDef := ⟨0xC0, 0x1000, 0, 442, .u8, 1, .ro, 0, 4, .any, .none, false, 0⟩
/-- TILE-PACE-EQ -/
def O.tilePaceEq : ObjDef := ⟨0xC0, 0x1000, 1, 442, .u16, 2, .ro, 0, 0, .any, .none, false, 0⟩
/-- TILE-PACE-SLOWEST -/
def O.tilePaceSlowest : ObjDef := ⟨0xC0, 0x1000, 2, 442, .u16, 2, .ro, 0, 0, .any, .none, false, 0⟩
/-- TILE-STATE -/
def O.tileState : ObjDef := ⟨0xC0, 0x1000, 3, 442, .e8, 1, .ro, 0, 0, .any, .none, false, 0⟩
/-- TILE-MARGIN -/
def O.tileMargin : ObjDef := ⟨0xC0, 0x1000, 4, 442, .u8, 1, .ro, 0, 0, .any, .none, false, 0⟩

/-! Objects of spec/03_modes_power_start.md R104. -/

/-- MODE-REQ -/
def O.modeReq : ObjDef := ⟨0x30, 0x1, 0, 1, .e8, 1, .rw, 1, 1, .any, .none, false, 0⟩
/-- MODE-CUR -/
def O.modeCur : ObjDef := ⟨0x30, 0x2, 0, 1, .e8, 1, .ro, 0, 0, .any, .none, false, 0⟩
/-- MODE-TARGET -/
def O.modeTarget : ObjDef := ⟨0x30, 0x3, 0, 1, .e8, 1, .ro, 0, 0, .any, .none, false, 0⟩
/-- MODE-RETURN -/
def O.modeReturn : ObjDef := ⟨0x30, 0x4, 0, 1, .e8, 1, .ro, 0, 5, .any, .none, false, 0⟩
/-- MODE-ENTERED -/
def O.modeEntered : ObjDef := ⟨0x30, 0x5, 0, 1, .t96, 12, .ro, 0, 0, .any, .none, false, 0⟩
/-- KINDLE-RESULT -/
def O.kindleResult : ObjDef := ⟨0x30, 0x6, 0, 1, .e8, 1, .ro, 0, 0, .any, .none, false, 0⟩
/-- QUENCH-TARGET -/
def O.quenchTarget : ObjDef := ⟨0x30, 0x8, 0, 1, .e8, 1, .rw, 2, 0, .rng 0 1, .none, false, 0⟩
/-- EBB-LIMIT -/
def O.ebbLimit : ObjDef := ⟨0x30, 0x9, 0, 1, .u32, 4, .rw, 1, 100, .rng 1 10000, .none, false, 0⟩
/-- EBB-DRAINED -/
def O.ebbDrained : ObjDef := ⟨0x30, 0xA, 0, 1, .b, 1, .ro, 0, 0, .any, .none, false, 0⟩
/-- VCORE-RETENTION -/
def O.vcoreRetention : ObjDef := ⟨0x30, 0x10, 0, 1, .u16, 2, .rw, 2, 550, .rng 520 600, .none, false, 0⟩
/-- LEAN-PARK -/
def O.leanPark : ObjDef := ⟨0x30, 0x12, 0, 1, .u8, 1, .ro, 0, 2, .any, .none, false, 0⟩
/-- LEAN-PARK-LO -/
def O.leanParkLo : ObjDef := ⟨0x30, 0x12, 1, 1, .m64, 8, .rl, 1, 0, .any, .none, false, 0⟩
/-- LEAN-PARK-HI -/
def O.leanParkHi : ObjDef := ⟨0x30, 0x12, 2, 1, .m64, 8, .rl, 1, 0, .any, .none, false, 0⟩
/-- LEAN-MILL-HALF -/
def O.leanMillHalf : ObjDef := ⟨0x30, 0x13, 0, 1, .b, 1, .rl, 1, 0, .any, .none, false, 0⟩
/-- RESET-BLOCK -/
def O.resetBlock : ObjDef := ⟨0x30, 0x20, 0, 1, .cmd, 2, .cm, 1, 0, .rng 0 435, .none, false, 0⟩
/-- RESET-DIE -/
def O.resetDie : ObjDef := ⟨0x30, 0x21, 0, 1, .cmd, 1, .cm, 2, 0, .any, .none, false, 0⟩
/-- RESET-ASSEMBLY -/
def O.resetAssembly : ObjDef := ⟨0x30, 0x22, 0, 1, .cmd, 0, .cm, 2, 0, .any, .none, false, 0⟩

/-! Objects of spec/04_object_dictionary.md R140. -/

/-- DEV-ORDER-CODE -/
def O.devOrderCode : ObjDef := ⟨0x10, 0x1, 0, 1, .os, 16, .ro, 0, 0x564955323034382d4c38413100000000, .any, .none, false, 0⟩
/-- DEV-STEPPING -/
def O.devStepping : ObjDef := ⟨0x10, 0x2, 0, 1, .u8, 1, .ro, 0, 161, .any, .none, false, 0⟩
/-- DEV-SERIAL -/
def O.devSerial : ObjDef := ⟨0x10, 0x3, 0, 1, .u64, 8, .ro, 0, 0, .any, .none, false, 0⟩
/-- DEV-DICT-REV -/
def O.devDictRev : ObjDef := ⟨0x10, 0x4, 0, 1, .u32, 4, .ro, 0, 65536, .any, .none, false, 0⟩
/-- LIFECYCLE -/
def O.lifecycle : ObjDef := ⟨0x10, 0x10, 0, 1, .e8, 1, .ro, 0, 0, .any, .none, false, 0⟩
/-- OBJ-DIR -/
def O.objDir : ObjDef := ⟨0x10, 0x30, 0, 1, .tbl, 16, .ro, 0, 0, .any, .none, false, 0⟩
/-- FN-DIR -/
def O.fnDir : ObjDef := ⟨0x10, 0x40, 0, 1, .tbl, 8, .ro, 0, 0, .any, .none, false, 1972⟩
/-- BUNDLE-STATUS -/
def O.bundleStatus : ObjDef := ⟨0x10, 0x50, 0, 1, .u8, 1, .ro, 0, 5, .any, .none, true, 0⟩
/-- BUNDLE-LAST-ID -/
def O.bundleLastId : ObjDef := ⟨0x10, 0x50, 1, 1, .u64, 8, .ro, 0, 0, .any, .none, true, 0⟩
/-- BUNDLE-RESULT -/
def O.bundleResult : ObjDef := ⟨0x10, 0x50, 2, 1, .u8, 1, .ro, 0, 0, .any, .none, true, 0⟩
/-- BUNDLE-FAIL-REC -/
def O.bundleFailRec : ObjDef := ⟨0x10, 0x50, 3, 1, .u32, 4, .ro, 0, 0, .any, .none, true, 0⟩
/-- BUNDLE-SEGS-DONE -/
def O.bundleSegsDone : ObjDef := ⟨0x10, 0x50, 4, 1, .u16, 2, .ro, 0, 0, .any, .none, true, 0⟩
/-- BUNDLE-TIME -/
def O.bundleTime : ObjDef := ⟨0x10, 0x50, 5, 1, .t96, 12, .ro, 0, 0, .any, .none, true, 0⟩
/-- PENDING-TOTAL -/
def O.pendingTotal : ObjDef := ⟨0x10, 0x60, 0, 1, .u32, 4, .ro, 0, 0, .any, .none, false, 0⟩

/-! Objects of spec/05_clelek_management_ports.md R147 R156 R174 R179. -/

/-- CLK-UDP-PORT -/
def O.clkUdpPort : ObjDef := ⟨0x20, 0x1, 0, 1, .u16, 2, .rw, 2, 49420, .any, .none, true, 0⟩
/-- CLK-FRAME-MAX -/
def O.clkFrameMax : ObjDef := ⟨0x20, 0x2, 0, 1, .u16, 2, .rw, 2, 1400, .rng 256 8192, .none, false, 0⟩
/-- INBAND-EN -/
def O.inbandEn : ObjDef := ⟨0x20, 0x3, 0, 1, .b, 1, .rw, 2, 0, .any, .none, false, 0⟩
/-- INBAND-LOCK -/
def O.inbandLock : ObjDef := ⟨0x20, 0x4, 0, 1, .b, 1, .rw, 2, 0, .any, .none, true, 0⟩
/-- INBAND-PORTS -/
def O.inbandPorts : ObjDef := ⟨0x20, 0x5, 0, 1, .u8, 1, .ro, 0, 2, .any, .none, false, 0⟩
/-- INBAND-PORTS-LO -/
def O.inbandPortsLo : ObjDef := ⟨0x20, 0x5, 1, 1, .m64, 8, .rw, 2, 18446744073709551615, .any, .none, false, 0⟩
/-- INBAND-PORTS-HI -/
def O.inbandPortsHi : ObjDef := ⟨0x20, 0x5, 2, 1, .m64, 8, .rw, 2, 18446744073709551615, .any, .none, false, 0⟩
/-- BOOT-EPOCH -/
def O.bootEpoch : ObjDef := ⟨0x20, 0x6, 0, 1, .u32, 4, .ro, 0, 0, .any, .none, true, 0⟩
/-- MGT -/
def O.mgt : ObjDef := ⟨0x20, 0x10, 0, 2, .u8, 1, .ro, 0, 10, .any, .none, false, 0⟩
/-- MGT-SPEED -/
def O.mgtSpeed : ObjDef := ⟨0x20, 0x10, 1, 2, .e8, 1, .rw, 2, 0, .rng 0 1, .none, false, 0⟩
/-- MGT-MAC -/
def O.mgtMac : ObjDef := ⟨0x20, 0x10, 2, 2, .os, 6, .rw, 2, 0, .any, .none, false, 0⟩
/-- MGT-IPV4 -/
def O.mgtIpv4 : ObjDef := ⟨0x20, 0x10, 3, 2, .os, 4, .rw, 2, 0, .any, .none, false, 0⟩
/-- MGT-IPV4-PLEN -/
def O.mgtIpv4Plen : ObjDef := ⟨0x20, 0x10, 4, 2, .u8, 1, .rw, 2, 24, .rng 8 30, .none, false, 0⟩
/-- MGT-GW4 -/
def O.mgtGw4 : ObjDef := ⟨0x20, 0x10, 5, 2, .os, 4, .rw, 2, 0, .any, .none, false, 0⟩
/-- MGT-IPV6 -/
def O.mgtIpv6 : ObjDef := ⟨0x20, 0x10, 6, 2, .os, 16, .rw, 2, 0, .any, .none, false, 0⟩
/-- MGT-GW6 -/
def O.mgtGw6 : ObjDef := ⟨0x20, 0x10, 7, 2, .os, 16, .rw, 2, 0, .any, .none, false, 0⟩
/-- MGT-LINK -/
def O.mgtLink : ObjDef := ⟨0x20, 0x10, 8, 2, .e8, 1, .ro, 0, 0, .any, .none, false, 0⟩
/-- MGT-FIFO-DROP -/
def O.mgtFifoDrop : ObjDef := ⟨0x20, 0x10, 9, 2, .u64, 8, .ro, 0, 0, .any, .none, false, 0⟩
/-- MGT-DISCARD -/
def O.mgtDiscard : ObjDef := ⟨0x20, 0x10, 10, 2, .u64, 8, .ro, 0, 0, .any, .none, false, 0⟩
/-- CLK-STATS -/
def O.clkStats : ObjDef := ⟨0x20, 0x40, 0, 1, .u8, 1, .ro, 0, 5, .any, .none, false, 0⟩
/-- CLK-FORMAT-DROP -/
def O.clkFormatDrop : ObjDef := ⟨0x20, 0x40, 1, 1, .u64, 8, .ro, 0, 0, .any, .none, false, 0⟩
/-- CLK-SESSION-DROP -/
def O.clkSessionDrop : ObjDef := ⟨0x20, 0x40, 2, 1, .u64, 8, .ro, 0, 0, .any, .none, false, 0⟩
/-- CLK-AUTH-DROP -/
def O.clkAuthDrop : ObjDef := ⟨0x20, 0x40, 3, 1, .u64, 8, .ro, 0, 0, .any, .none, false, 0⟩
/-- CLK-QUEUE-DROP -/
def O.clkQueueDrop : ObjDef := ⟨0x20, 0x40, 4, 1, .u64, 8, .ro, 0, 0, .any, .none, false, 0⟩
/-- CLK-SERVED -/
def O.clkServed : ObjDef := ⟨0x20, 0x40, 5, 1, .u64, 8, .ro, 0, 0, .any, .none, false, 0⟩
/-- SES -/
def O.ses : ObjDef := ⟨0x20, 0x1000, 0, 64, .u8, 1, .ro, 0, 8, .any, .none, false, 0⟩
/-- SES-ENABLE -/
def O.sesEnable : ObjDef := ⟨0x20, 0x1000, 1, 64, .b, 1, .rw, 2, 0, .any, .none, true, 0⟩
/-- SES-KEY-SLOT -/
def O.sesKeySlot : ObjDef := ⟨0x20, 0x1000, 2, 64, .u8, 1, .rw, 2, 255, .any, .none, true, 0⟩
/-- SES-PRIV -/
def O.sesPriv : ObjDef := ⟨0x20, 0x1000, 3, 64, .e8, 1, .rw, 2, 0, .rng 0 3, .none, true, 0⟩
/-- SES-PATHS -/
def O.sesPaths : ObjDef := ⟨0x20, 0x1000, 4, 64, .m32, 4, .rw, 2, 3, .mask 0x7, .none, true, 0⟩
/-- SES-PEER -/
def O.sesPeer : ObjDef := ⟨0x20, 0x1000, 5, 64, .os, 16, .rw, 2, 0, .any, .none, true, 0⟩
/-- SES-CONFID -/
def O.sesConfid : ObjDef := ⟨0x20, 0x1000, 6, 64, .b, 1, .rw, 2, 0, .any, .none, true, 0⟩
/-- SES-SEQ-HIGH -/
def O.sesSeqHigh : ObjDef := ⟨0x20, 0x1000, 7, 64, .u64, 8, .ro, 0, 0, .any, .none, false, 0⟩
/-- SES-LAST -/
def O.sesLast : ObjDef := ⟨0x20, 0x1000, 8, 64, .t96, 12, .ro, 0, 0, .any, .none, false, 0⟩
/-- NOTE-LOG -/
def O.noteLog : ObjDef := ⟨0x20, 0x300, 0, 1, .tbl, 32, .ro, 0, 0, .any, .none, false, 4096⟩
/-- SUB -/
def O.sub : ObjDef := ⟨0x20, 0x2000, 0, 16, .u8, 1, .ro, 0, 5, .any, .none, false, 0⟩
/-- SUB-SESSION -/
def O.subSession : ObjDef := ⟨0x20, 0x2000, 1, 16, .u8, 1, .ro, 0, 255, .any, .none, false, 0⟩
/-- SUB-KINDS -/
def O.subKinds : ObjDef := ⟨0x20, 0x2000, 2, 16, .m32, 4, .ro, 0, 0, .any, .none, false, 0⟩
/-- SUB-SENT -/
def O.subSent : ObjDef := ⟨0x20, 0x2000, 3, 16, .u64, 8, .ro, 0, 0, .any, .none, false, 0⟩
/-- SUB-DROPPED -/
def O.subDropped : ObjDef := ⟨0x20, 0x2000, 4, 16, .u64, 8, .ro, 0, 0, .any, .none, false, 0⟩
/-- SUB-RATE -/
def O.subRate : ObjDef := ⟨0x20, 0x2000, 5, 16, .u32, 4, .rw, 1, 10000, .rng 100 100000, .none, false, 0⟩
/-- HP -/
def O.hp : ObjDef := ⟨0x20, 0x3000, 0, 1, .u8, 1, .ro, 0, 7, .any, .none, false, 0⟩
/-- HP-SESSION -/
def O.hpSession : ObjDef := ⟨0x20, 0x3000, 1, 1, .u8, 1, .rw, 2, 255, .any, .none, true, 0⟩
/-- HP-UDP-PORT -/
def O.hpUdpPort : ObjDef := ⟨0x20, 0x3000, 2, 1, .u16, 2, .rw, 2, 49421, .any, .none, true, 0⟩
/-- HP-PORT -/
def O.hpPort : ObjDef := ⟨0x20, 0x3000, 3, 1, .e8, 1, .rw, 1, 0, .rng 0 1, .none, false, 0⟩
/-- HP-DEST -/
def O.hpDest : ObjDef := ⟨0x20, 0x3000, 4, 1, .os, 18, .rw, 1, 0, .any, .none, false, 0⟩
/-- HP-PUNT-RATE -/
def O.hpPuntRate : ObjDef := ⟨0x20, 0x3000, 5, 1, .u32, 4, .rw, 1, 10000, .rng 10 20000, .none, false, 0⟩
/-- HP-PUNT-PPS -/
def O.hpPuntPps : ObjDef := ⟨0x20, 0x3000, 6, 1, .u32, 4, .rw, 1, 2000000, .rng 1000 4000000, .none, false, 0⟩
/-- HP-INJ-RATE -/
def O.hpInjRate : ObjDef := ⟨0x20, 0x3000, 7, 1, .u32, 4, .rw, 1, 10000, .rng 10 20000, .none, false, 0⟩
/-- HP-INJ-REFUSED -/
def O.hpInjRefused : ObjDef := ⟨0x20, 0x3080, 0, 1, .tbl, 8, .ro, 0, 0, .any, .none, false, 256⟩
/-- HP-TC -/
def O.hpTc : ObjDef := ⟨0x20, 0x3100, 0, 8, .u8, 1, .ro, 0, 3, .any, .none, false, 0⟩
/-- HP-PUNT-SENT -/
def O.hpPuntSent : ObjDef := ⟨0x20, 0x3100, 1, 8, .u64, 8, .ro, 0, 0, .any, .none, false, 0⟩
/-- HP-PUNT-DROP -/
def O.hpPuntDrop : ObjDef := ⟨0x20, 0x3100, 2, 8, .u64, 8, .ro, 0, 0, .any, .none, false, 0⟩
/-- HP-INJ-SENT -/
def O.hpInjSent : ObjDef := ⟨0x20, 0x3100, 3, 8, .u64, 8, .ro, 0, 0, .any, .none, false, 0⟩

/-! Objects of spec/06_ports_framing.md R206. -/

/-- FEC-DEG-SET -/
def O.fecDegSet : ObjDef := ⟨0x40, 0x1, 0, 1, .u32, 4, .rw, 1, 1000000, .any, .none, false, 0⟩
/-- FEC-DEG-CLR -/
def O.fecDegClr : ObjDef := ⟨0x40, 0x2, 0, 1, .u32, 4, .rw, 1, 100000, .any, .none, false, 0⟩
/-- FEC-DEG-SECS -/
def O.fecDegSecs : ObjDef := ⟨0x40, 0x3, 0, 1, .u8, 1, .rw, 1, 10, .rng 1 60, .none, false, 0⟩
/-- PM-SES-UNCORR -/
def O.pmSesUncorr : ObjDef := ⟨0x40, 0x4, 0, 1, .u32, 4, .rw, 1, 1000, .rng 1 0xFFFFFFFF, .none, false, 0⟩
/-- PG -/
def O.pg : ObjDef := ⟨0x40, 0x100, 0, 128, .u8, 1, .ro, 0, 7, .any, .none, false, 0⟩
/-- PG-MODE -/
def O.pgMode : ObjDef := ⟨0x40, 0x100, 1, 128, .e8, 1, .rs, 1, 0, .rng 0 4, .fn 0x740 1, false, 0⟩
/-- PG-MEDIA -/
def O.pgMedia : ObjDef := ⟨0x40, 0x100, 2, 128, .e8, 1, .rs, 1, 0, .rng 0 2, .fn 0x740 1, false, 0⟩
/-- PG-TX-MAP -/
def O.pgTxMap : ObjDef := ⟨0x40, 0x100, 3, 128, .u32, 4, .rs, 1, 16434824, .mask 0xFFFFFF, .fn 0x740 1, false, 0⟩
/-- PG-RX-MAP -/
def O.pgRxMap : ObjDef := ⟨0x40, 0x100, 4, 128, .u32, 4, .rs, 1, 16434824, .mask 0xFFFFFF, .fn 0x740 1, false, 0⟩
/-- PG-TX-INVERT -/
def O.pgTxInvert : ObjDef := ⟨0x40, 0x100, 5, 128, .m32, 4, .rs, 1, 0, .mask 0xFF, .fn 0x740 1, false, 0⟩
/-- PG-RX-INVERT -/
def O.pgRxInvert : ObjDef := ⟨0x40, 0x100, 6, 128, .m32, 4, .rs, 1, 0, .mask 0xFF, .fn 0x740 1, false, 0⟩
/-- PG-FLEXE -/
def O.pgFlexe : ObjDef := ⟨0x40, 0x100, 7, 128, .b, 1, .rs, 1, 0, .any, .fn 0x740 1, false, 0⟩
/-- FLX -/
def O.flx : ObjDef := ⟨0x40, 0x400, 0, 128, .u8, 1, .ro, 0, 7, .any, .none, false, 0⟩
/-- FLX-GROUP-NUM -/
def O.flxGroupNum : ObjDef := ⟨0x40, 0x400, 1, 128, .u32, 4, .rs, 1, 1, .rng 1 0xFFFFE, .fn 0x740 1, false, 0⟩
/-- FLX-MEMBERS -/
def O.flxMembers : ObjDef := ⟨0x40, 0x400, 2, 128, .m32, 4, .rs, 1, 255, .mask 0xFF, .fn 0x740 1, false, 0⟩
/-- FLX-PHY-NUM -/
def O.flxPhyNum : ObjDef := ⟨0x40, 0x400, 3, 128, .u64, 8, .rs, 1, 578437695752307201, .any, .fn 0x740 1, false, 0⟩
/-- FLX-CAL-ACTIVE -/
def O.flxCalActive : ObjDef := ⟨0x40, 0x400, 4, 128, .e8, 1, .ro, 0, 0, .any, .none, false, 0⟩
/-- FLX-CAL-USE -/
def O.flxCalUse : ObjDef := ⟨0x40, 0x400, 5, 128, .e8, 1, .rl, 1, 0, .rng 0 1, .fn 0x740 1, false, 0⟩
/-- FLX-CA-TIMEOUT -/
def O.flxCaTimeout : ObjDef := ⟨0x40, 0x400, 6, 128, .u32, 4, .rw, 1, 100, .rng 10 10000, .none, false, 0⟩
/-- FLX-SKEW -/
def O.flxSkew : ObjDef := ⟨0x40, 0x400, 7, 128, .u32, 4, .ro, 0, 0, .any, .none, false, 0⟩
/-- FLX-CAL-A -/
def O.flxCalA : ObjDef := ⟨0x40, 0x800, 0, 128, .tbl, 2, .rw, 1, 0, .any, .none, false, 320⟩
/-- FLX-CAL-B -/
def O.flxCalB : ObjDef := ⟨0x40, 0x900, 0, 128, .tbl, 2, .rw, 1, 0, .any, .none, false, 320⟩
/-- FLX-CLIENT -/
def O.flxClient : ObjDef := ⟨0x40, 0xA00, 0, 128, .tbl, 8, .rs, 1, 0, .any, .fn 0x740 1, false, 64⟩
/-- BP -/
def O.bp : ObjDef := ⟨0x40, 0x1000, 0, 1024, .u8, 1, .ro, 0, 15, .any, .none, false, 0⟩
/-- BP-ENABLE -/
def O.bpEnable : ObjDef := ⟨0x40, 0x1000, 1, 1024, .b, 1, .rw, 1, 1, .any, .none, false, 0⟩
/-- BP-LINK-STATE -/
def O.bpLinkState : ObjDef := ⟨0x40, 0x1000, 2, 1024, .e8, 1, .ro, 0, 0, .any, .none, false, 0⟩
/-- BP-DOWN-HOLD -/
def O.bpDownHold : ObjDef := ⟨0x40, 0x1000, 3, 1024, .u32, 4, .rw, 1, 0, .rng 0 50000, .none, false, 0⟩
/-- BP-UP-HOLD -/
def O.bpUpHold : ObjDef := ⟨0x40, 0x1000, 4, 1024, .u32, 4, .rw, 1, 10000, .rng 0 1000000, .none, false, 0⟩
/-- BP-LAST-CHANGE -/
def O.bpLastChange : ObjDef := ⟨0x40, 0x1000, 5, 1024, .t96, 12, .ro, 0, 0, .any, .none, false, 0⟩
/-- BP-FC-MODE -/
def O.bpFcMode : ObjDef := ⟨0x40, 0x1000, 6, 1024, .e8, 1, .rs, 1, 0, .rng 0 2, .fn 0x740 8, false, 0⟩
/-- BP-PFC-CLASSES -/
def O.bpPfcClasses : ObjDef := ⟨0x40, 0x1000, 7, 1024, .m32, 4, .rs, 1, 0, .mask 0xFF, .fn 0x740 8, false, 0⟩
/-- BP-XOFF -/
def O.bpXoff : ObjDef := ⟨0x40, 0x1000, 8, 1024, .u32, 4, .rw, 1, 1024, .any, .none, false, 0⟩
/-- BP-XON -/
def O.bpXon : ObjDef := ⟨0x40, 0x1000, 9, 1024, .u32, 4, .rw, 1, 768, .any, .none, false, 0⟩
/-- BP-DEFECTS -/
def O.bpDefects : ObjDef := ⟨0x40, 0x1000, 10, 1024, .m32, 4, .ro, 0, 0, .any, .none, false, 0⟩
/-- BP-PAUSE-QUANTA -/
def O.bpPauseQuanta : ObjDef := ⟨0x40, 0x1000, 11, 1024, .u16, 2, .rw, 1, 65535, .any, .none, false, 0⟩
/-- BP-PAUSE-REFRESH -/
def O.bpPauseRefresh : ObjDef := ⟨0x40, 0x1000, 12, 1024, .u16, 2, .rw, 1, 32768, .rng 1 65535, .none, false, 0⟩
/-- BP-TX-PAUSED -/
def O.bpTxPaused : ObjDef := ⟨0x40, 0x1000, 13, 1024, .m32, 4, .ro, 0, 0, .any, .none, false, 0⟩
/-- BP-FLAPS -/
def O.bpFlaps : ObjDef := ⟨0x40, 0x1000, 14, 1024, .u64, 8, .ro, 0, 0, .any, .none, false, 0⟩
/-- BP-AN-RESTARTS -/
def O.bpAnRestarts : ObjDef := ⟨0x40, 0x1000, 15, 1024, .u64, 8, .ro, 0, 0, .any, .none, false, 0⟩
/-- PM-SEC -/
def O.pmSec : ObjDef := ⟨0x40, 0x2000, 0, 1024, .u8, 1, .ro, 0, 6, .any, .none, false, 0⟩
/-- PM-SEC-TIME -/
def O.pmSecTime : ObjDef := ⟨0x40, 0x2000, 1, 1024, .t96, 12, .ro, 0, 0, .any, .none, false, 0⟩
/-- PM-SEC-CORR-CW -/
def O.pmSecCorrCw : ObjDef := ⟨0x40, 0x2000, 2, 1024, .u64, 8, .ro, 0, 0, .any, .none, false, 0⟩
/-- PM-SEC-UNCORR-CW -/
def O.pmSecUncorrCw : ObjDef := ⟨0x40, 0x2000, 3, 1024, .u64, 8, .ro, 0, 0, .any, .none, false, 0⟩
/-- PM-SEC-CORR-SYM -/
def O.pmSecCorrSym : ObjDef := ⟨0x40, 0x2000, 4, 1024, .u64, 8, .ro, 0, 0, .any, .none, false, 0⟩
/-- PM-SEC-FCS-ERR -/
def O.pmSecFcsErr : ObjDef := ⟨0x40, 0x2000, 5, 1024, .u64, 8, .ro, 0, 0, .any, .none, false, 0⟩
/-- PM-SEC-CLASS -/
def O.pmSecClass : ObjDef := ⟨0x40, 0x2000, 6, 1024, .e8, 1, .ro, 0, 0, .any, .none, false, 0⟩
/-- PM-BINS -/
def O.pmBins : ObjDef := ⟨0x40, 0x2800, 0, 1024, .tbl, 64, .ro, 0, 0, .any, .none, false, 35⟩

/-! Objects of spec/07_parsing.md R241. -/

/-- FLOW-SEED -/
def O.flowSeed : ObjDef := ⟨0x50, 0x1, 0, 1, .u64, 8, .rs, 2, 0, .any, .basins, false, 0⟩
/-- SPREAD-SEED -/
def O.spreadSeed : ObjDef := ⟨0x50, 0x2, 0, 1, .u32, 4, .rl, 1, 0, .any, .none, false, 0⟩
/-- PCP-TC-MAP -/
def O.pcpTcMap : ObjDef := ⟨0x50, 0x3, 0, 1, .os, 8, .rw, 1, 283686952306183, .mask 0x0707070707070707, .none, false, 0⟩
/-- DSCP-TC-MAP -/
def O.dscpTcMap : ObjDef := ⟨0x50, 0x4, 0, 1, .os, 64, .rw, 1, 0x101010101010101020202020202020203030303030303030404040404040404050505050505050506060606060606060707070707070707, .mask 0x07070707070707070707070707070707070707070707070707070707070707070707070707070707070707070707070707070707070707070707070707070707, .none, false, 0⟩
/-- PPF -/
def O.ppf : ObjDef := ⟨0x50, 0x100, 0, 8, .u8, 1, .ro, 0, 7, .any, .none, false, 0⟩
/-- PPF-OCCUPANCY -/
def O.ppfOccupancy : ObjDef := ⟨0x50, 0x100, 1, 8, .u32, 4, .ro, 0, 0, .any, .none, false, 0⟩
/-- PPF-PEAK -/
def O.ppfPeak : ObjDef := ⟨0x50, 0x100, 2, 8, .u32, 4, .ro, 0, 0, .any, .none, false, 0⟩
/-- PPF-DELAY-MARK -/
def O.ppfDelayMark : ObjDef := ⟨0x50, 0x100, 3, 8, .u32, 4, .rw, 1, 1000, .rng 100 100000, .none, false, 0⟩
/-- CTX-BUSY -/
def O.ctxBusy : ObjDef := ⟨0x50, 0x100, 4, 8, .u16, 2, .ro, 0, 0, .any, .none, false, 0⟩
/-- CTX-PEAK -/
def O.ctxPeak : ObjDef := ⟨0x50, 0x100, 5, 8, .u16, 2, .ro, 0, 0, .any, .none, false, 0⟩
/-- GPF-OCCUPANCY -/
def O.gpfOccupancy : ObjDef := ⟨0x50, 0x100, 6, 8, .u32, 4, .ro, 0, 0, .any, .none, false, 0⟩
/-- GPF-SHED -/
def O.gpfShed : ObjDef := ⟨0x50, 0x100, 7, 8, .u64, 8, .ro, 0, 0, .any, .none, false, 0⟩
/-- PPC -/
def O.ppc : ObjDef := ⟨0x50, 0x200, 0, 64, .u8, 1, .ro, 0, 4, .any, .none, false, 0⟩
/-- PPC-SHED-AT -/
def O.ppcShedAt : ObjDef := ⟨0x50, 0x200, 1, 64, .u32, 4, .rw, 1, 2048, .rng 64 4096, .none, false, 0⟩
/-- PPC-ADMITTED -/
def O.ppcAdmitted : ObjDef := ⟨0x50, 0x200, 2, 64, .u64, 8, .ro, 0, 0, .any, .none, false, 0⟩
/-- PPC-SHED -/
def O.ppcShed : ObjDef := ⟨0x50, 0x200, 3, 64, .u64, 8, .ro, 0, 0, .any, .none, false, 0⟩
/-- PPC-DELAYED -/
def O.ppcDelayed : ObjDef := ⟨0x50, 0x200, 4, 64, .u64, 8, .ro, 0, 0, .any, .none, false, 0⟩
/-- KP -/
def O.kp : ObjDef := ⟨0x50, 0x800, 0, 64, .u8, 1, .ro, 0, 5, .any, .none, false, 0⟩
/-- KP-FIELDS -/
def O.kpFields : ObjDef := ⟨0x50, 0x800, 1, 64, .m32, 4, .rl, 1, 31, .special, .none, false, 0⟩
/-- KP-GEN-SLOT -/
def O.kpGenSlot : ObjDef := ⟨0x50, 0x800, 2, 64, .u8, 1, .rl, 1, 0, .rng 0 7, .none, false, 0⟩
/-- KP-SPREAD -/
def O.kpSpread : ObjDef := ⟨0x50, 0x800, 3, 64, .m32, 4, .rl, 1, 31, .special, .none, false, 0⟩
/-- KP-SYMMETRIC -/
def O.kpSymmetric : ObjDef := ⟨0x50, 0x800, 4, 64, .b, 1, .rl, 1, 0, .any, .none, false, 0⟩
/-- KP-FRAG -/
def O.kpFrag : ObjDef := ⟨0x50, 0x800, 5, 64, .e8, 1, .rl, 1, 1, .rng 0 1, .none, false, 0⟩
/-- PB -/
def O.pb : ObjDef := ⟨0x50, 0x1000, 0, 256, .u8, 1, .ro, 0, 10, .any, .none, false, 0⟩
/-- PB-DEPTH-ACTION -/
def O.pbDepthAction : ObjDef := ⟨0x50, 0x1000, 1, 256, .e8, 1, .rs, 1, 0, .rng 0 2, .fn 0x640 1, false, 0⟩
/-- PB-LEN-ACTION -/
def O.pbLenAction : ObjDef := ⟨0x50, 0x1000, 2, 256, .e8, 1, .rs, 1, 0, .rng 0 2, .fn 0x640 1, false, 0⟩
/-- PB-LEN-SOURCE -/
def O.pbLenSource : ObjDef := ⟨0x50, 0x1000, 3, 256, .e8, 1, .rs, 1, 0, .rng 0 2, .fn 0x640 1, false, 0⟩
/-- PB-PAD-MAX -/
def O.pbPadMax : ObjDef := ⟨0x50, 0x1000, 4, 256, .u8, 1, .rs, 1, 46, .any, .fn 0x640 1, false, 0⟩
/-- PB-PACKETS -/
def O.pbPackets : ObjDef := ⟨0x50, 0x1000, 5, 256, .u64, 8, .ro, 0, 0, .any, .none, false, 0⟩
/-- PB-STEPS -/
def O.pbSteps : ObjDef := ⟨0x50, 0x1000, 6, 256, .u64, 8, .ro, 0, 0, .any, .none, false, 0⟩
/-- PB-TRUNCATED -/
def O.pbTruncated : ObjDef := ⟨0x50, 0x1000, 7, 256, .u64, 8, .ro, 0, 0, .any, .none, false, 0⟩
/-- PB-LEN-CONFLICT -/
def O.pbLenConflict : ObjDef := ⟨0x50, 0x1000, 8, 256, .u64, 8, .ro, 0, 0, .any, .none, false, 0⟩
/-- PB-LEN-TRUSTED -/
def O.pbLenTrusted : ObjDef := ⟨0x50, 0x1000, 9, 256, .u64, 8, .ro, 0, 0, .any, .none, false, 0⟩
/-- PB-PUNTED -/
def O.pbPunted : ObjDef := ⟨0x50, 0x1000, 10, 256, .u64, 8, .ro, 0, 0, .any, .none, false, 0⟩
/-- PB-STATES -/
def O.pbStates : ObjDef := ⟨0x50, 0x2000, 0, 256, .tbl, 32, .rs, 1, 0, .any, .fn 0x640 1, false, 128⟩
/-- PB-TRANS -/
def O.pbTrans : ObjDef := ⟨0x50, 0x2100, 0, 256, .tbl, 12, .rs, 1, 0, .any, .fn 0x640 1, false, 512⟩
/-- TEN-KEY-PROFILE -/
def O.tenKeyProfile : ObjDef := ⟨0x50, 0x3000, 0, 1, .tbl, 1, .rl, 1, 0, .any, .none, false, 4096⟩
/-- LIF -/
def O.lif : ObjDef := ⟨0x50, 0x4000, 0, 8192, .u8, 1, .ro, 0, 3, .any, .none, false, 0⟩
/-- LIF-BINDING -/
def O.lifBinding : ObjDef := ⟨0x50, 0x4000, 1, 8192, .u8, 1, .rw, 1, 0, .rng 0 31, .none, false, 0⟩
/-- LIF-TC-SOURCE -/
def O.lifTcSource : ObjDef := ⟨0x50, 0x4000, 2, 8192, .e8, 1, .rw, 1, 0, .rng 0 2, .none, false, 0⟩
/-- LIF-TC-DEFAULT -/
def O.lifTcDefault : ObjDef := ⟨0x50, 0x4000, 3, 8192, .u8, 1, .rw, 1, 0, .rng 0 7, .none, false, 0⟩

/-! Objects of spec/08_rules_and_spreading.md R276. -/

/-- RT-TABLE -/
def O.rtTable : ObjDef := ⟨0x58, 0x1, 0, 1, .tbl, 32, .rw, 1, 0, .any, .none, false, 1048576⟩
/-- RT-VALID -/
def O.rtValid : ObjDef := ⟨0x58, 0x2, 0, 1, .u32, 4, .ro, 0, 0, .any, .none, false, 0⟩
/-- TEN-DOMAIN -/
def O.tenDomain : ObjDef := ⟨0x58, 0x3, 0, 1, .tbl, 2, .rw, 1, 0, .any, .none, false, 4096⟩
/-- EXM -/
def O.exm : ObjDef := ⟨0x58, 0x200, 0, 128, .u8, 1, .ro, 0, 4, .any, .none, false, 0⟩
/-- EXM-BASE -/
def O.exmBase : ObjDef := ⟨0x58, 0x200, 1, 128, .u32, 4, .rs, 1, 0, .special, .exact, false, 0⟩
/-- EXM-SIZE -/
def O.exmSize : ObjDef := ⟨0x58, 0x200, 2, 128, .u32, 4, .rs, 1, 4, .special, .exact, false, 0⟩
/-- EXM-PROFILE -/
def O.exmProfile : ObjDef := ⟨0x58, 0x200, 3, 128, .u8, 1, .rs, 1, 0, .rng 0 63, .exact, false, 0⟩
/-- EXM-VALID -/
def O.exmValid : ObjDef := ⟨0x58, 0x200, 4, 128, .u32, 4, .ro, 0, 0, .any, .none, false, 0⟩
/-- IND -/
def O.ind : ObjDef := ⟨0x58, 0x400, 0, 512, .u8, 1, .ro, 0, 3, .any, .none, false, 0⟩
/-- IND-BASE -/
def O.indBase : ObjDef := ⟨0x58, 0x400, 1, 512, .u32, 4, .rl, 1, 0, .special, .none, false, 0⟩
/-- IND-SIZE -/
def O.indSize : ObjDef := ⟨0x58, 0x400, 2, 512, .u32, 4, .rl, 1, 1, .special, .none, false, 0⟩
/-- IND-ROT -/
def O.indRot : ObjDef := ⟨0x58, 0x400, 3, 512, .u8, 1, .rl, 1, 0, .rng 0 31, .none, false, 0⟩
/-- LIF-MAP -/
def O.lifMap : ObjDef := ⟨0x58, 0x800, 0, 128, .tbl, 4, .rw, 1, 0, .any, .none, false, 64⟩
/-- LIF-MISS -/
def O.lifMiss : ObjDef := ⟨0x58, 0x900, 0, 128, .u64, 8, .ro, 0, 0, .any, .none, false, 0⟩
/-- TCAM -/
def O.tcam : ObjDef := ⟨0x58, 0x2000, 0, 8, .tbl, 176, .rs, 1, 0, .any, .tcam, false, 65536⟩
/-- EXM-MEM -/
def O.exmMem : ObjDef := ⟨0x58, 0x2100, 0, 8, .tbl, 64, .rw, 1, 0, .any, .none, false, 262144⟩
/-- ACT-COMMON -/
def O.actCommon : ObjDef := ⟨0x58, 0x2200, 0, 8, .tbl, 64, .rw, 1, 0, .any, .none, false, 4096⟩
/-- IND-MEM -/
def O.indMem : ObjDef := ⟨0x58, 0x2300, 0, 8, .tbl, 4, .rw, 1, 0, .any, .none, false, 1048576⟩
/-- ACT-PRIVATE -/
def O.actPrivate : ObjDef := ⟨0x58, 0x3000, 0, 512, .tbl, 64, .rs, 1, 0, .any, .fn 0x440 1, false, 448⟩
/-- LIF -/
def O.lif58 : ObjDef := ⟨0x58, 0x4000, 0, 8192, .u8, 1, .ro, 0, 2, .any, .none, false, 0⟩
/-- LIF-TENANT -/
def O.lifTenant : ObjDef := ⟨0x58, 0x4000, 1, 8192, .u16, 2, .rw, 1, 0, .rng 0 4095, .none, false, 0⟩
/-- LIF-RULESET -/
def O.lifRuleset : ObjDef := ⟨0x58, 0x4000, 2, 8192, .u8, 1, .rw, 1, 0, .rng 0 63, .none, false, 0⟩
/-- RCH -/
def O.rch : ObjDef := ⟨0x58, 0x100, 0, 8, .u8, 1, .ro, 0, 8, .any, .none, false, 0⟩
/-- BW-PASS-MAX -/
def O.bwPassMax : ObjDef := ⟨0x58, 0x100, 1, 8, .u8, 1, .rw, 1, 2, .rng 0 3, .none, false, 0⟩
/-- BW-OCCUPANCY -/
def O.bwOccupancy : ObjDef := ⟨0x58, 0x100, 2, 8, .u16, 2, .ro, 0, 0, .any, .none, false, 0⟩
/-- PASSES -/
def O.passes : ObjDef := ⟨0x58, 0x100, 3, 8, .u64, 8, .ro, 0, 0, .any, .none, false, 0⟩
/-- BW-FULL-DROP -/
def O.bwFullDrop : ObjDef := ⟨0x58, 0x100, 4, 8, .u64, 8, .ro, 0, 0, .any, .none, false, 0⟩
/-- BW-PASS-LIMIT -/
def O.bwPassLimit : ObjDef := ⟨0x58, 0x100, 5, 8, .u64, 8, .ro, 0, 0, .any, .none, false, 0⟩
/-- GEN-RESTART -/
def O.genRestart : ObjDef := ⟨0x58, 0x100, 6, 8, .u64, 8, .ro, 0, 0, .any, .none, false, 0⟩
/-- GEN-DROP -/
def O.genDrop : ObjDef := ⟨0x58, 0x100, 7, 8, .u64, 8, .ro, 0, 0, .any, .none, false, 0⟩
/-- BACKEND-NO-FLOW -/
def O.backendNoFlow : ObjDef := ⟨0x58, 0x100, 8, 8, .u64, 8, .ro, 0, 0, .any, .none, false, 0⟩
/-- RS -/
def O.rs : ObjDef := ⟨0x58, 0x1000, 0, 512, .u8, 1, .ro, 0, 10, .any, .none, false, 0⟩
/-- RS-GEN -/
def O.rsGen : ObjDef := ⟨0x58, 0x1000, 1, 512, .u32, 4, .ro, 0, 0, .any, .none, false, 0⟩
/-- RS-FLOW -/
def O.rsFlow : ObjDef := ⟨0x58, 0x1000, 2, 512, .e8, 1, .rs, 1, 0, .rng 0 1, .fn 0x440 1, false, 0⟩
/-- RS-ROUTE -/
def O.rsRoute : ObjDef := ⟨0x58, 0x1000, 3, 512, .b, 1, .rs, 1, 1, .any, .fn 0x440 1, false, 0⟩
/-- RS-ROUTE-MISS -/
def O.rsRouteMiss : ObjDef := ⟨0x58, 0x1000, 4, 512, .u32, 4, .rs, 1, 0, .special, .fn 0x440 1, false, 0⟩
/-- RS-EXACT -/
def O.rsExact : ObjDef := ⟨0x58, 0x1000, 5, 512, .u8, 1, .rs, 1, 255, .special, .fn 0x440 1, false, 0⟩
/-- RS-TCAM-BASE -/
def O.rsTcamBase : ObjDef := ⟨0x58, 0x1000, 6, 512, .u32, 4, .rs, 1, 0, .any, .fn 0x440 1, false, 0⟩
/-- RS-TCAM-COUNT -/
def O.rsTcamCount : ObjDef := ⟨0x58, 0x1000, 7, 512, .u32, 4, .rs, 1, 0, .any, .fn 0x440 1, false, 0⟩
/-- RS-TK-SELECT -/
def O.rsTkSelect : ObjDef := ⟨0x58, 0x1000, 8, 512, .os, 20, .rs, 1, 0xffffffffffffffffffffffffffffffffffffffff, .any, .fn 0x440 1, false, 0⟩
/-- RS-DEFAULT-LIST -/
def O.rsDefaultList : ObjDef := ⟨0x58, 0x1000, 9, 512, .u16, 2, .rs, 1, 0, .any, .fn 0x440 1, false, 0⟩
/-- RS-PASSES -/
def O.rsPasses : ObjDef := ⟨0x58, 0x1000, 10, 512, .u64, 8, .ro, 0, 0, .any, .none, false, 0⟩

/-! Objects of spec/09_flow_records.md R329. -/

/-- FLW-SIZE-LOG2 -/
def O.flwSizeLog2 : ObjDef := ⟨0x60, 0x1, 0, 1, .u8, 1, .rs, 2, 28, .rng 24 28, .basins, false, 0⟩
/-- FLW-CLEAR -/
def O.flwClear : ObjDef := ⟨0x60, 0x2, 0, 1, .cmd, 0, .cm, 2, 0, .any, .none, false, 0⟩
/-- FLW-GROW -/
def O.flwGrow : ObjDef := ⟨0x60, 0x3, 0, 1, .cmd, 0, .cm, 2, 0, .any, .none, false, 0⟩
/-- FLW-STATE -/
def O.flwState : ObjDef := ⟨0x60, 0x4, 0, 1, .e8, 1, .ro, 0, 0, .any, .none, false, 0⟩
/-- FLW-CLOCK -/
def O.flwClock : ObjDef := ⟨0x60, 0x10, 0, 1, .u32, 4, .ro, 0, 0, .any, .none, false, 0⟩
/-- FLW-CLOCK-S -/
def O.flwClockS : ObjDef := ⟨0x60, 0x11, 0, 1, .u32, 4, .ro, 0, 0, .any, .none, false, 0⟩
/-- FLW-AGE-IDLE -/
def O.flwAgeIdle : ObjDef := ⟨0x60, 0x12, 0, 1, .u32, 4, .rw, 1, 30000, .rng 100 2000000000, .none, false, 0⟩
/-- FLW-SWEEP-PERIOD -/
def O.flwSweepPeriod : ObjDef := ⟨0x60, 0x13, 0, 1, .u32, 4, .rw, 1, 1000, .rng 100 60000, .none, false, 0⟩
/-- FLW-WB-AGE -/
def O.flwWbAge : ObjDef := ⟨0x60, 0x14, 0, 1, .u32, 4, .rw, 1, 1000, .rng 100 100000, .none, false, 0⟩
/-- FLW-RELOC-MAX -/
def O.flwRelocMax : ObjDef := ⟨0x60, 0x15, 0, 1, .u8, 1, .rw, 1, 4, .rng 0 8, .none, false, 0⟩
/-- FLW-GROW-RATE -/
def O.flwGrowRate : ObjDef := ⟨0x60, 0x16, 0, 1, .u32, 4, .rw, 1, 1000000, .rng 1000 10000000, .none, false, 0⟩
/-- BASIN-MAP -/
def O.basinMap : ObjDef := ⟨0x60, 0x100, 0, 1, .tbl, 1, .rs, 1, 0, .any, .basins, false, 4096⟩
/-- BSN -/
def O.bsn : ObjDef := ⟨0x60, 0x200, 0, 16, .u8, 1, .ro, 0, 17, .any, .none, false, 0⟩
/-- BSN-RECORDS -/
def O.bsnRecords : ObjDef := ⟨0x60, 0x200, 1, 16, .u32, 4, .ro, 0, 0, .any, .none, false, 0⟩
/-- BSN-SPLIT -/
def O.bsnSplit : ObjDef := ⟨0x60, 0x200, 2, 16, .u32, 4, .ro, 0, 0, .any, .none, false, 0⟩
/-- EDDY-HITS -/
def O.eddyHits : ObjDef := ⟨0x60, 0x200, 3, 16, .u64, 8, .ro, 0, 0, .any, .none, false, 0⟩
/-- EDDY-MISSES -/
def O.eddyMisses : ObjDef := ⟨0x60, 0x200, 4, 16, .u64, 8, .ro, 0, 0, .any, .none, false, 0⟩
/-- EDDY-EVICT-DIRTY -/
def O.eddyEvictDirty : ObjDef := ⟨0x60, 0x200, 5, 16, .u64, 8, .ro, 0, 0, .any, .none, false, 0⟩
/-- EDDY-WB-AGED -/
def O.eddyWbAged : ObjDef := ⟨0x60, 0x200, 6, 16, .u64, 8, .ro, 0, 0, .any, .none, false, 0⟩
/-- BSN-CREATED -/
def O.bsnCreated : ObjDef := ⟨0x60, 0x200, 7, 16, .u64, 8, .ro, 0, 0, .any, .none, false, 0⟩
/-- BSN-DELETED -/
def O.bsnDeleted : ObjDef := ⟨0x60, 0x200, 8, 16, .u64, 8, .ro, 0, 0, .any, .none, false, 0⟩
/-- BSN-AGED-IDLE -/
def O.bsnAgedIdle : ObjDef := ⟨0x60, 0x200, 9, 16, .u64, 8, .ro, 0, 0, .any, .none, false, 0⟩
/-- BSN-AGED-ABS -/
def O.bsnAgedAbs : ObjDef := ⟨0x60, 0x200, 10, 16, .u64, 8, .ro, 0, 0, .any, .none, false, 0⟩
/-- BSN-TABLE-FULL -/
def O.bsnTableFull : ObjDef := ⟨0x60, 0x200, 11, 16, .u64, 8, .ro, 0, 0, .any, .none, false, 0⟩
/-- BSN-RELOCATIONS -/
def O.bsnRelocations : ObjDef := ⟨0x60, 0x200, 12, 16, .u64, 8, .ro, 0, 0, .any, .none, false, 0⟩
/-- BSN-LINK-FAIL -/
def O.bsnLinkFail : ObjDef := ⟨0x60, 0x200, 13, 16, .u64, 8, .ro, 0, 0, .any, .none, false, 0⟩
/-- BSN-NO-BACKEND -/
def O.bsnNoBackend : ObjDef := ⟨0x60, 0x200, 14, 16, .u64, 8, .ro, 0, 0, .any, .none, false, 0⟩
/-- BSN-BACKEND-UNPINNED -/
def O.bsnBackendUnpinned : ObjDef := ⟨0x60, 0x200, 15, 16, .u64, 8, .ro, 0, 0, .any, .none, false, 0⟩
/-- BSN-XLATE-SKIPPED -/
def O.bsnXlateSkipped : ObjDef := ⟨0x60, 0x200, 16, 16, .u64, 8, .ro, 0, 0, .any, .none, false, 0⟩
/-- BSN-ENDPOINT-INVALID -/
def O.bsnEndpointInvalid : ObjDef := ⟨0x60, 0x200, 17, 16, .u64, 8, .ro, 0, 0, .any, .none, false, 0⟩
/-- MTR-PROFILE -/
def O.mtrProfile : ObjDef := ⟨0x60, 0x3000, 0, 1, .tbl, 16, .rw, 1, 0, .any, .none, false, 4096⟩
/-- EP-TABLE -/
def O.epTable : ObjDef := ⟨0x60, 0x4000, 0, 1, .tbl, 64, .rw, 1, 0, .any, .none, false, 16777216⟩
/-- FLW-CLASS -/
def O.flwClass : ObjDef := ⟨0x60, 0x5000, 0, 1, .tbl, 32, .rw, 1, 0, .any, .none, false, 256⟩
/-- FLW-SLOTS -/
def O.flwSlots : ObjDef := ⟨0x60, 0x6000, 0, 1, .tbl, 128, .ro, 1, 0, .any, .none, false, 268435456⟩
/-- FLW-REQ -/
def O.flwReq : ObjDef := ⟨0x60, 0x7000, 0, 1, .tbl, 192, .rw, 1, 0, .any, .none, false, 256⟩

/-! Objects of spec/10_flow_concurrency.md R355. -/

/-- IFT-CREATE-MAX -/
def O.iftCreateMax : ObjDef := ⟨0x68, 0x1, 0, 1, .u16, 2, .rw, 1, 1024, .rng 64 3840, .none, false, 0⟩
/-- VERDICT-WAIT-MAX -/
def O.verdictWaitMax : ObjDef := ⟨0x68, 0x3, 0, 1, .u32, 4, .rw, 1, 1000, .rng 50 100000, .none, false, 0⟩
/-- LANE -/
def O.lane : ObjDef := ⟨0x68, 0x100, 0, 8, .u8, 1, .ro, 0, 3, .any, .none, false, 0⟩
/-- LANE-HANDLES-USED -/
def O.laneHandlesUsed : ObjDef := ⟨0x68, 0x100, 1, 8, .u32, 4, .ro, 0, 0, .any, .none, false, 0⟩
/-- LANE-HANDLES-PEAK -/
def O.laneHandlesPeak : ObjDef := ⟨0x68, 0x100, 2, 8, .u32, 4, .ro, 0, 0, .any, .none, false, 0⟩
/-- LANE-VERDICT-LATE -/
def O.laneVerdictLate : ObjDef := ⟨0x68, 0x100, 3, 8, .u64, 8, .ro, 0, 0, .any, .none, false, 0⟩
/-- IFT -/
def O.ift : ObjDef := ⟨0x68, 0x200, 0, 16, .u8, 1, .ro, 0, 19, .any, .none, false, 0⟩
/-- IFT-USED -/
def O.iftUsed : ObjDef := ⟨0x68, 0x200, 1, 16, .u16, 2, .ro, 0, 0, .any, .none, false, 0⟩
/-- IFT-PEAK -/
def O.iftPeak : ObjDef := ⟨0x68, 0x200, 2, 16, .u16, 2, .ro, 0, 0, .any, .none, false, 0⟩
/-- IFT-CREATING -/
def O.iftCreating : ObjDef := ⟨0x68, 0x200, 3, 16, .u16, 2, .ro, 0, 0, .any, .none, false, 0⟩
/-- IFT-FULL-WAITS -/
def O.iftFullWaits : ObjDef := ⟨0x68, 0x200, 4, 16, .u64, 8, .ro, 0, 0, .any, .none, false, 0⟩
/-- IFT-CHAIN-WAITS -/
def O.iftChainWaits : ObjDef := ⟨0x68, 0x200, 5, 16, .u64, 8, .ro, 0, 0, .any, .none, false, 0⟩
/-- IFT-WAY-WAITS -/
def O.iftWayWaits : ObjDef := ⟨0x68, 0x200, 6, 16, .u64, 8, .ro, 0, 0, .any, .none, false, 0⟩
/-- IFT-PARKS -/
def O.iftParks : ObjDef := ⟨0x68, 0x200, 7, 16, .u64, 8, .ro, 0, 0, .any, .none, false, 0⟩
/-- CRB-RATE -/
def O.crbRate : ObjDef := ⟨0x68, 0x200, 8, 16, .u32, 4, .rw, 1, 62500000, .rng 1000 62500000, .none, false, 0⟩
/-- CRB-BURST -/
def O.crbBurst : ObjDef := ⟨0x68, 0x200, 9, 16, .u32, 4, .rw, 1, 4096, .rng 1 65536, .none, false, 0⟩
/-- CRB-TOKENS -/
def O.crbTokens : ObjDef := ⟨0x68, 0x200, 10, 16, .u32, 4, .ro, 0, 0, .any, .none, false, 0⟩
/-- CRB-EFFECTIVE -/
def O.crbEffective : ObjDef := ⟨0x68, 0x200, 11, 16, .u32, 4, .ro, 0, 0, .any, .none, false, 0⟩
/-- AGE-VOID -/
def O.ageVoid : ObjDef := ⟨0x68, 0x200, 12, 16, .u64, 8, .ro, 0, 0, .any, .none, false, 0⟩
/-- CREATE-JOINED -/
def O.createJoined : ObjDef := ⟨0x68, 0x200, 13, 16, .u64, 8, .ro, 0, 0, .any, .none, false, 0⟩
/-- REFUSE-QUOTA -/
def O.refuseQuota : ObjDef := ⟨0x68, 0x200, 14, 16, .u64, 8, .ro, 0, 0, .any, .none, false, 0⟩
/-- REFUSE-BUDGET -/
def O.refuseBudget : ObjDef := ⟨0x68, 0x200, 15, 16, .u64, 8, .ro, 0, 0, .any, .none, false, 0⟩
/-- REFUSE-INFLIGHT -/
def O.refuseInflight : ObjDef := ⟨0x68, 0x200, 16, 16, .u64, 8, .ro, 0, 0, .any, .none, false, 0⟩
/-- IFT-ORPHANS -/
def O.iftOrphans : ObjDef := ⟨0x68, 0x200, 17, 16, .u64, 8, .ro, 0, 0, .any, .none, false, 0⟩
/-- REFUSE-FLARE -/
def O.refuseFlare : ObjDef := ⟨0x68, 0x200, 18, 16, .b, 1, .rw, 1, 0, .any, .none, false, 0⟩
/-- IFT-RECOUNT -/
def O.iftRecount : ObjDef := ⟨0x68, 0x200, 19, 16, .b, 1, .ro, 0, 0, .any, .none, false, 0⟩
/-- TEN-FLOW-QUOTA -/
def O.tenFlowQuota : ObjDef := ⟨0x68, 0x1000, 0, 1, .tbl, 4, .rw, 1, 0, .any, .none, false, 4096⟩
/-- TEN-FLOW-COUNT -/
def O.tenFlowCount : ObjDef := ⟨0x68, 0x1100, 0, 1, .tbl, 4, .ro, 0, 0, .any, .none, false, 65536⟩
/-- TEN-REFUSED -/
def O.tenRefused : ObjDef := ⟨0x68, 0x1200, 0, 1, .tbl, 40, .ro, 0, 0, .any, .none, false, 4096⟩

/-! Objects of spec/11_dispatch_and_mills.md R388. -/

/-- PREEMPT-MAX -/
def O.preemptMax : ObjDef := ⟨0x70, 0x1, 0, 1, .u8, 1, .rw, 1, 8, .any, .none, false, 0⟩
/-- EXPORT-ACTIVE-SWEEPS -/
def O.exportActiveSweeps : ObjDef := ⟨0x70, 0x2, 0, 1, .u16, 2, .rw, 1, 60, .any, .none, false, 0⟩
/-- POOL-RECOUNT -/
def O.poolRecount : ObjDef := ⟨0x70, 0x3, 0, 1, .cmd, 0, .cm, 2, 0, .any, .none, false, 0⟩
/-- POOL-STATE -/
def O.poolState : ObjDef := ⟨0x70, 0x4, 0, 1, .e8, 1, .ro, 0, 0, .any, .none, false, 0⟩
/-- SLU -/
def O.slu : ObjDef := ⟨0x70, 0x100, 0, 16, .u8, 1, .ro, 0, 21, .any, .none, false, 0⟩
/-- SLU-READY-FLOW -/
def O.sluReadyFlow : ObjDef := ⟨0x70, 0x100, 1, 16, .u16, 2, .ro, 0, 0, .any, .none, false, 0⟩
/-- SLU-READY-AGE -/
def O.sluReadyAge : ObjDef := ⟨0x70, 0x100, 2, 16, .u16, 2, .ro, 0, 0, .any, .none, false, 0⟩
/-- SLU-READY-EXPORT -/
def O.sluReadyExport : ObjDef := ⟨0x70, 0x100, 3, 16, .u16, 2, .ro, 0, 0, .any, .none, false, 0⟩
/-- SLU-READY-MAINT -/
def O.sluReadyMaint : ObjDef := ⟨0x70, 0x100, 4, 16, .u16, 2, .ro, 0, 0, .any, .none, false, 0⟩
/-- SLU-RESERVED-USED -/
def O.sluReservedUsed : ObjDef := ⟨0x70, 0x100, 5, 16, .u16, 2, .ro, 0, 0, .any, .none, false, 0⟩
/-- SLU-CTX-BUSY -/
def O.sluCtxBusy : ObjDef := ⟨0x70, 0x100, 6, 16, .u16, 2, .ro, 0, 0, .any, .none, false, 0⟩
/-- SLU-DISPATCHED -/
def O.sluDispatched : ObjDef := ⟨0x70, 0x100, 7, 16, .u64, 8, .ro, 0, 0, .any, .none, false, 0⟩
/-- SLU-PREEMPTED -/
def O.sluPreempted : ObjDef := ⟨0x70, 0x100, 8, 16, .u64, 8, .ro, 0, 0, .any, .none, false, 0⟩
/-- SLU-REFUSED -/
def O.sluRefused : ObjDef := ⟨0x70, 0x100, 9, 16, .u64, 8, .ro, 0, 0, .any, .none, false, 0⟩
/-- SLU-POST-WAITS -/
def O.sluPostWaits : ObjDef := ⟨0x70, 0x100, 10, 16, .u64, 8, .ro, 0, 0, .any, .none, false, 0⟩
/-- PAIR-NOTE-VOID -/
def O.pairNoteVoid : ObjDef := ⟨0x70, 0x100, 11, 16, .u64, 8, .ro, 0, 0, .any, .none, false, 0⟩
/-- PAIR-DELETE-VOID -/
def O.pairDeleteVoid : ObjDef := ⟨0x70, 0x100, 12, 16, .u64, 8, .ro, 0, 0, .any, .none, false, 0⟩
/-- SWEEP-STALLS -/
def O.sweepStalls : ObjDef := ⟨0x70, 0x100, 13, 16, .u64, 8, .ro, 0, 0, .any, .none, false, 0⟩
/-- SWEEP-LAG -/
def O.sweepLag : ObjDef := ⟨0x70, 0x100, 14, 16, .u32, 4, .ro, 0, 0, .any, .none, false, 0⟩
/-- MILL-STEPS -/
def O.millSteps : ObjDef := ⟨0x70, 0x100, 15, 16, .u64, 8, .ro, 0, 0, .any, .none, false, 0⟩
/-- POOL-ALLOCS -/
def O.poolAllocs : ObjDef := ⟨0x70, 0x100, 16, 16, .u64, 8, .ro, 0, 0, .any, .none, false, 0⟩
/-- POOL-RELEASES -/
def O.poolReleases : ObjDef := ⟨0x70, 0x100, 17, 16, .u64, 8, .ro, 0, 0, .any, .none, false, 0⟩
/-- POOL-EXHAUSTED-CNT -/
def O.poolExhaustedCnt : ObjDef := ⟨0x70, 0x100, 18, 16, .u64, 8, .ro, 0, 0, .any, .none, false, 0⟩
/-- PORT-FREE-FAULT -/
def O.portFreeFault : ObjDef := ⟨0x70, 0x100, 19, 16, .u64, 8, .ro, 0, 0, .any, .none, false, 0⟩
/-- EXPORT-REFUSED -/
def O.exportRefused : ObjDef := ⟨0x70, 0x100, 20, 16, .u64, 8, .ro, 0, 0, .any, .none, false, 0⟩
/-- EPILOGUE-RUNS -/
def O.epilogueRuns : ObjDef := ⟨0x70, 0x100, 21, 16, .u64, 8, .ro, 0, 0, .any, .none, false, 0⟩
/-- SCHED-LIST -/
def O.schedList : ObjDef := ⟨0x70, 0x400, 0, 16, .tbl, 1, .rs, 1, 0, .any, .fn 0x430 1, false, 64⟩
/-- MILL-LISTS -/
def O.millLists : ObjDef := ⟨0x70, 0x500, 0, 16, .tbl, 64, .rs, 1, 0, .any, .fn 0x430 1, false, 256⟩
/-- EVT-EPILOGUE -/
def O.evtEpilogue : ObjDef := ⟨0x70, 0x600, 0, 16, .tbl, 1, .rs, 1, 0, .any, .fn 0x430 1, false, 256⟩
/-- MILL-COUNT -/
def O.millCount : ObjDef := ⟨0x70, 0x700, 0, 16, .tbl, 8, .ro, 0, 0, .any, .none, false, 64⟩
/-- TRC -/
def O.trc : ObjDef := ⟨0x70, 0x800, 0, 16, .u8, 1, .ro, 0, 9, .any, .none, false, 0⟩
/-- TRC-MODE -/
def O.trcMode : ObjDef := ⟨0x70, 0x800, 1, 16, .e8, 1, .rw, 1, 0, .rng 0 3, .none, false, 0⟩
/-- TRC-KINDS -/
def O.trcKinds : ObjDef := ⟨0x70, 0x800, 2, 16, .m32, 4, .rw, 1, 2046, .special, .none, false, 0⟩
/-- TRC-WHAT -/
def O.trcWhat : ObjDef := ⟨0x70, 0x800, 3, 16, .m32, 4, .rw, 1, 255, .special, .none, false, 0⟩
/-- TRC-TRIGGER -/
def O.trcTrigger : ObjDef := ⟨0x70, 0x800, 4, 16, .u16, 2, .rw, 1, 1136, .any, .none, false, 0⟩
/-- TRC-AFTER -/
def O.trcAfter : ObjDef := ⟨0x70, 0x800, 5, 16, .u32, 4, .rw, 1, 1048576, .rng 1 2097151, .none, false, 0⟩
/-- TRC-STATE -/
def O.trcState : ObjDef := ⟨0x70, 0x800, 6, 16, .e8, 1, .ro, 0, 0, .any, .none, false, 0⟩
/-- TRC-NEXT -/
def O.trcNext : ObjDef := ⟨0x70, 0x800, 7, 16, .u32, 4, .ro, 1, 0, .any, .none, false, 0⟩
/-- TRC-LOST -/
def O.trcLost : ObjDef := ⟨0x70, 0x800, 8, 16, .u64, 8, .ro, 0, 0, .any, .none, false, 0⟩
/-- TRC-ARM -/
def O.trcArm : ObjDef := ⟨0x70, 0x800, 9, 16, .cmd, 0, .cm, 1, 0, .any, .none, false, 0⟩
/-- TRACE -/
def O.trace : ObjDef := ⟨0x70, 0x3000, 0, 16, .tbl, 32, .ro, 1, 0, .any, .none, false, 2097152⟩
/-- POOL-COUNT -/
def O.poolCount : ObjDef := ⟨0x70, 0x4000, 0, 1, .tbl, 4, .ro, 0, 0, .any, .none, false, 16777216⟩

/-! Objects of spec/12_hbm_memory.md R418. -/

/-- HBM-MAP-ORDER -/
def O.hbmMapOrder : ObjDef := ⟨0x78, 0x1, 0, 1, .e8, 1, .rs, 2, 1, .rng 0 2, .basinsSluices, false, 0⟩
/-- HBM-PAGE-POLICY -/
def O.hbmPagePolicy : ObjDef := ⟨0x78, 0x2, 0, 1, .e8, 1, .rw, 1, 0, .rng 0 2, .none, false, 0⟩
/-- HBM-BULK-LIMIT -/
def O.hbmBulkLimit : ObjDef := ⟨0x78, 0x3, 0, 1, .u8, 1, .rw, 1, 96, .rng 32 120, .none, false, 0⟩
/-- HBM-IDLE-SR -/
def O.hbmIdleSr : ObjDef := ⟨0x78, 0x4, 0, 1, .b, 1, .rw, 1, 0, .any, .none, false, 0⟩
/-- HBM-IDLE-SR-AFTER -/
def O.hbmIdleSrAfter : ObjDef := ⟨0x78, 0x5, 0, 1, .u32, 4, .rw, 1, 50, .rng 10 100000, .none, false, 0⟩
/-- HBM-RETRAIN-PERIOD -/
def O.hbmRetrainPeriod : ObjDef := ⟨0x78, 0x6, 0, 1, .u32, 4, .rw, 1, 100, .rng 10 10000, .none, false, 0⟩
/-- HBM-SCRUB-PERIOD -/
def O.hbmScrubPeriod : ObjDef := ⟨0x78, 0x7, 0, 1, .u32, 4, .rw, 1, 86400, .special, .none, false, 0⟩
/-- HBM-CE-NOTIFY -/
def O.hbmCeNotify : ObjDef := ⟨0x78, 0x8, 0, 1, .u32, 4, .rw, 1, 1000, .rng 1 0xFFFFFFFF, .none, false, 0⟩
/-- HBM-STATE -/
def O.hbmState : ObjDef := ⟨0x78, 0x9, 0, 1, .e8, 1, .ro, 0, 0, .any, .none, false, 0⟩
/-- STK -/
def O.stk : ObjDef := ⟨0x78, 0x100, 0, 8, .u8, 1, .ro, 0, 11, .any, .none, false, 0⟩
/-- STK-STATE -/
def O.stkState : ObjDef := ⟨0x78, 0x100, 1, 8, .e8, 1, .ro, 0, 0, .any, .none, false, 0⟩
/-- STK-PARTNER -/
def O.stkPartner : ObjDef := ⟨0x78, 0x100, 2, 8, .u8, 1, .ro, 0, 0, .any, .none, false, 0⟩
/-- STK-TEMP -/
def O.stkTemp : ObjDef := ⟨0x78, 0x100, 3, 8, .s32, 4, .ro, 0, 0, .any, .none, false, 0⟩
/-- STK-REFRESH-X -/
def O.stkRefreshX : ObjDef := ⟨0x78, 0x100, 4, 8, .e8, 1, .ro, 0, 0, .any, .none, false, 0⟩
/-- STK-CE -/
def O.stkCe : ObjDef := ⟨0x78, 0x100, 5, 8, .u64, 8, .ro, 0, 0, .any, .none, false, 0⟩
/-- STK-UE -/
def O.stkUe : ObjDef := ⟨0x78, 0x100, 6, 8, .u64, 8, .ro, 0, 0, .any, .none, false, 0⟩
/-- STK-REPAIRED -/
def O.stkRepaired : ObjDef := ⟨0x78, 0x100, 7, 8, .u64, 8, .ro, 0, 0, .any, .none, false, 0⟩
/-- STK-LOST-LINES -/
def O.stkLostLines : ObjDef := ⟨0x78, 0x100, 8, 8, .u64, 8, .ro, 0, 0, .any, .none, false, 0⟩
/-- STK-RETRAINS -/
def O.stkRetrains : ObjDef := ⟨0x78, 0x100, 9, 8, .u64, 8, .ro, 0, 0, .any, .none, false, 0⟩
/-- STK-RETRAIN-LAST -/
def O.stkRetrainLast : ObjDef := ⟨0x78, 0x100, 10, 8, .t96, 12, .ro, 0, 0, .any, .none, false, 0⟩
/-- STK-SCRUB-PASS -/
def O.stkScrubPass : ObjDef := ⟨0x78, 0x100, 11, 8, .u64, 8, .ro, 0, 0, .any, .none, false, 0⟩
/-- PC -/
def O.pc : ObjDef := ⟨0x78, 0x1000, 0, 512, .u8, 1, .ro, 0, 11, .any, .none, false, 0⟩
/-- PC-QUEUE -/
def O.pcQueue : ObjDef := ⟨0x78, 0x1000, 1, 512, .u8, 1, .ro, 0, 0, .any, .none, false, 0⟩
/-- PC-QUEUE-PEAK -/
def O.pcQueuePeak : ObjDef := ⟨0x78, 0x1000, 2, 512, .u8, 1, .ro, 0, 0, .any, .none, false, 0⟩
/-- PC-QFULL-WAITS -/
def O.pcQfullWaits : ObjDef := ⟨0x78, 0x1000, 3, 512, .u64, 8, .ro, 0, 0, .any, .none, false, 0⟩
/-- PC-READS -/
def O.pcReads : ObjDef := ⟨0x78, 0x1000, 4, 512, .u64, 8, .ro, 0, 0, .any, .none, false, 0⟩
/-- PC-WRITES -/
def O.pcWrites : ObjDef := ⟨0x78, 0x1000, 5, 512, .u64, 8, .ro, 0, 0, .any, .none, false, 0⟩
/-- PC-ROW-HITS -/
def O.pcRowHits : ObjDef := ⟨0x78, 0x1000, 6, 512, .u64, 8, .ro, 0, 0, .any, .none, false, 0⟩
/-- PC-SR-ENTRIES -/
def O.pcSrEntries : ObjDef := ⟨0x78, 0x1000, 7, 512, .u64, 8, .ro, 0, 0, .any, .none, false, 0⟩
/-- PC-SR-CANCELS -/
def O.pcSrCancels : ObjDef := ⟨0x78, 0x1000, 8, 512, .u64, 8, .ro, 0, 0, .any, .none, false, 0⟩
/-- PC-SR-WAITS -/
def O.pcSrWaits : ObjDef := ⟨0x78, 0x1000, 9, 512, .u64, 8, .ro, 0, 0, .any, .none, false, 0⟩
/-- PC-CE -/
def O.pcCe : ObjDef := ⟨0x78, 0x1000, 10, 512, .u64, 8, .ro, 0, 0, .any, .none, false, 0⟩
/-- PC-UE -/
def O.pcUe : ObjDef := ⟨0x78, 0x1000, 11, 512, .u64, 8, .ro, 0, 0, .any, .none, false, 0⟩

/-! Objects of spec/13_buffer_pools.md R440. -/

/-- HPL-REBUILD -/
def O.hplRebuild : ObjDef := ⟨0x80, 0x10, 0, 1, .cmd, 1, .cm, 2, 0, .rng 0 15, .none, false, 0⟩
/-- BUFP -/
def O.bufp : ObjDef := ⟨0x80, 0x100, 0, 32, .u8, 1, .ro, 0, 9, .any, .none, false, 0⟩
/-- BUFP-CELL-SIZE -/
def O.bufpCellSize : ObjDef := ⟨0x80, 0x100, 1, 32, .u32, 4, .ro, 0, 0, .any, .none, false, 0⟩
/-- BUFP-CELLS -/
def O.bufpCells : ObjDef := ⟨0x80, 0x100, 2, 32, .u32, 4, .ro, 0, 0, .any, .none, false, 0⟩
/-- BUFP-FREE -/
def O.bufpFree : ObjDef := ⟨0x80, 0x100, 3, 32, .u32, 4, .ro, 0, 0, .any, .none, false, 0⟩
/-- BUFP-FREE-MIN -/
def O.bufpFreeMin : ObjDef := ⟨0x80, 0x100, 4, 32, .u32, 4, .ro, 0, 0, .any, .none, false, 0⟩
/-- BUFP-ALLOCS -/
def O.bufpAllocs : ObjDef := ⟨0x80, 0x100, 5, 32, .u64, 8, .ro, 0, 0, .any, .none, false, 0⟩
/-- BUFP-FALLBACK-IN -/
def O.bufpFallbackIn : ObjDef := ⟨0x80, 0x100, 6, 32, .u64, 8, .ro, 0, 0, .any, .none, false, 0⟩
/-- BUFP-EXHAUSTED -/
def O.bufpExhausted : ObjDef := ⟨0x80, 0x100, 7, 32, .u64, 8, .ro, 0, 0, .any, .none, false, 0⟩
/-- BUFP-FREE-FAULTS -/
def O.bufpFreeFaults : ObjDef := ⟨0x80, 0x100, 8, 32, .u64, 8, .ro, 0, 0, .any, .none, false, 0⟩
/-- BUFP-ROT -/
def O.bufpRot : ObjDef := ⟨0x80, 0x100, 9, 32, .u8, 1, .ro, 0, 0, .any, .none, false, 0⟩
/-- BUFR -/
def O.bufr : ObjDef := ⟨0x80, 0x200, 0, 8, .u8, 1, .ro, 0, 2, .any, .none, false, 0⟩
/-- BUFR-QUOTA-REFUSED -/
def O.bufrQuotaRefused : ObjDef := ⟨0x80, 0x200, 1, 8, .u64, 8, .ro, 0, 0, .any, .none, false, 0⟩
/-- BUFR-OVERSIZE -/
def O.bufrOversize : ObjDef := ⟨0x80, 0x200, 2, 8, .u64, 8, .ro, 0, 0, .any, .none, false, 0⟩
/-- BUF-QUOTA -/
def O.bufQuota : ObjDef := ⟨0x80, 0x300, 0, 8, .tbl, 4, .rw, 1, 0, .any, .none, false, 1024⟩
/-- BUF-OCC -/
def O.bufOcc : ObjDef := ⟨0x80, 0x400, 0, 8, .tbl, 4, .ro, 0, 0, .any, .none, false, 1024⟩
/-- BUF-OWNER -/
def O.bufOwner : ObjDef := ⟨0x80, 0x500, 0, 8, .tbl, 16, .ro, 0, 0, .any, .none, false, 64⟩
/-- HPL -/
def O.hpl : ObjDef := ⟨0x80, 0x800, 0, 16, .u8, 1, .ro, 0, 11, .any, .none, false, 0⟩
/-- HPL-SIZE -/
def O.hplSize : ObjDef := ⟨0x80, 0x800, 1, 16, .u32, 4, .ro, 0, 0, .any, .none, false, 0⟩
/-- HPL-BUFFERS -/
def O.hplBuffers : ObjDef := ⟨0x80, 0x800, 2, 16, .u32, 4, .ro, 0, 262144, .any, .none, false, 0⟩
/-- HPL-FREE -/
def O.hplFree : ObjDef := ⟨0x80, 0x800, 3, 16, .u32, 4, .ro, 0, 0, .any, .none, false, 0⟩
/-- HPL-FREE-MIN -/
def O.hplFreeMin : ObjDef := ⟨0x80, 0x800, 4, 16, .u32, 4, .ro, 0, 0, .any, .none, false, 0⟩
/-- HPL-STATE -/
def O.hplState : ObjDef := ⟨0x80, 0x800, 5, 16, .e8, 1, .ro, 0, 0, .any, .none, false, 0⟩
/-- HPL-ALLOCS -/
def O.hplAllocs : ObjDef := ⟨0x80, 0x800, 6, 16, .u64, 8, .ro, 0, 0, .any, .none, false, 0⟩
/-- HPL-EXHAUSTED -/
def O.hplExhausted : ObjDef := ⟨0x80, 0x800, 7, 16, .u64, 8, .ro, 0, 0, .any, .none, false, 0⟩
/-- HPL-FREE-FAULTS -/
def O.hplFreeFaults : ObjDef := ⟨0x80, 0x800, 8, 16, .u64, 8, .ro, 0, 0, .any, .none, false, 0⟩
/-- HPL-FROZEN-FREES -/
def O.hplFrozenFrees : ObjDef := ⟨0x80, 0x800, 9, 16, .u64, 8, .ro, 0, 0, .any, .none, false, 0⟩
/-- HPL-STOCK-WAITS -/
def O.hplStockWaits : ObjDef := ⟨0x80, 0x800, 10, 16, .u64, 8, .ro, 0, 0, .any, .none, false, 0⟩
/-- HPL-ROT -/
def O.hplRot : ObjDef := ⟨0x80, 0x800, 11, 16, .u8, 1, .ro, 0, 0, .any, .none, false, 0⟩
/-- HRQ -/
def O.hrq : ObjDef := ⟨0x80, 0x900, 0, 16, .u8, 1, .ro, 0, 4, .any, .none, false, 0⟩
/-- HRQ-LIMIT -/
def O.hrqLimit : ObjDef := ⟨0x80, 0x900, 1, 16, .u32, 4, .rw, 1, 1536, .rng 64 3072, .none, false, 0⟩
/-- HRQ-INUSE -/
def O.hrqInuse : ObjDef := ⟨0x80, 0x900, 2, 16, .u64, 8, .ro, 0, 0, .any, .none, false, 0⟩
/-- HRQ-QUOTA-REFUSED -/
def O.hrqQuotaRefused : ObjDef := ⟨0x80, 0x900, 3, 16, .u64, 8, .ro, 0, 0, .any, .none, false, 0⟩
/-- HRQ-UNDERFLOW -/
def O.hrqUnderflow : ObjDef := ⟨0x80, 0x900, 4, 16, .u64, 8, .ro, 0, 0, .any, .none, false, 0⟩

/-! Objects of spec/14_switch_core.md R472. -/

/-- VOQ-LIMIT -/
def O.voqLimit : ObjDef := ⟨0x88, 0x1, 0, 1, .tbl, 4, .rw, 1, 0, .any, .none, false, 8192⟩
/-- ECN-PROFILE -/
def O.ecnProfile : ObjDef := ⟨0x88, 0x2, 0, 1, .tbl, 8, .rw, 1, 0, .any, .none, false, 8192⟩
/-- GNT-WINDOW -/
def O.gntWindow : ObjDef := ⟨0x88, 0x3, 0, 1, .tbl, 4, .rw, 1, 0, .any, .none, false, 8192⟩
/-- GNT-SIZE -/
def O.gntSize : ObjDef := ⟨0x88, 0x4, 0, 1, .u32, 4, .rw, 1, 4096, .rng 1024 65536, .none, false, 0⟩
/-- VOQ-DELAY-MARK -/
def O.voqDelayMark : ObjDef := ⟨0x88, 0x5, 0, 1, .u32, 4, .rw, 1, 10000, .rng 100 1000000, .none, false, 0⟩
/-- MC-REACH-MASK -/
def O.mcReachMask : ObjDef := ⟨0x88, 0x6, 0, 1, .tbl, 1, .rw, 1, 0, .any, .none, false, 65536⟩
/-- MC-WINDOW -/
def O.mcWindow : ObjDef := ⟨0x88, 0x7, 0, 1, .u32, 4, .rw, 1, 2048, .rng 64 16384, .none, false, 0⟩
/-- MC-VOQ-LIMIT -/
def O.mcVoqLimit : ObjDef := ⟨0x88, 0x8, 0, 1, .u32, 4, .rw, 1, 4096, .rng 64 40704, .none, false, 0⟩
/-- VOQR -/
def O.voqr : ObjDef := ⟨0x88, 0x100, 0, 8, .u8, 1, .ro, 0, 14, .any, .none, false, 0⟩
/-- VOQ-REACH-LIMIT -/
def O.voqReachLimit : ObjDef := ⟨0x88, 0x100, 1, 8, .u32, 4, .rw, 1, 32768, .rng 1024 40704, .none, false, 0⟩
/-- VOQ-REACH-OCC -/
def O.voqReachOcc : ObjDef := ⟨0x88, 0x100, 2, 8, .u32, 4, .ro, 0, 0, .any, .none, false, 0⟩
/-- VOQ-ENQUEUED -/
def O.voqEnqueued : ObjDef := ⟨0x88, 0x100, 3, 8, .u64, 8, .ro, 0, 0, .any, .none, false, 0⟩
/-- VOQ-REFUSED-LIMIT -/
def O.voqRefusedLimit : ObjDef := ⟨0x88, 0x100, 4, 8, .u64, 8, .ro, 0, 0, .any, .none, false, 0⟩
/-- VOQ-REFUSED-DOWN -/
def O.voqRefusedDown : ObjDef := ⟨0x88, 0x100, 5, 8, .u64, 8, .ro, 0, 0, .any, .none, false, 0⟩
/-- VOQ-FLUSHED -/
def O.voqFlushed : ObjDef := ⟨0x88, 0x100, 6, 8, .u64, 8, .ro, 0, 0, .any, .none, false, 0⟩
/-- VOQ-DELAYED -/
def O.voqDelayed : ObjDef := ⟨0x88, 0x100, 7, 8, .u64, 8, .ro, 0, 0, .any, .none, false, 0⟩
/-- ECN-MARKED -/
def O.ecnMarked : ObjDef := ⟨0x88, 0x100, 8, 8, .u64, 8, .ro, 0, 0, .any, .none, false, 0⟩
/-- VOQ-DEQ-DROP -/
def O.voqDeqDrop : ObjDef := ⟨0x88, 0x100, 9, 8, .u64, 8, .ro, 0, 0, .any, .none, false, 0⟩
/-- GNT-ISSUED -/
def O.gntIssued : ObjDef := ⟨0x88, 0x100, 10, 8, .u64, 8, .ro, 0, 0, .any, .none, false, 0⟩
/-- RX-REFUSED -/
def O.rxRefused : ObjDef := ⟨0x88, 0x100, 11, 8, .u64, 8, .ro, 0, 0, .any, .none, false, 0⟩
/-- MC-RECEIVED -/
def O.mcReceived : ObjDef := ⟨0x88, 0x100, 12, 8, .u64, 8, .ro, 0, 0, .any, .none, false, 0⟩
/-- MC-COPIES -/
def O.mcCopies : ObjDef := ⟨0x88, 0x100, 13, 8, .u64, 8, .ro, 0, 0, .any, .none, false, 0⟩
/-- MC-REFUSED -/
def O.mcRefused : ObjDef := ⟨0x88, 0x100, 14, 8, .u64, 8, .ro, 0, 0, .any, .none, false, 0⟩
/-- HOLD -/
def O.hold : ObjDef := ⟨0x88, 0x200, 0, 8, .u8, 1, .ro, 0, 6, .any, .none, false, 0⟩
/-- HOLD-OCC -/
def O.holdOcc : ObjDef := ⟨0x88, 0x200, 1, 8, .u32, 4, .ro, 0, 0, .any, .none, false, 0⟩
/-- HOLD-PEAK -/
def O.holdPeak : ObjDef := ⟨0x88, 0x200, 2, 8, .u32, 4, .ro, 0, 0, .any, .none, false, 0⟩
/-- HOLD-ADMITTED -/
def O.holdAdmitted : ObjDef := ⟨0x88, 0x200, 3, 8, .u64, 8, .ro, 0, 0, .any, .none, false, 0⟩
/-- HOLD-FULL-DROP -/
def O.holdFullDrop : ObjDef := ⟨0x88, 0x200, 4, 8, .u64, 8, .ro, 0, 0, .any, .none, false, 0⟩
/-- HOLD-AGE-DROP -/
def O.holdAgeDrop : ObjDef := ⟨0x88, 0x200, 5, 8, .u64, 8, .ro, 0, 0, .any, .none, false, 0⟩
/-- HOLD-RELEASED -/
def O.holdReleased : ObjDef := ⟨0x88, 0x200, 6, 8, .u64, 8, .ro, 0, 0, .any, .none, false, 0⟩
/-- VOQ-OCC -/
def O.voqOcc : ObjDef := ⟨0x88, 0x400, 0, 8, .tbl, 4, .ro, 0, 0, .any, .none, false, 8256⟩
/-- MC-GROUP -/
def O.mcGroup : ObjDef := ⟨0x88, 0x500, 0, 8, .tbl, 8, .rw, 1, 0, .any, .none, false, 65536⟩
/-- MC-MEMBER -/
def O.mcMember : ObjDef := ⟨0x88, 0x600, 0, 8, .tbl, 4, .rw, 1, 0, .any, .none, false, 262144⟩
/-- CH -/
def O.ch : ObjDef := ⟨0x88, 0x1000, 0, 256, .u8, 1, .ro, 0, 3, .any, .none, false, 0⟩
/-- CH-OCTETS -/
def O.chOctets : ObjDef := ⟨0x88, 0x1000, 1, 256, .u64, 8, .ro, 0, 0, .any, .none, false, 0⟩
/-- CH-MSGS -/
def O.chMsgs : ObjDef := ⟨0x88, 0x1000, 2, 256, .u64, 8, .ro, 0, 0, .any, .none, false, 0⟩
/-- CH-WAITS -/
def O.chWaits : ObjDef := ⟨0x88, 0x1000, 3, 256, .u64, 8, .ro, 0, 0, .any, .none, false, 0⟩

/-! Objects of spec/15_egress_scheduling.md R496. -/

/-- ES-EQ-LIMIT -/
def O.esEqLimit : ObjDef := ⟨0x90, 0x1, 0, 1, .tbl, 4, .rw, 1, 0, .any, .none, false, 8192⟩
/-- ES-EQ-OCC -/
def O.esEqOcc : ObjDef := ⟨0x90, 0x2, 0, 1, .tbl, 4, .ro, 0, 0, .any, .none, false, 8192⟩
/-- LIF-QUEUE -/
def O.lifQueue : ObjDef := ⟨0x90, 0x3, 0, 1, .tbl, 16, .rl, 1, 0, .any, .lifQueue, false, 65536⟩
/-- LIF-QUEUE-OCC -/
def O.lifQueueOcc : ObjDef := ⟨0x90, 0x4, 0, 1, .tbl, 4, .ro, 0, 0, .any, .none, false, 65536⟩
/-- ES -/
def O.es : ObjDef := ⟨0x90, 0x100, 0, 1024, .u8, 1, .ro, 0, 18, .any, .none, false, 0⟩
/-- ES-STRICT-FROM -/
def O.esStrictFrom : ObjDef := ⟨0x90, 0x100, 1, 1024, .u8, 1, .rs, 1, 6, .rng 0 8, .fn 0x0 1, false, 0⟩
/-- ES-CLASS-WEIGHT -/
def O.esClassWeight : ObjDef := ⟨0x90, 0x100, 2, 1024, .os, 8, .rs, 1, 72340172838076673, .special, .fn 0x0 1, false, 0⟩
/-- ES-PSHAPE-RATE -/
def O.esPshapeRate : ObjDef := ⟨0x90, 0x100, 3, 1024, .u32, 4, .rl, 1, 0, .rng 0 1600000, .fn 0x0 1, false, 0⟩
/-- ES-PSHAPE-BURST -/
def O.esPshapeBurst : ObjDef := ⟨0x90, 0x100, 4, 1024, .u32, 4, .rl, 1, 256, .rng 16 65536, .fn 0x0 1, false, 0⟩
/-- ES-SHAPE-OVERHEAD -/
def O.esShapeOverhead : ObjDef := ⟨0x90, 0x100, 5, 1024, .u8, 1, .rs, 1, 20, .rng 0 63, .fn 0x0 1, false, 0⟩
/-- ES-TOKEN-RESET -/
def O.esTokenReset : ObjDef := ⟨0x90, 0x100, 6, 1024, .e8, 1, .rw, 1, 0, .rng 0 1, .none, false, 0⟩
/-- ES-GUARD -/
def O.esGuard : ObjDef := ⟨0x90, 0x100, 7, 1024, .u32, 4, .rs, 1, 100, .rng 0 100000, .fn 0x0 1, false, 0⟩
/-- ES-GATE-EN -/
def O.esGateEn : ObjDef := ⟨0x90, 0x100, 8, 1024, .b, 1, .rs, 1, 0, .any, .fn 0x0 1, false, 0⟩
/-- ES-GATE-USE -/
def O.esGateUse : ObjDef := ⟨0x90, 0x100, 9, 1024, .e8, 1, .rl, 1, 0, .rng 0 1, .fn 0x0 1, false, 0⟩
/-- ES-GATE-ACTIVE -/
def O.esGateActive : ObjDef := ⟨0x90, 0x100, 10, 1024, .e8, 1, .ro, 0, 0, .any, .none, false, 0⟩
/-- ES-GATE-LAND -/
def O.esGateLand : ObjDef := ⟨0x90, 0x100, 11, 1024, .t96, 12, .ro, 0, 0, .any, .none, false, 0⟩
/-- ES-SENT -/
def O.esSent : ObjDef := ⟨0x90, 0x100, 12, 1024, .u64, 8, .ro, 0, 0, .any, .none, false, 0⟩
/-- ES-GATE-WAITS -/
def O.esGateWaits : ObjDef := ⟨0x90, 0x100, 13, 1024, .u64, 8, .ro, 0, 0, .any, .none, false, 0⟩
/-- ES-GATE-DROP -/
def O.esGateDrop : ObjDef := ⟨0x90, 0x100, 14, 1024, .u64, 8, .ro, 0, 0, .any, .none, false, 0⟩
/-- ES-GATE-LATE -/
def O.esGateLate : ObjDef := ⟨0x90, 0x100, 15, 1024, .u64, 8, .ro, 0, 0, .any, .none, false, 0⟩
/-- ES-GATE-OVERRUN -/
def O.esGateOverrun : ObjDef := ⟨0x90, 0x100, 16, 1024, .u64, 8, .ro, 0, 0, .any, .none, false, 0⟩
/-- ES-TTL-DROP -/
def O.esTtlDrop : ObjDef := ⟨0x90, 0x100, 17, 1024, .u64, 8, .ro, 0, 0, .any, .none, false, 0⟩
/-- ES-FLUSHED -/
def O.esFlushed : ObjDef := ⟨0x90, 0x100, 18, 1024, .u64, 8, .ro, 0, 0, .any, .none, false, 0⟩
/-- GCL -/
def O.gcl : ObjDef := ⟨0x90, 0x800, 0, 2048, .u8, 1, .ro, 0, 4, .any, .none, false, 0⟩
/-- GCL-BASE -/
def O.gclBase : ObjDef := ⟨0x90, 0x800, 1, 2048, .t96, 12, .rw, 1, 0, .any, .none, false, 0⟩
/-- GCL-CYCLE -/
def O.gclCycle : ObjDef := ⟨0x90, 0x800, 2, 2048, .u32, 4, .rw, 1, 1000000, .rng 1000 1000000000, .none, false, 0⟩
/-- GCL-COUNT -/
def O.gclCount : ObjDef := ⟨0x90, 0x800, 3, 2048, .u16, 2, .rw, 1, 1, .rng 1 256, .none, false, 0⟩
/-- GCL-OPEN-MAX -/
def O.gclOpenMax : ObjDef := ⟨0x90, 0x800, 4, 2048, .os, 32, .ro, 0, 0, .any, .none, false, 0⟩
/-- GCL-ENTRIES -/
def O.gclEntries : ObjDef := ⟨0x90, 0x1000, 0, 2048, .tbl, 8, .rw, 1, 0, .any, .none, false, 256⟩
/-- POL-TABLE -/
def O.polTable : ObjDef := ⟨0x90, 0x2000, 0, 8, .tbl, 48, .rw, 1, 0, .any, .none, false, 16384⟩
/-- RW-TABLE -/
def O.rwTable : ObjDef := ⟨0x90, 0x3000, 0, 8, .tbl, 24, .rw, 1, 0, .any, .none, false, 32768⟩

/-! Objects of spec/16_time.md R514. -/

/-- TB-FRC -/
def O.tbFrc : ObjDef := ⟨0x48, 0x1, 0, 1, .u64, 8, .ro, 0, 0, .any, .none, false, 0⟩
/-- TB-TIME -/
def O.tbTime : ObjDef := ⟨0x48, 0x2, 0, 1, .t96, 12, .ro, 0, 0, .any, .none, false, 0⟩
/-- TB-RATE -/
def O.tbRate : ObjDef := ⟨0x48, 0x3, 0, 1, .s64, 8, .rl, 1, 0, .srng (-140737488355) 140737488355, .none, false, 0⟩
/-- TB-ADJUST -/
def O.tbAdjust : ObjDef := ⟨0x48, 0x4, 0, 1, .cmd, 8, .cm, 1, 0, .any, .none, false, 0⟩
/-- TB-SET -/
def O.tbSet : ObjDef := ⟨0x48, 0x5, 0, 1, .cmd, 12, .cm, 1, 0, .any, .none, false, 0⟩
/-- TB-SET-AT-PPS -/
def O.tbSetAtPps : ObjDef := ⟨0x48, 0x6, 0, 1, .cmd, 12, .cm, 1, 0, .any, .none, false, 0⟩
/-- TB-STEPS -/
def O.tbSteps : ObjDef := ⟨0x48, 0x7, 0, 1, .u64, 8, .ro, 0, 0, .any, .none, false, 0⟩
/-- TB-LAST-STEP -/
def O.tbLastStep : ObjDef := ⟨0x48, 0x8, 0, 1, .t96, 12, .ro, 0, 0, .any, .none, false, 0⟩
/-- TB-REF-SOURCE -/
def O.tbRefSource : ObjDef := ⟨0x48, 0x10, 0, 1, .e8, 1, .rw, 1, 0, .rng 0 1, .none, false, 0⟩
/-- TB-REF-STATE -/
def O.tbRefState : ObjDef := ⟨0x48, 0x11, 0, 1, .e8, 1, .ro, 0, 0, .any, .none, false, 0⟩
/-- PPS-IN-EDGE -/
def O.ppsInEdge : ObjDef := ⟨0x48, 0x20, 0, 1, .e8, 1, .rw, 1, 0, .rng 0 2, .none, false, 0⟩
/-- PPS-IN-TIME -/
def O.ppsInTime : ObjDef := ⟨0x48, 0x21, 0, 1, .t96, 12, .ro, 0, 0, .any, .none, false, 0⟩
/-- PPS-IN-FRC -/
def O.ppsInFrc : ObjDef := ⟨0x48, 0x22, 0, 1, .u64, 8, .ro, 0, 0, .any, .none, false, 0⟩
/-- PPS-IN-COUNT -/
def O.ppsInCount : ObjDef := ⟨0x48, 0x23, 0, 1, .u64, 8, .ro, 0, 0, .any, .none, false, 0⟩
/-- PPS-IN-SPURIOUS -/
def O.ppsInSpurious : ObjDef := ⟨0x48, 0x24, 0, 1, .u64, 8, .ro, 0, 0, .any, .none, false, 0⟩
/-- PPS-OUT-EN -/
def O.ppsOutEn : ObjDef := ⟨0x48, 0x30, 0, 1, .b, 1, .rw, 1, 0, .any, .none, false, 0⟩
/-- PPS-OUT-OFFSET -/
def O.ppsOutOffset : ObjDef := ⟨0x48, 0x31, 0, 1, .s32, 4, .rw, 1, 0, .srng (-500000000) 499999999, .none, false, 0⟩
/-- PPS-OUT-WIDTH -/
def O.ppsOutWidth : ObjDef := ⟨0x48, 0x32, 0, 1, .u32, 4, .rw, 1, 100000000, .rng 100 400000000, .none, false, 0⟩
/-- PPS-OUT-SKIPPED -/
def O.ppsOutSkipped : ObjDef := ⟨0x48, 0x33, 0, 1, .u64, 8, .ro, 0, 0, .any, .none, false, 0⟩
/-- TS-TXQ-NEXT -/
def O.tsTxqNext : ObjDef := ⟨0x48, 0x40, 0, 1, .os, 32, .ro, 1, 0, .any, .none, false, 0⟩
/-- TS-TXQ-COUNT -/
def O.tsTxqCount : ObjDef := ⟨0x48, 0x41, 0, 1, .u16, 2, .ro, 0, 0, .any, .none, false, 0⟩
/-- TS-TXQ-OVERFLOW -/
def O.tsTxqOverflow : ObjDef := ⟨0x48, 0x42, 0, 1, .u64, 8, .ro, 0, 0, .any, .none, false, 0⟩
/-- TS-LOST -/
def O.tsLost : ObjDef := ⟨0x48, 0x43, 0, 1, .tbl, 16, .ro, 1, 0, .any, .none, false, 256⟩
/-- TSP -/
def O.tsp : ObjDef := ⟨0x48, 0x1000, 0, 1024, .u8, 1, .ro, 0, 5, .any, .none, false, 0⟩
/-- TS-RX-CORR -/
def O.tsRxCorr : ObjDef := ⟨0x48, 0x1000, 1, 1024, .s32, 4, .rw, 1, 0, .srng (-1000000) 1000000, .none, false, 0⟩
/-- TS-TX-CORR -/
def O.tsTxCorr : ObjDef := ⟨0x48, 0x1000, 2, 1024, .s32, 4, .rw, 1, 0, .srng (-1000000) 1000000, .none, false, 0⟩
/-- TS-PEER-DELAY -/
def O.tsPeerDelay : ObjDef := ⟨0x48, 0x1000, 3, 1024, .u32, 4, .rw, 1, 0, .rng 0 100000000, .none, false, 0⟩
/-- TS-TX-STAMPED -/
def O.tsTxStamped : ObjDef := ⟨0x48, 0x1000, 4, 1024, .u64, 8, .ro, 0, 0, .any, .none, false, 0⟩
/-- TS-TC-CORRECTED -/
def O.tsTcCorrected : ObjDef := ⟨0x48, 0x1000, 5, 1024, .u64, 8, .ro, 0, 0, .any, .none, false, 0⟩
/-- TS-PTP-MODE -/
def O.tsPtpMode : ObjDef := ⟨0x48, 0x4000, 0, 8192, .e8, 1, .rw, 1, 0, .special, .none, false, 0⟩

/-! Objects of spec/17_counters_telemetry.md R534. -/

/-- CNT-STICKY-CLEAR -/
def O.cntStickyClear : ObjDef := ⟨0x98, 0x1, 0, 1, .cmd, 1, .cm, 1, 0, .rng 0 4, .none, false, 0⟩
/-- BW-WINDOW -/
def O.bwWindow : ObjDef := ⟨0x98, 0x2, 0, 1, .u32, 4, .rw, 1, 100000, .rng 1000 1000000, .none, false, 0⟩
/-- FL-PEN -/
def O.flPen : ObjDef := ⟨0x98, 0x10, 0, 1, .u32, 4, .ro, 0, 0, .any, .none, true, 0⟩
/-- FL-ODID -/
def O.flOdid : ObjDef := ⟨0x98, 0x11, 0, 1, .u32, 4, .rw, 1, 0, .any, .none, false, 0⟩
/-- FL-TEMPLATE-PERIOD -/
def O.flTemplatePeriod : ObjDef := ⟨0x98, 0x12, 0, 1, .u32, 4, .rw, 1, 60, .rng 1 3600, .none, false, 0⟩
/-- FL-FLUSH-AGE -/
def O.flFlushAge : ObjDef := ⟨0x98, 0x13, 0, 1, .u32, 4, .rw, 1, 100, .rng 1 10000, .none, false, 0⟩
/-- FL-FLOW-TEMPLATE -/
def O.flFlowTemplate : ObjDef := ⟨0x98, 0x14, 0, 1, .u8, 1, .rw, 1, 0, .rng 0 15, .none, false, 0⟩
/-- FL-LOSS -/
def O.flLoss : ObjDef := ⟨0x98, 0x15, 0, 1, .u8, 1, .ro, 0, 4, .any, .none, false, 0⟩
/-- FL-LOSS-NOBUF -/
def O.flLossNobuf : ObjDef := ⟨0x98, 0x15, 1, 1, .u64, 8, .ro, 0, 0, .any, .none, false, 0⟩
/-- FL-LOSS-REFUSED -/
def O.flLossRefused : ObjDef := ⟨0x98, 0x15, 2, 1, .u64, 8, .ro, 0, 0, .any, .none, false, 0⟩
/-- FL-LOSS-POISON -/
def O.flLossPoison : ObjDef := ⟨0x98, 0x15, 3, 1, .u64, 8, .ro, 0, 0, .any, .none, false, 0⟩
/-- FL-LOSS-DISCARD -/
def O.flLossDiscard : ObjDef := ⟨0x98, 0x15, 4, 1, .u64, 8, .ro, 0, 0, .any, .none, false, 0⟩
/-- PORT-CNT -/
def O.portCnt : ObjDef := ⟨0x98, 0x1000, 0, 1, .tbl, 24, .ro, 0, 0, .any, .none, false, 16384⟩
/-- RSN-CNT -/
def O.rsnCnt : ObjDef := ⟨0x98, 0x2000, 0, 1, .tbl, 24, .ro, 0, 0, .any, .none, false, 262144⟩
/-- RSN-BASIN -/
def O.rsnBasin : ObjDef := ⟨0x98, 0x2800, 0, 1, .tbl, 24, .ro, 0, 0, .any, .none, false, 512⟩
/-- BW -/
def O.bw : ObjDef := ⟨0x98, 0x3000, 0, 1, .tbl, 32, .ro, 0, 0, .any, .none, false, 1024⟩
/-- GEC -/
def O.gec : ObjDef := ⟨0x98, 0x4000, 0, 256, .u8, 1, .ro, 0, 2, .any, .none, false, 0⟩
/-- GEC-SELECT -/
def O.gecSelect : ObjDef := ⟨0x98, 0x4000, 1, 256, .u64, 8, .rw, 1, 0, .special, .none, false, 0⟩
/-- GEC-THRESHOLD -/
def O.gecThreshold : ObjDef := ⟨0x98, 0x4000, 2, 256, .u64, 8, .rw, 1, 0, .any, .none, false, 0⟩
/-- GEC-VALUES -/
def O.gecValues : ObjDef := ⟨0x98, 0x4100, 0, 1, .tbl, 24, .ro, 0, 0, .any, .none, false, 256⟩
/-- FL-COL -/
def O.flCol : ObjDef := ⟨0x98, 0x5000, 0, 4, .u8, 1, .ro, 0, 17, .any, .none, false, 0⟩
/-- FL-COL-EN -/
def O.flColEn : ObjDef := ⟨0x98, 0x5000, 1, 4, .b, 1, .rw, 1, 0, .any, .none, false, 0⟩
/-- FL-COL-PATH -/
def O.flColPath : ObjDef := ⟨0x98, 0x5000, 2, 4, .e8, 1, .rw, 1, 0, .rng 0 2, .none, false, 0⟩
/-- FL-COL-DEST -/
def O.flColDest : ObjDef := ⟨0x98, 0x5000, 3, 4, .u32, 4, .rw, 1, 0, .special, .none, false, 0⟩
/-- FL-COL-TC -/
def O.flColTc : ObjDef := ⟨0x98, 0x5000, 4, 4, .u8, 1, .rw, 1, 0, .rng 0 7, .none, false, 0⟩
/-- FL-COL-DADDR -/
def O.flColDaddr : ObjDef := ⟨0x98, 0x5000, 5, 4, .os, 16, .rw, 1, 0, .any, .none, false, 0⟩
/-- FL-COL-SADDR -/
def O.flColSaddr : ObjDef := ⟨0x98, 0x5000, 6, 4, .os, 16, .rw, 1, 0, .any, .none, false, 0⟩
/-- FL-COL-DPORT -/
def O.flColDport : ObjDef := ⟨0x98, 0x5000, 7, 4, .u16, 2, .rw, 1, 4739, .any, .none, false, 0⟩
/-- FL-COL-SPORT -/
def O.flColSport : ObjDef := ⟨0x98, 0x5000, 8, 4, .u16, 2, .rw, 1, 4739, .any, .none, false, 0⟩
/-- FL-COL-KINDS -/
def O.flColKinds : ObjDef := ⟨0x98, 0x5000, 9, 4, .m32, 4, .rw, 1, 19, .special, .none, false, 0⟩
/-- FL-COL-RATE -/
def O.flColRate : ObjDef := ⟨0x98, 0x5000, 10, 4, .u32, 4, .rw, 1, 1000, .rng 1 400000, .none, false, 0⟩
/-- FL-COL-MTU -/
def O.flColMtu : ObjDef := ⟨0x98, 0x5000, 11, 4, .u16, 2, .rw, 1, 1400, .rng 512 8960, .none, false, 0⟩
/-- FL-COL-QUEUE -/
def O.flColQueue : ObjDef := ⟨0x98, 0x5000, 12, 4, .u16, 2, .rw, 1, 64, .rng 1 256, .none, false, 0⟩
/-- FL-COL-RECORDS -/
def O.flColRecords : ObjDef := ⟨0x98, 0x5000, 13, 4, .u64, 8, .ro, 0, 0, .any, .none, false, 0⟩
/-- FL-COL-MESSAGES -/
def O.flColMessages : ObjDef := ⟨0x98, 0x5000, 14, 4, .u64, 8, .ro, 0, 0, .any, .none, false, 0⟩
/-- FL-COL-LOST-RATE -/
def O.flColLostRate : ObjDef := ⟨0x98, 0x5000, 15, 4, .u64, 8, .ro, 0, 0, .any, .none, false, 0⟩
/-- FL-COL-LOST-PATH -/
def O.flColLostPath : ObjDef := ⟨0x98, 0x5000, 16, 4, .u64, 8, .ro, 0, 0, .any, .none, false, 0⟩
/-- FL-COL-LOST-DOWN -/
def O.flColLostDown : ObjDef := ⟨0x98, 0x5000, 17, 4, .u64, 8, .ro, 0, 0, .any, .none, false, 0⟩
/-- FL-TEMPLATE -/
def O.flTemplate : ObjDef := ⟨0x98, 0x6000, 0, 1, .tbl, 8, .rw, 1, 0, .any, .none, false, 16⟩

/-! Objects of spec/18_security_keys.md R567. -/

/-- LC-SINCE -/
def O.lcSince : ObjDef := ⟨0x10, 0x11, 0, 1, .t96, 12, .ro, 0, 0, .any, .none, true, 0⟩
/-- LC-SHIP -/
def O.lcShip : ObjDef := ⟨0x10, 0x12, 0, 1, .cmd, 0, .cm, 3, 0, .any, .none, false, 0⟩
/-- DEV-CERTS -/
def O.devCerts : ObjDef := ⟨0x10, 0x20, 0, 1, .tbl, 8192, .ro, 0, 0, .any, .none, false, 3⟩
/-- DEV-ID-FPR -/
def O.devIdFpr : ObjDef := ⟨0x10, 0x21, 0, 1, .os, 32, .ro, 0, 0, .any, .none, false, 0⟩
/-- KEYSTORE-STATE -/
def O.keystoreState : ObjDef := ⟨0xA0, 0x1, 0, 1, .e8, 1, .ro, 0, 0, .any, .none, false, 0⟩
/-- TRNG-STATE -/
def O.trngState : ObjDef := ⟨0xA0, 0x2, 0, 1, .e8, 1, .ro, 0, 0, .any, .none, false, 0⟩
/-- TRNG-RETEST -/
def O.trngRetest : ObjDef := ⟨0xA0, 0x3, 0, 1, .cmd, 0, .cm, 2, 0, .any, .none, false, 0⟩
/-- TRNG-FAILS -/
def O.trngFails : ObjDef := ⟨0xA0, 0x4, 0, 1, .u64, 8, .ro, 0, 0, .any, .none, false, 0⟩
/-- OWNER-ROOT-NEXT -/
def O.ownerRootNext : ObjDef := ⟨0xA0, 0x10, 0, 1, .os, 1312, .rw, 2, 0, .any, .none, false, 0⟩
/-- OWNER-ROOT-FPR -/
def O.ownerRootFpr : ObjDef := ⟨0xA0, 0x11, 0, 1, .os, 32, .ro, 0, 0, .any, .none, true, 0⟩
/-- OWNER-CLAIM -/
def O.ownerClaim : ObjDef := ⟨0xA0, 0x12, 0, 1, .cmd, 8, .cm, 2, 0, .any, .none, false, 0⟩
/-- OWNER-TRANSFER -/
def O.ownerTransfer : ObjDef := ⟨0xA0, 0x13, 0, 1, .cmd, 8, .cm, 2, 0, .any, .none, false, 0⟩
/-- OWNER-RETURN -/
def O.ownerReturn : ObjDef := ⟨0xA0, 0x14, 0, 1, .cmd, 8, .cm, 2, 0, .any, .none, false, 0⟩
/-- SEC-FLOOR-OWNER -/
def O.secFloorOwner : ObjDef := ⟨0xA0, 0x20, 0, 1, .u64, 8, .ro, 0, 0, .any, .none, true, 0⟩
/-- SEC-FLOOR-VENDOR -/
def O.secFloorVendor : ObjDef := ⟨0xA0, 0x21, 0, 1, .u64, 8, .ro, 0, 0, .any, .none, true, 0⟩
/-- VENDOR-BUNDLE-OK -/
def O.vendorBundleOk : ObjDef := ⟨0xA0, 0x22, 0, 1, .b, 1, .rw, 2, 0, .any, .none, true, 0⟩
/-- VENDOR-ROOT-FPR -/
def O.vendorRootFpr : ObjDef := ⟨0xA0, 0x23, 0, 1, .os, 32, .ro, 0, 0, .any, .none, false, 0⟩
/-- CONFIG-MEASURE -/
def O.configMeasure : ObjDef := ⟨0xA0, 0x24, 0, 1, .os, 32, .ro, 0, 0, .any, .none, false, 0⟩
/-- SLOT -/
def O.slot : ObjDef := ⟨0xA0, 0x100, 0, 69, .u8, 1, .ro, 0, 7, .any, .none, false, 0⟩
/-- SLOT-CLASS -/
def O.slotClass : ObjDef := ⟨0xA0, 0x100, 1, 69, .e8, 1, .ro, 0, 0, .any, .none, false, 0⟩
/-- SLOT-STATE -/
def O.slotState : ObjDef := ⟨0xA0, 0x100, 2, 69, .e8, 1, .ro, 0, 0, .any, .none, false, 0⟩
/-- SLOT-PURPOSE -/
def O.slotPurpose : ObjDef := ⟨0xA0, 0x100, 3, 69, .e8, 1, .ro, 0, 0, .any, .none, false, 0⟩
/-- SLOT-KCV -/
def O.slotKcv : ObjDef := ⟨0xA0, 0x100, 4, 69, .os, 8, .ro, 0, 0, .any, .none, false, 0⟩
/-- SLOT-NONCE -/
def O.slotNonce : ObjDef := ⟨0xA0, 0x100, 5, 69, .u64, 8, .ro, 0, 0, .any, .none, false, 0⟩
/-- SLOT-ERASE -/
def O.slotErase : ObjDef := ⟨0xA0, 0x100, 6, 69, .cmd, 0, .cm, 2, 0, .any, .none, false, 0⟩
/-- SLOT-LOADED -/
def O.slotLoaded : ObjDef := ⟨0xA0, 0x100, 7, 69, .t96, 12, .ro, 0, 0, .any, .none, true, 0⟩
/-- CIPHER-REQ -/
def O.cipherReq : ObjDef := ⟨0xA0, 0x400, 0, 1, .tbl, 4160, .rw, 2, 0, .any, .none, false, 16⟩

/-! Objects of spec/19_debug_matrix.md R583. -/

/-- DBG-OBSERVE-EN -/
def O.dbgObserveEn : ObjDef := ⟨0xA8, 0x1, 0, 1, .b, 1, .rw, 2, 0, .any, .none, true, 0⟩
/-- DBG-OWNER-CONSENT -/
def O.dbgOwnerConsent : ObjDef := ⟨0xA8, 0x2, 0, 1, .u8, 1, .rw, 2, 0, .rng 0 3, .none, true, 0⟩
/-- DBG-LEVEL -/
def O.dbgLevel : ObjDef := ⟨0xA8, 0x3, 0, 1, .e8, 1, .ro, 0, 0, .any, .none, false, 0⟩
/-- DBG-EXPIRY -/
def O.dbgExpiry : ObjDef := ⟨0xA8, 0x4, 0, 1, .u64, 8, .ro, 0, 0, .any, .none, false, 0⟩
/-- DBG-WICK-SESSION -/
def O.dbgWickSession : ObjDef := ⟨0xA8, 0x5, 0, 1, .u8, 1, .ro, 0, 255, .any, .none, false, 0⟩
/-- WICK-ROOT-FPR -/
def O.wickRootFpr : ObjDef := ⟨0xA8, 0x6, 0, 1, .os, 32, .ro, 0, 0, .any, .none, false, 0⟩
/-- WICK-NONCE -/
def O.wickNonce : ObjDef := ⟨0xA8, 0x10, 0, 1, .os, 32, .ro, 2, 0, .any, .none, false, 0⟩
/-- WICK-BUF -/
def O.wickBuf : ObjDef := ⟨0xA8, 0x11, 0, 1, .tbl, 2560, .rw, 2, 0, .any, .none, false, 1⟩
/-- WICK-APPLY -/
def O.wickApply : ObjDef := ⟨0xA8, 0x12, 0, 1, .cmd, 0, .cm, 2, 0, .any, .none, false, 0⟩
/-- WICK-REVOKE -/
def O.wickRevoke : ObjDef := ⟨0xA8, 0x13, 0, 1, .cmd, 0, .cm, 2, 0, .any, .none, false, 0⟩
/-- DBG-LEVEL-REQ -/
def O.dbgLevelReq : ObjDef := ⟨0xA8, 0x14, 0, 1, .cmd, 2, .cm, 2, 0, .any, .none, false, 0⟩
/-- DBG-TAP-REFUSED -/
def O.dbgTapRefused : ObjDef := ⟨0xA8, 0x15, 0, 1, .u64, 8, .ro, 0, 0, .any, .none, false, 0⟩
/-- DBG-LOG -/
def O.dbgLog : ObjDef := ⟨0xA8, 0x30, 0, 1, .tbl, 32, .ro, 0, 0, .any, .none, true, 64⟩

/-! Objects of spec/20_faults_recovery.md R607. -/

/-- FLT-QUEUE-USED -/
def O.fltQueueUsed : ObjDef := ⟨0xB0, 0x1, 0, 1, .u16, 2, .ro, 0, 0, .any, .none, false, 0⟩
/-- FLT-OVERFLOW -/
def O.fltOverflow : ObjDef := ⟨0xB0, 0x2, 0, 1, .u64, 8, .ro, 0, 0, .any, .none, false, 0⟩
/-- FLT-OVERFLOW-LATCH -/
def O.fltOverflowLatch : ObjDef := ⟨0xB0, 0x3, 0, 1, .b, 1, .ro, 0, 0, .any, .none, false, 0⟩
/-- FLT-ACK -/
def O.fltAck : ObjDef := ⟨0xB0, 0x4, 0, 1, .cmd, 1, .cm, 1, 0, .rng 0 1, .none, false, 0⟩
/-- FLT-STABLE -/
def O.fltStable : ObjDef := ⟨0xB0, 0x5, 0, 1, .u32, 4, .rw, 1, 10000, .rng 1000 1000000, .none, false, 0⟩
/-- FLT-RESTORE -/
def O.fltRestore : ObjDef := ⟨0xB0, 0x6, 0, 1, .cmd, 2, .cm, 1, 0, .special, .none, false, 0⟩
/-- FLT-REBUILD-RATE -/
def O.fltRebuildRate : ObjDef := ⟨0xB0, 0x7, 0, 1, .u16, 2, .rw, 1, 64, .rng 1 256, .none, false, 0⟩
/-- FLT-EVENTS-LOST -/
def O.fltEventsLost : ObjDef := ⟨0xB0, 0x8, 0, 1, .u64, 8, .ro, 0, 0, .any, .none, false, 0⟩
/-- FLT-PIN-MASK -/
def O.fltPinMask : ObjDef := ⟨0xB0, 0x9, 0, 1, .m32, 4, .rw, 1, 0, .special, .none, false, 0⟩
/-- FLT-QUEUE -/
def O.fltQueue : ObjDef := ⟨0xB0, 0x10, 0, 1, .tbl, 32, .ro, 0, 0, .any, .none, false, 256⟩
/-- FLT-LOG -/
def O.fltLog : ObjDef := ⟨0xB0, 0x11, 0, 1, .tbl, 32, .ro, 0, 0, .any, .none, false, 1024⟩
/-- FLT-BLK -/
def O.fltBlk : ObjDef := ⟨0xB0, 0x100, 0, 442, .u8, 1, .ro, 0, 4, .any, .none, false, 0⟩
/-- FLT-BLK-LEVEL -/
def O.fltBlkLevel : ObjDef := ⟨0xB0, 0x100, 1, 442, .e8, 1, .ro, 0, 0, .any, .none, false, 0⟩
/-- FLT-BLK-SINCE -/
def O.fltBlkSince : ObjDef := ⟨0xB0, 0x100, 2, 442, .t96, 12, .ro, 0, 0, .any, .none, false, 0⟩
/-- FLT-BLK-COUNT -/
def O.fltBlkCount : ObjDef := ⟨0xB0, 0x100, 3, 442, .u64, 8, .ro, 0, 0, .any, .none, false, 0⟩
/-- FLT-BLK-PENDING -/
def O.fltBlkPending : ObjDef := ⟨0xB0, 0x100, 4, 442, .b, 1, .ro, 0, 0, .any, .none, false, 0⟩
/-- FLT-STK -/
def O.fltStk : ObjDef := ⟨0xB0, 0x400, 0, 8, .u8, 1, .ro, 0, 2, .any, .none, false, 0⟩
/-- FLT-REBUILD-DONE -/
def O.fltRebuildDone : ObjDef := ⟨0xB0, 0x400, 1, 8, .u64, 8, .ro, 0, 0, .any, .none, false, 0⟩
/-- FLT-REBUILD-HOLDS -/
def O.fltRebuildHolds : ObjDef := ⟨0xB0, 0x400, 2, 8, .u64, 8, .ro, 0, 0, .any, .none, false, 0⟩
/-- FLT-BASIN-SERVER -/
def O.fltBasinServer : ObjDef := ⟨0xB0, 0x500, 0, 16, .u8, 1, .ro, 0, 0, .any, .none, false, 0⟩
/-- FLT-CH-STATE -/
def O.fltChState : ObjDef := ⟨0xB0, 0x600, 0, 256, .e8, 1, .ro, 0, 0, .any, .none, false, 0⟩

/-! Objects of spec/21_lifetime_trim.md R623. -/

/-- TRIM-STATE -/
def O.trimState : ObjDef := ⟨0xB8, 0x1, 0, 1, .e8, 1, .ro, 0, 0, .any, .none, false, 0⟩
/-- TRIM-DIGEST -/
def O.trimDigest : ObjDef := ⟨0xB8, 0x2, 0, 1, .os, 32, .ro, 0, 0, .any, .none, false, 0⟩
/-- TRIM-GENERATION -/
def O.trimGeneration : ObjDef := ⟨0xB8, 0x3, 0, 1, .u32, 4, .ro, 0, 0, .any, .none, false, 0⟩
/-- TRIM-WRITTEN -/
def O.trimWritten : ObjDef := ⟨0xB8, 0x4, 0, 1, .t96, 12, .ro, 0, 0, .any, .none, false, 0⟩
/-- TRIM-FACTORY-DIGEST -/
def O.trimFactoryDigest : ObjDef := ⟨0xB8, 0x5, 0, 1, .os, 32, .ro, 0, 0, .any, .none, false, 0⟩
/-- TRIM-GUARD -/
def O.trimGuard : ObjDef := ⟨0xB8, 0x6, 0, 1, .u8, 1, .rw, 2, 4, .rng 0 16, .none, false, 0⟩
/-- TRIM-MEASURE -/
def O.trimMeasure : ObjDef := ⟨0xB8, 0x7, 0, 1, .cmd, 2, .cm, 2, 0, .special, .none, false, 0⟩
/-- TRIM-COMMIT -/
def O.trimCommit : ObjDef := ⟨0xB8, 0x8, 0, 1, .cmd, 0, .cm, 2, 0, .any, .none, false, 0⟩
/-- TRIM-SET -/
def O.trimSet : ObjDef := ⟨0xB8, 0x10, 0, 1, .tbl, 7272, .ro, 0, 0, .any, .none, false, 1⟩
/-- TRIM-WORK -/
def O.trimWork : ObjDef := ⟨0xB8, 0x11, 0, 1, .tbl, 7272, .rw, 2, 0, .any, .none, false, 1⟩
/-- TRIM-TILE -/
def O.trimTile : ObjDef := ⟨0xB8, 0x12, 0, 1, .tbl, 16, .rw, 2, 0, .any, .none, false, 442⟩
/-- TRIM-DIE -/
def O.trimDie : ObjDef := ⟨0xB8, 0x13, 0, 1, .tbl, 8, .rw, 2, 0, .any, .none, false, 13⟩
/-- TRIM-FLOOR -/
def O.trimFloor : ObjDef := ⟨0xB8, 0x14, 0, 1, .tbl, 16, .ro, 0, 0, .any, .none, false, 442⟩
/-- ADT-COUNTERS -/
def O.adtCounters : ObjDef := ⟨0xB8, 0x100, 0, 1, .tbl, 8, .ro, 0, 0, .any, .none, false, 37⟩
/-- ADT-HIST-TEMP -/
def O.adtHistTemp : ObjDef := ⟨0xB8, 0x101, 0, 1, .tbl, 4, .ro, 0, 0, .any, .none, false, 525⟩
/-- ADT-HIST-VCORE -/
def O.adtHistVcore : ObjDef := ⟨0xB8, 0x102, 0, 1, .tbl, 4, .ro, 0, 0, .any, .none, false, 96⟩
/-- ADT-EVENTS -/
def O.adtEvents : ObjDef := ⟨0xB8, 0x103, 0, 1, .tbl, 32, .ro, 0, 0, .any, .none, false, 4096⟩
/-- ADT-INFO -/
def O.adtInfo : ObjDef := ⟨0xB8, 0x104, 0, 1, .u8, 1, .ro, 0, 4, .any, .none, false, 0⟩
/-- ADT-COMMITS -/
def O.adtCommits : ObjDef := ⟨0xB8, 0x104, 1, 1, .u64, 8, .ro, 0, 0, .any, .none, false, 0⟩
/-- ADT-LAST-COMMIT -/
def O.adtLastCommit : ObjDef := ⟨0xB8, 0x104, 2, 1, .t96, 12, .ro, 0, 0, .any, .none, false, 0⟩
/-- ADT-EVENT-NEXT -/
def O.adtEventNext : ObjDef := ⟨0xB8, 0x104, 3, 1, .u32, 4, .ro, 0, 0, .any, .none, false, 0⟩
/-- ADT-IMAGE-INVALID -/
def O.adtImageInvalid : ObjDef := ⟨0xB8, 0x104, 4, 1, .u64, 8, .ro, 0, 0, .any, .none, false, 0⟩

/-! Objects of spec/22_package_electrical.md R646. -/

/-- RAIL-EN -/
def O.railEn : ObjDef := ⟨0xC0, 0x20, 0, 1, .m32, 4, .ro, 0, 0, .any, .none, false, 0⟩
/-- STRAPS -/
def O.straps : ObjDef := ⟨0xC0, 0x21, 0, 1, .m32, 4, .ro, 0, 0, .any, .none, false, 0⟩
/-- DIE -/
def O.die : ObjDef := ⟨0xC0, 0x300, 0, 13, .u8, 1, .ro, 0, 3, .any, .none, false, 0⟩
/-- DIE-TEMP -/
def O.dieTemp : ObjDef := ⟨0xC0, 0x300, 1, 13, .s32, 4, .ro, 0, 0, .any, .none, false, 0⟩
/-- DIE-TEMP-PEAK -/
def O.dieTempPeak : ObjDef := ⟨0xC0, 0x300, 2, 13, .s32, 4, .ro, 0, 0, .any, .none, false, 0⟩
/-- DIE-TEMP-LIMIT -/
def O.dieTempLimit : ObjDef := ⟨0xC0, 0x300, 3, 13, .s32, 4, .ro, 0, 1680, .any, .none, false, 0⟩
/-- RAIL -/
def O.rail : ObjDef := ⟨0xC0, 0x400, 0, 12, .u8, 1, .ro, 0, 4, .any, .none, false, 0⟩
/-- RAIL-V -/
def O.railV : ObjDef := ⟨0xC0, 0x400, 1, 12, .u16, 2, .ro, 0, 0, .any, .none, false, 0⟩
/-- RAIL-I -/
def O.railI : ObjDef := ⟨0xC0, 0x400, 2, 12, .u32, 4, .ro, 0, 0, .any, .none, false, 0⟩
/-- RAIL-STATE -/
def O.railState : ObjDef := ⟨0xC0, 0x400, 3, 12, .e8, 1, .ro, 0, 0, .any, .none, false, 0⟩
/-- RAIL-OOR -/
def O.railOor : ObjDef := ⟨0xC0, 0x400, 4, 12, .u64, 8, .ro, 0, 0, .any, .none, false, 0⟩

/-- Objects of chapter 02, rows 0 on. -/
def dict02_0 : List ObjDef :=
  [O.paceTargetLit, O.paceTargetLean, O.avsLoopEn, O.vcoreMin, O.vcoreMax, O.avsInterval, O.avsHysteresis, O.marginSource, O.vcoreStart, O.corePace, O.corePaceWorst, O.coreVcoreRead, O.coreVcoreSet, O.coreAvsState, O.corePaceDeficit, O.tilePace, O.tilePaceEq, O.tilePaceSlowest, O.tileState, O.tileMargin]
/-- Objects of chapter 03, rows 0 on. -/
def dict03_0 : List ObjDef :=
  [O.modeReq, O.modeCur, O.modeTarget, O.modeReturn, O.modeEntered, O.kindleResult, O.quenchTarget, O.ebbLimit, O.ebbDrained, O.vcoreRetention, O.leanPark, O.leanParkLo, O.leanParkHi, O.leanMillHalf, O.resetBlock, O.resetDie, O.resetAssembly]
/-- Objects of chapter 04, rows 0 on. -/
def dict04_0 : List ObjDef :=
  [O.devOrderCode, O.devStepping, O.devSerial, O.devDictRev, O.lifecycle, O.objDir, O.fnDir, O.bundleStatus, O.bundleLastId, O.bundleResult, O.bundleFailRec, O.bundleSegsDone, O.bundleTime, O.pendingTotal]
/-- Objects of chapter 05, rows 0 on. -/
def dict05_0 : List ObjDef :=
  [O.clkUdpPort, O.clkFrameMax, O.inbandEn, O.inbandLock, O.inbandPorts, O.inbandPortsLo, O.inbandPortsHi, O.bootEpoch, O.mgt, O.mgtSpeed, O.mgtMac, O.mgtIpv4, O.mgtIpv4Plen, O.mgtGw4, O.mgtIpv6, O.mgtGw6, O.mgtLink, O.mgtFifoDrop, O.mgtDiscard, O.clkStats, O.clkFormatDrop, O.clkSessionDrop, O.clkAuthDrop, O.clkQueueDrop, O.clkServed, O.ses, O.sesEnable, O.sesKeySlot, O.sesPriv, O.sesPaths, O.sesPeer, O.sesConfid, O.sesSeqHigh, O.sesLast, O.noteLog, O.sub, O.subSession, O.subKinds, O.subSent, O.subDropped]
/-- Objects of chapter 05, rows 40 on. -/
def dict05_1 : List ObjDef :=
  [O.subRate, O.hp, O.hpSession, O.hpUdpPort, O.hpPort, O.hpDest, O.hpPuntRate, O.hpPuntPps, O.hpInjRate, O.hpInjRefused, O.hpTc, O.hpPuntSent, O.hpPuntDrop, O.hpInjSent]
/-- Objects of chapter 06, rows 0 on. -/
def dict06_0 : List ObjDef :=
  [O.fecDegSet, O.fecDegClr, O.fecDegSecs, O.pmSesUncorr, O.pg, O.pgMode, O.pgMedia, O.pgTxMap, O.pgRxMap, O.pgTxInvert, O.pgRxInvert, O.pgFlexe, O.flx, O.flxGroupNum, O.flxMembers, O.flxPhyNum, O.flxCalActive, O.flxCalUse, O.flxCaTimeout, O.flxSkew, O.flxCalA, O.flxCalB, O.flxClient, O.bp, O.bpEnable, O.bpLinkState, O.bpDownHold, O.bpUpHold, O.bpLastChange, O.bpFcMode, O.bpPfcClasses, O.bpXoff, O.bpXon, O.bpDefects, O.bpPauseQuanta, O.bpPauseRefresh, O.bpTxPaused, O.bpFlaps, O.bpAnRestarts, O.pmSec]
/-- Objects of chapter 06, rows 40 on. -/
def dict06_1 : List ObjDef :=
  [O.pmSecTime, O.pmSecCorrCw, O.pmSecUncorrCw, O.pmSecCorrSym, O.pmSecFcsErr, O.pmSecClass, O.pmBins]
/-- Objects of chapter 07, rows 0 on. -/
def dict07_0 : List ObjDef :=
  [O.flowSeed, O.spreadSeed, O.pcpTcMap, O.dscpTcMap, O.ppf, O.ppfOccupancy, O.ppfPeak, O.ppfDelayMark, O.ctxBusy, O.ctxPeak, O.gpfOccupancy, O.gpfShed, O.ppc, O.ppcShedAt, O.ppcAdmitted, O.ppcShed, O.ppcDelayed, O.kp, O.kpFields, O.kpGenSlot, O.kpSpread, O.kpSymmetric, O.kpFrag, O.pb, O.pbDepthAction, O.pbLenAction, O.pbLenSource, O.pbPadMax, O.pbPackets, O.pbSteps, O.pbTruncated, O.pbLenConflict, O.pbLenTrusted, O.pbPunted, O.pbStates, O.pbTrans, O.tenKeyProfile, O.lif, O.lifBinding, O.lifTcSource]
/-- Objects of chapter 07, rows 40 on. -/
def dict07_1 : List ObjDef :=
  [O.lifTcDefault]
/-- Objects of chapter 08, rows 0 on. -/
def dict08_0 : List ObjDef :=
  [O.rtTable, O.rtValid, O.tenDomain, O.exm, O.exmBase, O.exmSize, O.exmProfile, O.exmValid, O.ind, O.indBase, O.indSize, O.indRot, O.lifMap, O.lifMiss, O.tcam, O.exmMem, O.actCommon, O.indMem, O.actPrivate, O.lif58, O.lifTenant, O.lifRuleset, O.rch, O.bwPassMax, O.bwOccupancy, O.passes, O.bwFullDrop, O.bwPassLimit, O.genRestart, O.genDrop, O.backendNoFlow, O.rs, O.rsGen, O.rsFlow, O.rsRoute, O.rsRouteMiss, O.rsExact, O.rsTcamBase, O.rsTcamCount, O.rsTkSelect]
/-- Objects of chapter 08, rows 40 on. -/
def dict08_1 : List ObjDef :=
  [O.rsDefaultList, O.rsPasses]
/-- Objects of chapter 09, rows 0 on. -/
def dict09_0 : List ObjDef :=
  [O.flwSizeLog2, O.flwClear, O.flwGrow, O.flwState, O.flwClock, O.flwClockS, O.flwAgeIdle, O.flwSweepPeriod, O.flwWbAge, O.flwRelocMax, O.flwGrowRate, O.basinMap, O.bsn, O.bsnRecords, O.bsnSplit, O.eddyHits, O.eddyMisses, O.eddyEvictDirty, O.eddyWbAged, O.bsnCreated, O.bsnDeleted, O.bsnAgedIdle, O.bsnAgedAbs, O.bsnTableFull, O.bsnRelocations, O.bsnLinkFail, O.bsnNoBackend, O.bsnBackendUnpinned, O.bsnXlateSkipped, O.bsnEndpointInvalid, O.mtrProfile, O.epTable, O.flwClass, O.flwSlots, O.flwReq]
/-- Objects of chapter 10, rows 0 on. -/
def dict10_0 : List ObjDef :=
  [O.iftCreateMax, O.verdictWaitMax, O.lane, O.laneHandlesUsed, O.laneHandlesPeak, O.laneVerdictLate, O.ift, O.iftUsed, O.iftPeak, O.iftCreating, O.iftFullWaits, O.iftChainWaits, O.iftWayWaits, O.iftParks, O.crbRate, O.crbBurst, O.crbTokens, O.crbEffective, O.ageVoid, O.createJoined, O.refuseQuota, O.refuseBudget, O.refuseInflight, O.iftOrphans, O.refuseFlare, O.iftRecount, O.tenFlowQuota, O.tenFlowCount, O.tenRefused]
/-- Objects of chapter 11, rows 0 on. -/
def dict11_0 : List ObjDef :=
  [O.preemptMax, O.exportActiveSweeps, O.poolRecount, O.poolState, O.slu, O.sluReadyFlow, O.sluReadyAge, O.sluReadyExport, O.sluReadyMaint, O.sluReservedUsed, O.sluCtxBusy, O.sluDispatched, O.sluPreempted, O.sluRefused, O.sluPostWaits, O.pairNoteVoid, O.pairDeleteVoid, O.sweepStalls, O.sweepLag, O.millSteps, O.poolAllocs, O.poolReleases, O.poolExhaustedCnt, O.portFreeFault, O.exportRefused, O.epilogueRuns, O.schedList, O.millLists, O.evtEpilogue, O.millCount, O.trc, O.trcMode, O.trcKinds, O.trcWhat, O.trcTrigger, O.trcAfter, O.trcState, O.trcNext, O.trcLost, O.trcArm]
/-- Objects of chapter 11, rows 40 on. -/
def dict11_1 : List ObjDef :=
  [O.trace, O.poolCount]
/-- Objects of chapter 12, rows 0 on. -/
def dict12_0 : List ObjDef :=
  [O.hbmMapOrder, O.hbmPagePolicy, O.hbmBulkLimit, O.hbmIdleSr, O.hbmIdleSrAfter, O.hbmRetrainPeriod, O.hbmScrubPeriod, O.hbmCeNotify, O.hbmState, O.stk, O.stkState, O.stkPartner, O.stkTemp, O.stkRefreshX, O.stkCe, O.stkUe, O.stkRepaired, O.stkLostLines, O.stkRetrains, O.stkRetrainLast, O.stkScrubPass, O.pc, O.pcQueue, O.pcQueuePeak, O.pcQfullWaits, O.pcReads, O.pcWrites, O.pcRowHits, O.pcSrEntries, O.pcSrCancels, O.pcSrWaits, O.pcCe, O.pcUe]
/-- Objects of chapter 13, rows 0 on. -/
def dict13_0 : List ObjDef :=
  [O.hplRebuild, O.bufp, O.bufpCellSize, O.bufpCells, O.bufpFree, O.bufpFreeMin, O.bufpAllocs, O.bufpFallbackIn, O.bufpExhausted, O.bufpFreeFaults, O.bufpRot, O.bufr, O.bufrQuotaRefused, O.bufrOversize, O.bufQuota, O.bufOcc, O.bufOwner, O.hpl, O.hplSize, O.hplBuffers, O.hplFree, O.hplFreeMin, O.hplState, O.hplAllocs, O.hplExhausted, O.hplFreeFaults, O.hplFrozenFrees, O.hplStockWaits, O.hplRot, O.hrq, O.hrqLimit, O.hrqInuse, O.hrqQuotaRefused, O.hrqUnderflow]
/-- Objects of chapter 14, rows 0 on. -/
def dict14_0 : List ObjDef :=
  [O.voqLimit, O.ecnProfile, O.gntWindow, O.gntSize, O.voqDelayMark, O.mcReachMask, O.mcWindow, O.mcVoqLimit, O.voqr, O.voqReachLimit, O.voqReachOcc, O.voqEnqueued, O.voqRefusedLimit, O.voqRefusedDown, O.voqFlushed, O.voqDelayed, O.ecnMarked, O.voqDeqDrop, O.gntIssued, O.rxRefused, O.mcReceived, O.mcCopies, O.mcRefused, O.hold, O.holdOcc, O.holdPeak, O.holdAdmitted, O.holdFullDrop, O.holdAgeDrop, O.holdReleased, O.voqOcc, O.mcGroup, O.mcMember, O.ch, O.chOctets, O.chMsgs, O.chWaits]
/-- Objects of chapter 15, rows 0 on. -/
def dict15_0 : List ObjDef :=
  [O.esEqLimit, O.esEqOcc, O.lifQueue, O.lifQueueOcc, O.es, O.esStrictFrom, O.esClassWeight, O.esPshapeRate, O.esPshapeBurst, O.esShapeOverhead, O.esTokenReset, O.esGuard, O.esGateEn, O.esGateUse, O.esGateActive, O.esGateLand, O.esSent, O.esGateWaits, O.esGateDrop, O.esGateLate, O.esGateOverrun, O.esTtlDrop, O.esFlushed, O.gcl, O.gclBase, O.gclCycle, O.gclCount, O.gclOpenMax, O.gclEntries, O.polTable, O.rwTable]
/-- Objects of chapter 16, rows 0 on. -/
def dict16_0 : List ObjDef :=
  [O.tbFrc, O.tbTime, O.tbRate, O.tbAdjust, O.tbSet, O.tbSetAtPps, O.tbSteps, O.tbLastStep, O.tbRefSource, O.tbRefState, O.ppsInEdge, O.ppsInTime, O.ppsInFrc, O.ppsInCount, O.ppsInSpurious, O.ppsOutEn, O.ppsOutOffset, O.ppsOutWidth, O.ppsOutSkipped, O.tsTxqNext, O.tsTxqCount, O.tsTxqOverflow, O.tsLost, O.tsp, O.tsRxCorr, O.tsTxCorr, O.tsPeerDelay, O.tsTxStamped, O.tsTcCorrected, O.tsPtpMode]
/-- Objects of chapter 17, rows 0 on. -/
def dict17_0 : List ObjDef :=
  [O.cntStickyClear, O.bwWindow, O.flPen, O.flOdid, O.flTemplatePeriod, O.flFlushAge, O.flFlowTemplate, O.flLoss, O.flLossNobuf, O.flLossRefused, O.flLossPoison, O.flLossDiscard, O.portCnt, O.rsnCnt, O.rsnBasin, O.bw, O.gec, O.gecSelect, O.gecThreshold, O.gecValues, O.flCol, O.flColEn, O.flColPath, O.flColDest, O.flColTc, O.flColDaddr, O.flColSaddr, O.flColDport, O.flColSport, O.flColKinds, O.flColRate, O.flColMtu, O.flColQueue, O.flColRecords, O.flColMessages, O.flColLostRate, O.flColLostPath, O.flColLostDown, O.flTemplate]
/-- Objects of chapter 18, rows 0 on. -/
def dict18_0 : List ObjDef :=
  [O.lcSince, O.lcShip, O.devCerts, O.devIdFpr, O.keystoreState, O.trngState, O.trngRetest, O.trngFails, O.ownerRootNext, O.ownerRootFpr, O.ownerClaim, O.ownerTransfer, O.ownerReturn, O.secFloorOwner, O.secFloorVendor, O.vendorBundleOk, O.vendorRootFpr, O.configMeasure, O.slot, O.slotClass, O.slotState, O.slotPurpose, O.slotKcv, O.slotNonce, O.slotErase, O.slotLoaded, O.cipherReq]
/-- Objects of chapter 19, rows 0 on. -/
def dict19_0 : List ObjDef :=
  [O.dbgObserveEn, O.dbgOwnerConsent, O.dbgLevel, O.dbgExpiry, O.dbgWickSession, O.wickRootFpr, O.wickNonce, O.wickBuf, O.wickApply, O.wickRevoke, O.dbgLevelReq, O.dbgTapRefused, O.dbgLog]
/-- Objects of chapter 20, rows 0 on. -/
def dict20_0 : List ObjDef :=
  [O.fltQueueUsed, O.fltOverflow, O.fltOverflowLatch, O.fltAck, O.fltStable, O.fltRestore, O.fltRebuildRate, O.fltEventsLost, O.fltPinMask, O.fltQueue, O.fltLog, O.fltBlk, O.fltBlkLevel, O.fltBlkSince, O.fltBlkCount, O.fltBlkPending, O.fltStk, O.fltRebuildDone, O.fltRebuildHolds, O.fltBasinServer, O.fltChState]
/-- Objects of chapter 21, rows 0 on. -/
def dict21_0 : List ObjDef :=
  [O.trimState, O.trimDigest, O.trimGeneration, O.trimWritten, O.trimFactoryDigest, O.trimGuard, O.trimMeasure, O.trimCommit, O.trimSet, O.trimWork, O.trimTile, O.trimDie, O.trimFloor, O.adtCounters, O.adtHistTemp, O.adtHistVcore, O.adtEvents, O.adtInfo, O.adtCommits, O.adtLastCommit, O.adtEventNext, O.adtImageInvalid]
/-- Objects of chapter 22, rows 0 on. -/
def dict22_0 : List ObjDef :=
  [O.railEn, O.straps, O.die, O.dieTemp, O.dieTempPeak, O.dieTempLimit, O.rail, O.railV, O.railI, O.railState, O.railOor]

/-- Every object of the device that is no function control record (R106). -/
def dict : List ObjDef :=
  dict02_0 ++ dict03_0 ++ dict04_0 ++ dict05_0 ++ dict05_1 ++ dict06_0 ++ dict06_1 ++ dict07_0 ++ dict07_1 ++ dict08_0 ++ dict08_1 ++ dict09_0 ++ dict10_0 ++ dict11_0 ++ dict11_1 ++ dict12_0 ++ dict13_0 ++ dict14_0 ++ dict15_0 ++ dict16_0 ++ dict17_0 ++ dict18_0 ++ dict19_0 ++ dict20_0 ++ dict21_0 ++ dict22_0

end Sys2Proof.Machine
end

