-- ==== Sys2Proof/Machine/Ops.lean ====
section
/-! DEFINITION. The named operations over the state's data: sparse maps, octet strings, object values, table entries,
counters, free values, and the readings of time. Everything above this file reads and writes registers through them. -/

namespace Sys2Proof.Machine

/-! Sparse maps: a key that is not listed reads as the default, and no listed entry equals it. -/

/-- The value at a key. -/
def mget {α : Type} (d : α) (m : Map α) (k : Nat) : α :=
  match m with
  | [] => d
  | (k', v) :: r => if k' = k then v else mget d r k

/-- The map without a key. -/
def mdrop {α : Type} (m : Map α) (k : Nat) : Map α :=
  match m with
  | [] => []
  | (k', v) :: r => if k' = k then mdrop r k else (k', v) :: mdrop r k

/-- The map with an entry put before the first larger key. -/
def mput {α : Type} (m : Map α) (k : Nat) (v : α) : Map α :=
  match m with
  | [] => [(k, v)]
  | (k', v') :: r => if k < k' then (k, v) :: (k', v') :: r else (k', v') :: mput r k v

/-- The map with a key's value replaced, in canonical form. -/
def mset {α : Type} [DecidableEq α] (d : α) (m : Map α) (k : Nat) (v : α) : Map α :=
  if v = d then mdrop m k else mput (mdrop m k) k v

/-- The canonical form: keys rise strictly. -/
def Map.sorted {α : Type} : Map α → Bool
  | [] => true
  | [_] => true
  | (k, _) :: (k', v') :: r => decide (k < k') && Map.sorted ((k', v') :: r)

/-- The canonical form against a default: keys rise strictly and no entry equals what an unlisted key reads as. -/
def Map.wf {α : Type} [DecidableEq α] (d : α) (m : Map α) : Bool :=
  Map.sorted m && m.all fun p => !decide (p.2 = d)

/-! Octet strings. -/

/-- The number an octet string spells, most significant octet first (R5). -/
def ofOctets (l : List Byte) : Nat := l.foldl (fun a b => a * 256 + b.toNat) 0

/-- The n octets of a number, most significant first. -/
def octets (n v : Nat) : List Byte :=
  match n with
  | 0 => []
  | k + 1 => BitVec.ofNat 8 (v >>> (8 * k)) :: octets k v

/-- Octets off to off + n − 1 of a value of size octets, as a number. -/
def fld (size v off n : Nat) : Nat := (v >>> (8 * (size - off - n))) % 2 ^ (8 * n)

/-- The value of size octets with octets off to off + n − 1 replaced by x. -/
def setFld (size v off n x : Nat) : Nat :=
  let sh := 8 * (size - off - n)
  v - (fld size v off n) <<< sh + (x % 2 ^ (8 * n)) <<< sh

/-- A record from its fields, each a length in octets and a value. -/
def pack (l : List (Nat × Nat)) : Nat := l.foldl (fun a p => a * 2 ^ (8 * p.1) + p.2 % 2 ^ (8 * p.1)) 0

/-- Octets off to off + n − 1 of a string, missing octets as zero, as a number. -/
def oct (l : List Byte) (off n : Nat) : Nat :=
  let s := (l.drop off).take n
  ofOctets s * 256 ^ (n - s.length)

/-- The octets of an ASCII string. -/
def ascii (s : String) : List Byte := s.toList.map fun ch => BitVec.ofNat 8 ch.toNat

/-- Bit k of a number. -/
def bit (v k : Nat) : Bool := v.testBit k

/-- Bits [hi:lo] of a number (R3). -/
def bits (v hi lo : Nat) : Nat := (v >>> lo) % 2 ^ (hi + 1 - lo)

/-- A number as a two's complement integer of w bits. -/
def sgn (w v : Nat) : Int := if v % 2 ^ w < 2 ^ (w - 1) then (v % 2 ^ w : Int) else (v % 2 ^ w : Int) - 2 ^ w

/-- An integer as its two's complement number of w bits. -/
def unsgn (w : Nat) (v : Int) : Nat := (v % (2 ^ w : Int)).toNat

/-- A Boolean as an object value (Table 0.4). -/
def ofB (b : Bool) : Nat := if b then 1 else 0

/-! Object values. -/

/-- Identifier of an instance (R7, R105). -/
def ObjDef.key (o : ObjDef) (i : Nat := 0) : Nat := (o.area <<< 24) + ((o.item + i) <<< 8) + o.sub

/-- Default of an instance, where it differs between instances (Tables 7.8, 20.8, 22.8) or devices (R145). -/
def ObjDef.dfltAt (o : ObjDef) (i : Nat) : Nat :=
  if o.area = 0x50 ∧ o.item = 0x200 ∧ o.sub = 1 then (if i % 8 = 7 then 4096 else 2048 + 256 * (i % 8))
  else if o.area = 0xB0 ∧ o.item = 0x500 then i
  else if o.area = 0xC0 ∧ o.item = 0x300 ∧ o.sub = 3 ∧ i = 12 then 1760
  else if o.area = 0x20 ∧ o.item = 0x10 ∧ o.sub = 2 then 0x020000000000 + Config.devSerial.toNat % 2 ^ 39 * 2 + i
  else o.dflt

/-- The stored value of an object. -/
def Mach.rd (m : Mach) (o : ObjDef) (i : Nat := 0) : Nat := mget (o.dfltAt i) m.com.objs (o.key i)

/-- A Boolean object. -/
def Mach.rdB (m : Mach) (o : ObjDef) (i : Nat := 0) : Bool := m.rd o i != 0

/-- The machine with an object's value replaced. -/
def Mach.wr (m : Mach) (o : ObjDef) (i v : Nat) : Mach :=
  { m with com.objs := mset (o.dfltAt i) m.com.objs (o.key i) v }

/-- A counter raised by n; it wraps at its width. -/
def Mach.bump (m : Mach) (o : ObjDef) (i : Nat := 0) (n : Nat := 1) : Mach :=
  m.wr o i ((m.rd o i + n) % 2 ^ (8 * o.len))

/-- A gauge lowered by n, not below 0. -/
def Mach.lower (m : Mach) (o : ObjDef) (i : Nat := 0) (n : Nat := 1) : Mach := m.wr o i (m.rd o i - n)

/-- A peak object raised to v if v is larger. -/
def Mach.peak (m : Mach) (o : ObjDef) (i v : Nat) : Mach := if m.rd o i < v then m.wr o i v else m

/-! Table entries. -/

/-- Key of an entry. -/
def ObjDef.ekey (o : ObjDef) (i idx : Nat) : Nat := o.key i * 2 ^ 32 + idx

/-- What an entry that nothing has written reads as: the KINDLE content of the table (R277, R316, R243, R363, R484 and the
tables' own rows), zero elsewhere. -/
def ObjDef.entDflt (o : ObjDef) (i idx : Nat) : Nat :=
  match o.area, o.item with
  | 0x58, 0x800 => if idx % 8 = 0 then pack [(1, 3), (1, idx / 8), (2, 0)] else 0
  | 0x60, 0x100 => idx % 16
  | 0x60, 0x5000 => if idx = 0 then pack [(1, 0xC0), (1, 0), (2, 0), (3, 0xFFFFFF), (1, 0), (4, 0), (4, 0), (4, 10000), (4, 30000), (4, 2000), (4, 0)] else 0
  | 0x70, 0x400 =>
    if idx % 16 = 15 then 3 else if idx % 8 = 3 then 2 else if idx % 16 = 5 ∨ idx % 16 = 9 ∨ idx % 16 = 13 then 1 else 0
  | 0x70, 0x600 => 0xFF
  | 0x80, 0x300 => 2048
  | 0x88, 0x1 => 2048
  | 0x88, 0x3 => 256
  | 0x90, 0x1 => 1024
  | 0x90, 0x3 => pack [(1, 1), (3, 0), (4, 0), (4, 256), (4, 0)]
  | 0x98, 0x6000 => pack [(4, 0x6FFF), (4, 0)]
  | 0x90, item => if item = 0x1000 ∧ idx = 0 then 0xFF000000000F4240 else 0 * i
  | _, _ => 0

/-- An entry as stored. -/
def Mach.ent (m : Mach) (o : ObjDef) (i idx : Nat) : Nat := mget (o.entDflt i idx) m.com.tabs (o.ekey i idx)

/-- The machine with an entry replaced. -/
def Mach.setEnt (m : Mach) (o : ObjDef) (i idx v : Nat) : Mach :=
  { m with com.tabs := mset (o.entDflt i idx) m.com.tabs (o.ekey i idx) v }

/-- A field of an entry. -/
def Mach.entF (m : Mach) (o : ObjDef) (i idx off n : Nat) : Nat := fld o.len (m.ent o i idx) off n

/-- A counter inside an entry raised by n. -/
def Mach.bumpF (m : Mach) (o : ObjDef) (i idx off n : Nat) (by_ : Nat := 1) : Mach :=
  m.setEnt o i idx (setFld o.len (m.ent o i idx) off n (m.entF o i idx off n + by_))

/-! Status, output and free values. -/

/-- The machine with the latest status replaced. -/
def Mach.st (m : Mach) (r : Status) : Mach := { m with com.status := r }

/-- The machine with the value of the latest read replaced. -/
def Mach.val (m : Mach) (v : Nat) : Mach := { m with com.value := v }

/-- Whether the boundary cells drive the output balls, or hold them at high impedance: EXTEST, CLAMP and HIGHZ (R570, R571). -/
def Mach.cellsDrive (m : Mach) : Bool := m.dbg.tap = 3 || m.dbg.tap = 4 || m.dbg.tap = 5

/-- Whether what is sent leaves by a ball with a boundary cell: AVSBus (R571). -/
def Out.onBall : Out → Bool
  | .avs _ _ => true
  | _ => false

/-- The machine after it has sent something; what would leave by a ball that the boundary cells drive does not (R571). -/
def Mach.emit (m : Mach) (x : Out) : Mach := if x.onBall && m.cellsDrive then m else { m with com.out := m.com.out ++ [x] }

/-- The next free value of w bits (log entry 2). -/
def Mach.freeVal (m : Mach) (w : Nat) : Nat := (Config.freeValue m.com.free).toNat % 2 ^ w

/-- The machine after a free value has been taken. -/
def Mach.freed (m : Mach) : Mach := { m with com.free := m.com.free + 1 }

/-! Time (R497, R498). -/

/-- FRC in ns. -/
def Mach.ns (m : Mach) : Nat := m.com.frc / 65536

/-- Adjusted time at an FRC, both in 2^-16 ns. -/
def Mach.adjAt (m : Mach) (frc : Nat) : Int :=
  m.tb.adj0 + ((frc : Int) - m.tb.frc0) + ((frc : Int) - m.tb.frc0) * m.tb.rate / 2 ^ 48

/-- Adjusted time now, in 2^-16 ns. -/
def Mach.adj (m : Mach) : Int := m.adjAt m.com.frc

/-- The ns of FRC by which adjusted time has reached q, under the anchor and rate in force (R498). -/
def Mach.nsWhen (m : Mach) (q : Int) : Nat :=
  let r : Int := 2 ^ 48 + m.tb.rate
  ((m.tb.frc0 + ((q - m.tb.adj0) * 2 ^ 48 + (r - 1)) / r).toNat + 65535) / 65536

/-- A duration: a difference of FRC under the rate in force, to the nearest 2^-16 ns (R500). -/
def Mach.rated (m : Mach) (d : Int) : Int := d + (d * m.tb.rate + 2 ^ 47) / 2 ^ 48

/-- A time in 2^-16 ns as a T96 (Table 0.4), nanoseconds truncated. -/
def t96Of (q : Int) : Nat :=
  let n := (q / 65536).toNat
  (n / 1000000000) * 2 ^ 32 + n % 1000000000

/-- A T96 as 2^-16 ns. -/
def ofT96 (t : Nat) : Int := ((t / 2 ^ 32) * 1000000000 + t % 2 ^ 32 : Nat) * 65536

/-- Adjusted time now as a T96. -/
def Mach.now (m : Mach) : Nat := t96Of m.adj

/-- A duration between two FRC values in 2^-16 ns, rated (R500). -/
def Mach.dur (m : Mach) (a b : Nat) : Int := ((b : Int) - a) + ((b : Int) - a) * m.tb.rate / 2 ^ 48

/-- The clock that flow idle timers run on: FRC less the time spent suspended (R94, R307), in ns. -/
def Mach.flowNs (m : Mach) : Nat :=
  (match m.trn.suspendAt with | some t => t | none => m.ns) - m.trn.suspended

/-- FRC has reached a time in ns: an event that happens at that time finds the clock there, or later (log entry 5). -/
def Mach.reach (m : Mach) (ns : Nat) : Mach := { m with com.frc := max m.com.frc (ns * 65536) }

/-! Functions (Table 4.2). -/

/-- The kinds of Table 4.2. -/
inductive FnKind where
  | egress | voq | chset | basin | sluice | ruleset | binding | pgroup
deriving DecidableEq, Repr

/-- Kind and instance of a function number; none where it is reserved. -/
def fnKind (f : Nat) : Option (FnKind × Nat) :=
  if f < 0x400 then some (.egress, f)
  else if f < 0x408 then some (.voq, f - 0x400)
  else if f < 0x414 then some (.chset, f - 0x408)
  else if f < 0x420 then none
  else if f < 0x430 then some (.basin, f - 0x420)
  else if f < 0x440 then some (.sluice, f - 0x430)
  else if f < 0x640 then some (.ruleset, f - 0x440)
  else if f < 0x740 then some (.binding, f - 0x640)
  else if f < 0x7C0 then some (.pgroup, f - 0x740)
  else none

/-- Number of instance n of a kind. -/
def fnNum (k : FnKind) (n : Nat) : Nat :=
  match k with
  | .egress => n
  | .voq => 0x400 + n
  | .chset => 0x408 + n
  | .basin => 0x420 + n
  | .sluice => 0x430 + n
  | .ruleset => 0x440 + n
  | .binding => 0x640 + n
  | .pgroup => 0x740 + n

/-- Start order of a kind (Table 3.7). -/
def FnKind.order : FnKind → Nat
  | .egress => 1
  | .voq => 2
  | .chset => 2
  | .basin => 3
  | .sluice => 4
  | .ruleset => 5
  | .binding => 6
  | .pgroup => 7

/-- Area and item of a function's control record (Table 4.2). -/
def fnItem (f : Nat) : Nat × Nat :=
  match fnKind f with
  | some (.egress, n) => (0x90, 0xF000 + n)
  | some (.voq, n) => (0x88, 0xF000 + n)
  | some (.chset, n) => (0x88, 0xF010 + n)
  | some (.basin, n) => (0x60, 0xF000 + n)
  | some (.sluice, n) => (0x70, 0xF000 + n)
  | some (.ruleset, n) => (0x58, 0xF000 + n)
  | some (.binding, n) => (0x50, 0xF000 + n)
  | some (.pgroup, n) => (0x40, 0xF000 + n)
  | none => (0, 0)

/-- The function whose control record sits at an area and item. -/
def fnOfItem (area item : Nat) : Option Nat :=
  let n := item - 0xF000
  match area with
  | 0x90 => if n < 1024 then some n else none
  | 0x88 => if n < 8 then some (0x400 + n) else if 0x10 ≤ n ∧ n < 0x1C then some (0x408 + (n - 0x10)) else none
  | 0x60 => if n < 16 then some (0x420 + n) else none
  | 0x70 => if n < 16 then some (0x430 + n) else none
  | 0x58 => if n < 512 then some (0x440 + n) else none
  | 0x50 => if n < 256 then some (0x640 + n) else none
  | 0x40 => if n < 128 then some (0x740 + n) else none
  | _ => none

/-- Every function number in rising order (R115). -/
def allFns : List Nat := List.range 0x414 ++ (List.range 0x3A0).map (· + 0x420)

/-- A function's control record. -/
def Mach.fn (m : Mach) (f : Nat) : FnRec := mget {} m.com.fns f

/-- The machine with a function's record replaced. -/
def Mach.setFn (m : Mach) (f : Nat) (r : FnRec) : Mach := { m with com.fns := mset {} m.com.fns f r }

/-- The state of a function. -/
def Mach.fst (m : Mach) (f : Nat) : FnState := (m.fn f).state

/-- Whether instance n of a kind is RUNNING. -/
def Mach.running (m : Mach) (k : FnKind) (n : Nat) : Bool := decide (m.fst (fnNum k n) = .running)

/-- One more packet or event has met a function that is not RUNNING (R125). -/
def Mach.met (m : Mach) (f : Nat) : Mach :=
  let r := m.fn f
  m.setFn f { r with met := (r.met + 1) % 2 ^ 64 }

/-- The functions that a sparse state holds in other than their default record, in rising order. -/
def Mach.liveFns (m : Mach) : List Nat := m.com.fns.map (·.1)

/-! Blocks and tiles (Tables 1.3, 2.2). A block is named by its first tile. -/

/-- Kinds of block. -/
inductive BlkKind where
  | reach | basin | mill | pgroup | hbm | chset | lantern
deriving DecidableEq, Repr

/-- Kind and instance of the block a tile belongs to. -/
def tileBlk (t : Nat) : BlkKind × Nat :=
  if t < 192 then (.reach, t / 24)
  else if t < 256 then (.basin, (t - 192) / 4)
  else if t < 288 then (.mill, (t - 256) / 2)
  else if t < 416 then (.pgroup, t - 288)
  else if t < 424 then (.hbm, t - 416)
  else if t < 436 then (.chset, t - 424)
  else (.lantern, t - 436)

/-- First tile of a block. -/
def blkTile (k : BlkKind) (n : Nat) : Nat :=
  match k with
  | .reach => 24 * n
  | .basin => 192 + 4 * n
  | .mill => 256 + 2 * n
  | .pgroup => 288 + n
  | .hbm => 416 + n
  | .chset => 424 + n
  | .lantern => 436 + n

/-- First tile of the block of a tile. -/
def blkOf (t : Nat) : Nat := blkTile (tileBlk t).1 (tileBlk t).2

/-- Index of a tile in its block. -/
def tileK (t : Nat) : Nat := t - blkOf t

/-- Ordered pair of core dies of a channel set (Table 2.2). -/
def chsetDies (n : Nat) : Nat × Nat :=
  let i := n / 3
  let j := n % 3
  (i, if j < i then j else j + 1)

/-- Channel set of an ordered pair of core dies. -/
def chsetOf (i j : Nat) : Nat := 3 * i + (if j < i then j else j - 1)

/-- The core die a tile takes its supply from (Table 2.2); none for shore and Lantern tiles. -/
def tileDie (t : Nat) : Option Nat :=
  match tileBlk t with
  | (.reach, n) => some (n / 2)
  | (.basin, n) => some (n / 4)
  | (.mill, n) => some (n / 4)
  | (.hbm, n) => some (n / 2)
  | (.chset, n) => some (n / 3)
  | _ => none

/-- The functions of a block, in rising number. -/
def blkFns (k : BlkKind) (n : Nat) : List Nat :=
  match k with
  | .reach => (List.range 128).map (fun j => fnNum .egress (128 * n + j)) ++ [fnNum .voq n]
      ++ (List.range 64).map (fun s => fnNum .ruleset (64 * n + s)) ++ (List.range 32).map (fun j => fnNum .binding (32 * n + j))
  | .basin => [fnNum .basin n]
  | .mill => [fnNum .sluice n]
  | .pgroup => [fnNum .pgroup n]
  | .hbm => []
  | .chset => [fnNum .chset n]
  | .lantern => []

/-- The block of a function, as kind and instance (Tables 1.3, 4.2). -/
def fnBlk (f : Nat) : Option (BlkKind × Nat) :=
  match fnKind f with
  | some (.egress, n) => some (.reach, n / 128)
  | some (.voq, n) => some (.reach, n)
  | some (.chset, n) => some (.chset, n)
  | some (.basin, n) => some (.basin, n)
  | some (.sluice, n) => some (.mill, n)
  | some (.ruleset, n) => some (.reach, n / 64)
  | some (.binding, n) => some (.reach, n / 32)
  | some (.pgroup, n) => some (.pgroup, n)
  | none => none

/-- Blocks of a core die (R596): two reaches, four basins, four mill groups, two HBM controllers. -/
def dieBlks (d : Nat) : List Nat :=
  [blkTile .reach (2 * d), blkTile .reach (2 * d + 1)] ++ (List.range 4).map (fun k => blkTile .basin (4 * d + k))
    ++ (List.range 4).map (fun k => blkTile .mill (4 * d + k)) ++ [blkTile .hbm (2 * d), blkTile .hbm (2 * d + 1)]

/-- Containment state of the block of a tile. -/
def Mach.cont (m : Mach) (t : Nat) : Contain := mget {} m.flt.blk (blkOf t)

/-- Whether a block is isolated: level 2 or more, its tiles off (Table 20.2). -/
def Mach.isolated (m : Mach) (k : BlkKind) (n : Nat) : Bool := decide (2 ≤ (m.cont (blkTile k n)).level)

/-- Whether any block is under containment (R586). -/
def Mach.anyContained (m : Mach) : Bool := m.flt.blk.any fun p => decide (p.2.level ≠ 0)

/-! Modes. -/

/-- Code of a mode (Table 3.1). -/
def Mode.code : Mode → Nat
  | .dark => 0 | .pilot => 1 | .kindle => 2 | .trim => 3 | .primed => 4 | .lit => 5
  | .lean => 6 | .ebb => 7 | .banked => 8 | .guard => 9 | .probe => 10 | .quench => 11

/-- Code of a function state (Table 4.3). -/
def FnState.code : FnState → Nat
  | .stopped => 0 | .starting => 1 | .running => 2 | .stopping => 3 | .faulted => 4

/-- Code of a status (Table 5.6). -/
def Status.code : Status → Nat
  | .ok => 0x00 | .deferred => 0x01 | .unknownObject => 0x10 | .type => 0x11 | .range => 0x12 | .access => 0x13
  | .privilege => 0x14 | .functionRunning => 0x15 | .functionFaulted => 0x16 | .mode => 0x17 | .auth => 0x20
  | .replay => 0x21 | .session => 0x22 | .busy => 0x30 | .batchTooLarge => 0x31 | .batchAborted => 0x32
  | .signature => 0x40 | .lifecycle => 0x41

/-- Code of a lifecycle state (Table 18.1). -/
def Life.code : Life → Nat
  | .test => 0 | .shipped => 1 | .owned => 2 | .returned => 3 | .spent => 4

/-- Lantern areas (R68). -/
def lanternArea (a : Nat) : Bool := a = 0x10 ∨ a = 0x20 ∨ a = 0x30 ∨ a = 0x48 ∨ a = 0xA0 ∨ a = 0xA8 ∨ a = 0xB0 ∨ a = 0xB8 ∨ a = 0xC0

/-- LIT, LEAN and GUARD: the modes that forward (Table 3.1). -/
def Mode.forwards : Mode → Bool
  | .lit | .lean | .guard => true
  | _ => false

/-- Whether the block carries out commands: not while the snuffer has stopped, when the state is undefined (R604), and in DARK, where
nothing has power, only the Lantern rail's return (R74). -/
def State.alive (s : State) : Bool := !s.m.flt.dead && decide (s.mc.mode ≠ .dark)

/-- A command's effect on the mode and the machine. -/
def State.actMode (s : State) (f : ModeCtl → Mach → ModeCtl × Mach) : Host.Outcome State Fault Refusal :=
  if s.m.flt.dead then .fault .snufferDead
  else if s.mc.mode = .dark then .next s
  else
    let r := f s.mc s.m
    .next { s with
      mc := r.1
      m := r.2 }

end Sys2Proof.Machine
end

