-- ==== Sys2Proof/Machine/Flags.lean ====
section
/-! DEFINITION. What the device raises: notifications (R171 to R173), lifetime counters and events (R619, R621), the debug level
(R568, R582), fault
records and the overflow latch (R584, R588), and the pins READY and FAULT_N (R82, R604). -/

namespace Sys2Proof.Machine

/-! Lifetime counters and events. -/

/-- An Adtieb counter raised by n (Table 21.4). -/
def Mach.adt (m : Mach) (i : Nat) (n : Nat := 1) : Mach :=
  { m with trm.counters := mset 0 m.trm.counters i (mget 0 m.trm.counters i + n) }

/-- An Adtieb event (R621): at most 100 in one second of FRC, each written at once; later ones are counted. -/
def Mach.adtEvent (m : Mach) (c : ModeCtl) (kind arg : Nat) : Mach :=
  let sec := m.ns / 1000000000
  let n := if m.trm.evSec = sec then m.trm.evN else 0
  if 100 ≤ n then m.adt 36
  else
    let q := m.trm.evSeq
    let e := pack [(12, m.now), (4, mget 0 m.trm.counters 0), (1, kind), (1, c.mode.code), (1, m.sec.life.code), (1, 0), (8, arg), (4, q)]
    let m := m.setEnt O.adtEvents 0 (q % 4096) e
    let m := m.wr O.adtEventNext 0 ((q + 1) % 4096)
    { m with trm.evSeq := (q + 1) % 2 ^ 32, trm.evSec := sec, trm.evN := n + 1 }

/-! The debug level (R568, R569, R576, R582). -/

/-- The base level (R569). -/
def Mach.dbgBase (m : Mach) : Nat :=
  match m.sec.life with
  | .test => 1
  | .returned => 1
  | .owned => m.rd O.dbgObserveEn
  | _ => 0

/-- The level that the lifecycle, the wick and the owner's consent give together (R576, R577). -/
def Mach.dbgGives (m : Mach) : Nat :=
  match m.dbg.wick, m.dbg.testLevel, m.sec.life with
  | some w, _, .owned => max m.dbgBase (min w.level (m.rd O.dbgOwnerConsent))
  | some w, _, _ => max m.dbgBase w.level
  | none, some l, .test => l
  | none, _, _ => m.dbgBase

/-- Sessions at P3 become P2 (R580). -/
def Mach.dropP3 (m : Mach) : Mach :=
  (List.range 64).foldl (fun m s => if m.rd O.sesPriv s = 3 then m.wr O.sesPriv s 2 else m) m

/-- Whether the mode and level give access to a TAP instruction (Tables 19.2 and 19.6). -/
def Mach.tapOk (m : Mach) (c : ModeCtl) (op : Nat) : Bool :=
  match op with
  | 0xFF => true
  | 0x01 => true
  | 0x02 => c.mode ≠ .quench
  | 0x03 => c.mode = .pilot || c.mode = .probe
  | 0x04 => c.mode = .pilot || c.mode = .probe
  | 0x05 => c.mode = .pilot || c.mode = .probe
  | 0x10 => 1 ≤ m.dbg.level && c.mode ≠ .quench
  | 0x11 => 2 ≤ m.dbg.level && c.mode = .probe
  | 0x20 => 4 ≤ m.dbg.level && c.mode = .probe
  | _ => false

/-- The current TAP instruction is BYPASS once a change of mode or level no longer allows it (Table 19.6, log entry 128). -/
def Mach.tapFit (m : Mach) (c : ModeCtl) : Mach := if m.tapOk c m.dbg.tap then m else { m with dbg.tap := 0xFF }

/-- Bring DBG-LEVEL to what is in force, logging the change first (R582, Table 19.7), counting it for life, and taking back P3 and
margin overrides that the level no longer covers (R579, R580). -/
def Mach.dbgSettle (m : Mach) (c : ModeCtl) (cause ses ticket : Nat) : Mach :=
  let old := m.dbg.level
  let new := m.dbgGives
  if new = old then m
  else
    let n := m.dbg.logNext % 64
    let m := m.setEnt O.dbgLog 0 n (pack [(12, m.now), (1, old), (1, new), (1, cause), (1, ses), (8, ticket), (8, 0)])
    let m := (m.adt 7).adtEvent c 5 (pack [(1, old), (1, new), (6, ticket)])
    let scan := decide (old = 4) && decide (c.mode = .probe)
    let m :=
      { m with
        dbg.logNext := (n + 1) % 64
        dbg.level := new
        dbg.scanEnd := m.dbg.scanEnd || scan
        dbg.tap := if scan then 0x01 else m.dbg.tap }
    let m := (if new < 3 then m.dropP3 else m).tapFit c
    if new < 2 then { m with pwr.override := [] } else m

/-- The wick ends and the level falls to base (R576). -/
def Mach.wickEnd (m : Mach) (c : ModeCtl) (cause ses : Nat) : Mach :=
  let t := match m.dbg.wick with | some w => w.ticket | none => 0
  let m := { m with dbg.wick := none }
  ((m.wr O.dbgExpiry 0 0).wr O.dbgWickSession 0 0xFF).dbgSettle c cause ses t

/-! Device counters (R151). -/

/-- Advance BOOT-EPOCH, restarting every device counter (R151, R559) and any wick (R576). -/
def Mach.nextEpoch (m : Mach) (c : ModeCtl) : Mach :=
  let m := m.bump O.bootEpoch
  let slots : Map Slot := m.sec.slots.map fun (k, s) => (k, { s with nonce := 0 })
  let m := { m with clk.devCtr := [], clk.puntCount := 0, sec.slots := slots }
  if m.dbg.wick.isSome then m.wickEnd c 3 0xFF else m

/-- BOOT-EPOCH and counter for the next frame sent on a session; the counter is 48 bits wide (Table 5.3). -/
def Mach.ivOf (m : Mach) (ses : Nat) : Nat × Nat := (m.rd O.bootEpoch, mget 0 m.clk.devCtr ses)

/-- The machine after a frame has been sent on a session. -/
def Mach.ivUsed (m : Mach) (c : ModeCtl) (ses : Nat) : Mach :=
  let n := mget 0 m.clk.devCtr ses + 1
  if n < 2 ^ 48 then { m with clk.devCtr := mset 0 m.clk.devCtr ses n } else m.nextEpoch c

/-- SES-ENABLE in force: session 0 is enabled before provisioning and after a return, nothing is in SPENT (R537, R538, R648). -/
def Mach.sesEn (m : Mach) (ses : Nat) : Bool :=
  match m.sec.life with
  | .spent => false
  | .owned => m.rdB O.sesEnable ses
  | _ => ses = 0 || m.rdB O.sesEnable ses

/-- SES-KEY-SLOT in force (R538, R648). -/
def Mach.sesSlot (m : Mach) (ses : Nat) : Nat :=
  if ses = 0 ∧ m.sec.life = .shipped then 64
  else if ses = 0 ∧ (m.sec.life = .test ∨ m.sec.life = .returned) then 68
  else m.rd O.sesKeySlot ses

/-- SES-PRIV in force (R538, R648). -/
def Mach.sesP (m : Mach) (ses : Nat) : Nat := if ses = 0 ∧ m.sec.life ≠ .owned then 2 else m.rd O.sesPriv ses

/-- SES-PATHS in force (R538). -/
def Mach.sesPath (m : Mach) (ses : Nat) : Nat := if ses = 0 ∧ m.sec.life = .shipped then 3 else m.rd O.sesPaths ses

/-- A key slot. -/
def Mach.slot (m : Mach) (k : Nat) : Slot := mget {} m.sec.slots k

/-- Whether a session exists (R156). -/
def Mach.sesOn (m : Mach) (ses : Nat) : Bool := decide (ses < 64) && m.sesEn ses

/-- Whether punt is on (R175). -/
def Mach.puntOn (m : Mach) : Bool := m.sesOn (m.rd O.hpSession) && decide (m.rd O.hpDest ≠ 0)

/-! Frames protected (R151). -/

/-- The key of a session: its slot's, or the working copy that QUENCH keeps for its requester (R542). -/
def Mach.sesKey (m : Mach) (ses : Nat) : Nat :=
  if m.trn.quenchKey && decide (ses = m.trn.quenchSession) then m.trn.quenchCopy else (m.slot (m.sesSlot ses)).key

/-- An IV of Table 5.3 for a device frame of a session. -/
def clIv (kind ses epoch ctr : Nat) : Nat := pack [(1, kind), (1, ses), (4, epoch), (6, ctr)]

/-- An IV of Table 5.3 that a SEQUENCE makes: a host's request (0), an inject (2) and a punt (3). -/
def seqIv (kind ses seq : Nat) : Nat := pack [(1, kind), (1, ses), (2, 0), (8, seq)]

/-- Whether a tag verifies under a session's key and an IV (R151, R175). DESIGN CHOICE: a frame opens exactly where its sender sealed it under that key
and IV, chance agreement of tags disregarded (log entry 3). -/
def Mach.opens (m : Mach) (ses iv : Nat) (tag : Option Seal) : Bool := decide (tag = some ⟨m.sesKey ses, iv⟩)

/-- The header of a device frame (Table 5.2). -/
def clHead (op ses flags seq count st len iv : Nat) : List Byte :=
  octets 32 (pack [(1, 1), (1, op), (1, ses), (1, flags), (8, seq), (2, count), (1, st), (1, 0), (2, len), (2, 0), (12, iv)])

/-- A body under AES-256-GCM with its header as additional data (R151): what is sent, and the tag. Without CONF the body is authenticated only. -/
def sealed (key iv : Nat) (conf : Bool) (head body : List Byte) : List Byte × Nat :=
  if conf then
    let r := Config.gcmSeal key iv head body
    (r.2, r.1.toNat)
  else (body, (Config.gcmSeal key iv (head ++ body) []).1.toNat)

/-- The tag of a NOTIFY frame: one record, without CONF (log entry 140). -/
def Mach.noteTag (m : Mach) (ses rec_ epoch ctr : Nat) : Nat :=
  let iv := clIv 1 ses epoch ctr
  (sealed (m.sesKey ses) iv false (clHead 6 ses 1 (Config.notifySequence epoch ctr).toNat 1 0 32 iv) (octets 32 rec_)).2

/-- A device frame of n octets that leaves in band is counted by its port at the end of the command (R149, R520, log entry 8). -/
def Mach.inbandOut (m : Mach) (path dest n : Nat) : Mach :=
  if path = 2 then { m with clk.inbandTx := m.clk.inbandTx ++ [(dest, n)] } else m

/-- A NOTIFY frame sent for a subscription (R172): counted, and its IV counter used. -/
def Mach.noteSend (m : Mach) (c : ModeCtl) (slot rec_ : Nat) : Mach :=
  let ses := m.rd O.subSession slot
  let s := mget {} m.clk.subs slot
  let (e, n) := m.ivOf ses
  (((m.bump O.subSent slot).emit (.note ses s.path s.dest rec_ e n (m.noteTag ses rec_ e n))).inbandOut s.path s.dest 80).ivUsed c ses

/-! Notifications. -/

/-- Tokens of a subscription after refill (R172), in units of 10^-9. -/
def Mach.subTok (m : Mach) (slot : Nat) : Nat :=
  let r := m.rd O.subRate slot
  let s := mget {} m.clk.subs slot
  min (r * 1000000000) (s.tok + r * (m.ns - s.at_))

/-- One notification record offered to one subscription (R172). -/
def Mach.noteTo (m : Mach) (c : ModeCtl) (rec_ kind slot : Nat) : Mach :=
  let ses := m.rd O.subSession slot
  if ses = 0xFF ∨ !bit (m.rd O.subKinds slot) kind then m
  else
    let s := mget {} m.clk.subs slot
    let t := m.subTok slot
    if 1000000000 ≤ t then
      ({ m with clk.subs := mset {} m.clk.subs slot { s with tok := t - 1000000000, at_ := m.ns } }).noteSend c slot rec_
    else
      let m := m.bump O.subDropped slot
      let s' : SubRt :=
        { s with
          tok := t, at_ := m.ns, missed := s.missed + 1, lastMiss := rec_ >>> 224,
          missAt := if s.missed = 0 ∧ s.missAt = 0 then m.ns else s.missAt }
      { m with clk.subs := mset {} m.clk.subs slot s' }

/-- Raise a notification (R172, Table 5.8): number it, log it and offer it to every subscription. -/
def Mach.note (m : Mach) (c : ModeCtl) (kind : Nat) (fn obj code arg : Nat) : Mach :=
  let n := m.clk.noteNum
  let rec_ := pack [(4, n), (2, kind), (2, fn), (12, m.now), (4, obj), (1, code), (1, c.mode.code), (6, arg)]
  let m := (m.setEnt O.noteLog 0 (n % 4096) rec_)
  let m := { m with clk.noteNum := (n + 1) % 2 ^ 32 }
  (List.range 16).foldl (fun m s => m.noteTo c rec_ kind s) m

/-! Faults. -/

/-- Key of a core die's own containment record; blocks use their first tile. -/
def dieKey (d : Nat) : Nat := 1000 + d

/-- The containment record a fault record concerns: its block, or the core die in DETAIL for tile 0xFFFF (R584). -/
def fltKey (tile detail : Nat) : Nat := if tile = 0xFFFF then dieKey (detail % 4) else blkOf tile

/-- Initial level of a class (Table 20.1); RESCAN carries its own. -/
def clsLevel (cls : Nat) : Nat :=
  match cls with
  | 0x03 => 3 | 0x04 => 1 | 0x05 => 1 | 0x06 => 1 | 0x07 => 2 | 0x0E => 2 | _ => 0

/-- ARG of a FAULT notification (R605). -/
def fltArg (tile cls level event seq : Nat) : Nat := pack [(2, tile), (1, cls), (1, level), (1, event), (1, seq)]

/-- A containment record replaced. -/
def Mach.setBlk (m : Mach) (k : Nat) (b : Contain) : Mach := { m with flt.blk := mset {} m.flt.blk k b }

/-- Put a record at the end of the queue: appended while fewer than 255 wait; at 255 the 256th slot becomes an OVERFLOW
record and overflow is latched; else the record is discarded and counted. A record that is not appended leaves its block
marked pending when its class has a level (R588, log entry 20). -/
def Mach.fltPut (m : Mach) (c : ModeCtl) (r : FltRec) : Mach :=
  if m.flt.queue.length < 255 then { m with flt.queue := m.flt.queue ++ [r] }
  else
    let key := fltKey r.tile r.detail
    let b := mget {} m.flt.blk key
    let m := if r.init = 0 then m else m.setBlk key { b with pendLevel := max b.pendLevel r.init }
    let m := m.bump O.fltOverflow
    if m.flt.queue.any (·.overflow) then
      { m with flt.queue := m.flt.queue.map fun q => if q.overflow then { q with arg := q.arg + 1 } else q }
    else
      let o : FltRec := ⟨m.flt.seq, m.now, 0xFFFF, 0, 0, 1, false, false, true, 0⟩
      let m := { m with flt.queue := m.flt.queue ++ [o], flt.seq := (m.flt.seq + 1) % 2 ^ 32 }
      let m := ((m.wr O.fltOverflowLatch 0 1).adt 27).adtEvent c 7 0
      m.note c 5 0xFFFF 0 0 (fltArg 0xFFFF 0 0 3 o.seq)

/-- Whether a HANDSHAKE or INTERPOSER fault concerns the interface with a block that is contained, or was until 1 ms ago (R587). -/
def Mach.fltSuppressed (m : Mach) (f : FaultRep) : Bool :=
  match f.against with
  | none => false
  | some t =>
    let b := m.cont t
    (f.cls = 4 ∨ f.cls = 6) && decide (blkOf t ≠ blkOf f.tile) &&
      (decide (b.level ≠ 0) || (match b.endedAt with | some e => decide (m.ns - e ≤ 1000000) | none => false))

/-- A detected fault enters the snuffer queue (R584); undervoltage, thermal and training faults are counted for life (Table 21.4). -/
def Mach.fault (m : Mach) (c : ModeCtl) (f : FaultRep) : Mach :=
  let m := if f.cls = 0x03 then m.adt 28 else if f.cls = 0x0D then m.adt 29 else if f.cls = 0x07 then m.adt 33 else m
  let r : FltRec := ⟨m.flt.seq, m.now, f.tile, f.cls, f.detail, f.arg, m.fltSuppressed f, false, false, clsLevel f.cls⟩
  ({ m with flt.seq := (m.flt.seq + 1) % 2 ^ 32 }).fltPut c r

/-- A fault of a class at a tile, with its DETAIL. -/
def Mach.faultAt (m : Mach) (c : ModeCtl) (tile cls detail : Nat) : Mach :=
  m.fault c { tile := tile, cls := cls, detail := detail, arg := 0, against := none }

/-! Pins. -/

/-- FAULT_N: low while a block is at level 1 or more, overflow is latched, the pin latch is set or the snuffer has stopped
(R604); released high in DARK (R640). -/
def Mach.faultN (m : Mach) (c : ModeCtl) : Bool :=
  c.mode = .dark || !(m.anyContained || m.rdB O.fltOverflowLatch || m.flt.pinLatch || m.flt.dead)

/-- READY: high in DARK with no Lantern rail, low while start-up is held, high in every mode but QUENCH (R82, R635, R640). -/
def Mach.ready (m : Mach) (c : ModeCtl) : Bool := !m.pwr.held && decide (c.mode ≠ .quench)

/-- THERMTRIP_N (R641). -/
def Mach.thermtripN (m : Mach) : Bool := !m.pwr.tripped

/-- The level of an output ball with a boundary cell (R571), numbered as the cells are: its functional value, the cell's while EXTEST or CLAMP is the current
instruction, none (high impedance) under HIGHZ. -/
def Mach.ball (m : Mach) (k : Nat) (functional : Bool) : Option Bool :=
  match m.dbg.tap with
  | 3 => some (bit m.dbg.cells k)
  | 4 => some (bit m.dbg.cells k)
  | 5 => none
  | _ => some functional

/-- FAULT_N, READY and THERMTRIP_N as they stand at their balls. -/
def Mach.balls (m : Mach) (c : ModeCtl) : List (Option Bool) := [m.ball 0 (m.faultN c), m.ball 1 (m.ready c), m.ball 2 m.thermtripN]

end Sys2Proof.Machine
end

