-- ==== Sys2Proof/Machine/Operands.lean ====
section
/-! DEFINITION. How a request names an object and what makes a written value acceptable: identifiers (R105, R106), owners,
and checks 7 to 15 of Table 5.6 as every write of one object meets them. -/

namespace Sys2Proof.Machine

/-- What an identifier names: an object's instance, a subindex of a table's window (Table 4.7), or a subindex of a function
control record (Table 4.3). -/
inductive Tgt where
  | obj (o : ObjDef) (i : Nat)
  | win (o : ObjDef) (i sub : Nat)
  | fn (f sub : Nat)
deriving DecidableEq, Repr

/-- Who asks: the session that counts as holder (0xFE the bundle engine), its privilege, the session whose own tables and windows it uses, and
whether functions count as STOPPED (R166). -/
structure Req where
  ses : Nat
  priv : Nat
  win : Nat := 0
  staged : Bool := false
deriving DecidableEq, Repr

/-- Whether two definitions are one object. -/
def ObjDef.is (o p : ObjDef) : Bool := o.area == p.area && o.item == p.item && o.sub == p.sub

/-- Find an object by its place. -/
def findObj (l : List ObjDef) (area item sub : Nat) : Option ObjDef :=
  match l with
  | [] => none
  | o :: r => if o.area = area ∧ o.sub = sub ∧ o.item ≤ item ∧ item < o.item + o.count then some o else findObj r area item sub

/-- What an identifier names; none where R106 refuses it. -/
def target (id : Nat) : Option Tgt :=
  let area := id >>> 24
  let item := (id >>> 8) % 65536
  let sub := id % 256
  if 0xF000 ≤ item then
    match fnOfItem area item with
    | some f => if sub ≤ 11 then some (.fn f sub) else none
    | none => none
  else
    match findObj dict area item sub with
    | some o => if o.ty = .tbl then some (.win o (item - o.item) 0) else some (.obj o (item - o.item))
    | none =>
      match findObj dict area item 0 with
      | some o => if o.ty = .tbl ∧ sub ≤ 6 then some (.win o (item - o.item) sub) else none
      | none => none

/-- Whether a breakout port is a member of a FlexE group (R190). -/
def Mach.flexMember (m : Mach) (b : Nat) : Bool := m.rdB O.pgFlexe (b / 8) && bit (m.rd O.flxMembers (b / 8)) (b % 8)

/-- Calendar slots of a FlexE group (R193). -/
def Mach.flexSlots (m : Mach) (g : Nat) : Nat :=
  ((List.range 8).filter fun k => bit (m.rd O.flxMembers g) k).length * (if m.rd O.pgMode g = 3 then 40 else 20)

/-- The table of a calendar. -/
def calTable (a : Nat) : ObjDef := if a = 0 then O.flxCalA else O.flxCalB

/-- The slots of a group's calendar in use that name a client (R193). -/
def Mach.clientSlots (m : Mach) (g k : Nat) : List Nat :=
  (List.range (m.flexSlots g)).filter fun s => decide (m.ent (calTable (m.rd O.flxCalActive g)) g s = k)

/-- Breakout port of a logical interface (R243): 8n + PORT of its LIF-MAP entry; 8n for a FlexE client, which is one that the calendar in use names or
whose entry names a member of the group (log entry 137). -/
def Mach.lifPort (m : Mach) (l : Nat) : Nat :=
  let n := l / 64
  let b := 8 * n + m.entF O.lifMap n (l % 64) 1 1 % 8
  if m.flexMember b || (m.rdB O.pgFlexe n && !(m.clientSlots n (l % 64)).isEmpty) then 8 * n else b

/-- The rule sets of a reach whose ternary region holds an entry (R258). -/
def Mach.regionOwners (m : Mach) (r idx : Nat) : List Nat :=
  (List.range 64).filter fun s =>
    decide (m.rd O.rsTcamBase (64 * r + s) ≤ idx ∧ idx < m.rd O.rsTcamBase (64 * r + s) + m.rd O.rsTcamCount (64 * r + s))

/-- The functions that own an instance (or, for a table, its entry idx). -/
def Mach.owners (m : Mach) (o : ObjDef) (i idx : Nat) : List Nat :=
  match o.own with
  | .none => []
  | .fn b d => [b + i / d]
  | .basins => (List.range 16).map (fnNum .basin)
  | .basinsSluices => (List.range 16).map (fnNum .basin) ++ (List.range 16).map (fnNum .sluice)
  | .exact => ((List.range 64).filter fun s => decide (m.rd O.rsExact (64 * (i / 16) + s) = i % 16)).map fun s => fnNum .ruleset (64 * (i / 16) + s)
  | .tcam => (m.regionOwners i idx).map fun s => fnNum .ruleset (64 * i + s)
  | .lifQueue => [fnNum .egress (m.lifPort (idx / 8))]

/-- Whether the area is one the mode lets be reached (R68, Table 3.1): Lantern areas only in PILOT, KINDLE, TRIM and BANKED, and area 30
only in QUENCH; in KINDLE and QUENCH nothing but MODE-REQ is written. The copied counters of area 98 are read in BANKED (R518). -/
def areaOpen (mode : Mode) (area item : Nat) (write : Bool) : Bool :=
  match mode with
  | .dark => false
  | .quench => area = 0x30 && !write
  | .kindle => lanternArea area && (!write || (area = 0x30 && item = 1))
  | .banked => lanternArea area || (!write && area = 0x98 && (item = 0x1000 || item = 0x2000 || item = 0x2800 || item = 0x4100))
  | .pilot | .trim => lanternArea area
  | _ => true

/-- The mode by whose row of Table 3.1 an operation is judged: QUENCH from its acceptance on (R542). -/
def ModeCtl.judged (c : ModeCtl) : Mode := if c.trans = some (.stops .quench) then .quench else c.mode

/-- Flow and endpoint records are refused from acceptance of a BANKED request (R96, R324). -/
def recRefused (c : ModeCtl) (o : ObjDef) : Bool :=
  (o.is O.flwSlots || o.is O.flwReq || o.is O.epTable) && (c.trans = some .drain || c.trans = some (.stops .banked) || c.mode = .banked)

/-- A command or write that the present mode does not allow, beyond R68 (check 8): RESET-ASSEMBLY (Table 3.12), the trim
objects (R613 to R615), TB-SET-AT-PPS (Table 16.4), and, from acceptance of a BANKED request, flow and endpoint records (R96).
FLW-CLEAR and POOL-RECOUNT ask nothing of the mode. -/
def Mach.modeRefuses (m : Mach) (c : ModeCtl) (o : ObjDef) : Bool :=
  (o.is O.resetAssembly && !(c.mode = .primed || c.mode = .guard || c.mode = .probe)) ||
  ((o.is O.trimWork || o.is O.trimTile || o.is O.trimDie || o.is O.trimMeasure || o.is O.trimCommit) && c.mode != .trim) ||
  (o.is O.tbSetAtPps && m.rd O.ppsInEdge = 0) ||
  recRefused c o

/-- Encoding of a value (check 11): its length, and 0 or 1 for a Boolean (Table 0.4). -/
def ObjDef.typeOk (o : ObjDef) (val : List Byte) : Bool :=
  decide (val.length = o.len) && (decide (o.ty ≠ .b) || decide (ofOctets val ≤ 1))

/-- A power of two. -/
def isPow2 (v : Nat) : Bool := v != 0 && v &&& (v - 1) = 0

/-- A destination word whose kind, value and reserved bits are legal (Table 8.3). -/
def destOk (w : Nat) : Bool :=
  let v := w % 2 ^ 28
  match w >>> 28 with
  | 0 => v = 0
  | 1 => true
  | 2 => v < 64
  | 3 => v = 0
  | 4 => v < 65536
  | 5 => v < 2 ^ 24
  | _ => false

/-- Whether a general counter's selection is legal (R522, Table 17.4): an event of the source's block kind, LEVEL only on a condition, and
ARG in range; MODE OFF with no event selects nothing. -/
def gecOk (v : Nat) : Bool :=
  let ev := bits v 31 24
  let mode := bits v 23 16
  let arg := bits v 15 0
  let src := bits v 47 32
  let pulse := ev = 0x05 || ev = 0x12 || ev = 0x13 || ev = 0x22 || ev = 0x32 || ev = 0x42 || ev = 0x61
  let argOk :=
    match (tileBlk src).1, ev with
    | .reach, 0x01 => arg < 8
    | .reach, 0x02 | .reach, 0x03 | .reach, 0x04 => arg = 0
    | .reach, 0x05 => arg < 256
    | .reach, 0x06 => true
    | .basin, 0x10 | .basin, 0x11 | .basin, 0x12 | .basin, 0x13 => arg = 0
    | .mill, 0x20 | .mill, 0x21 | .mill, 0x22 => arg = 0
    | .hbm, 0x30 | .hbm, 0x31 => arg < 64
    | .hbm, 0x32 => arg = 0
    | .pgroup, 0x40 | .pgroup, 0x41 | .pgroup, 0x42 => arg < 8
    | .chset, 0x50 => arg < 16
    | .lantern, 0x60 | .lantern, 0x61 => arg = 0
    | _, _ => false
  decide (v >>> 48 = 0) && decide (mode ≤ 2) && (decide (v % 2 ^ 32 = 0) || (decide (src < 442) && argOk && !(mode = 2 && pulse)))

/-- Ranges that depend on more than the value: the rules in the meaning column of each object's table. Table 5.12 states no range for HP-SESSION:
DESIGN CHOICE, it names a session or none, and 64 to 254 draw RANGE (log entry 143). -/
def Mach.specialOk (m : Mach) (o : ObjDef) (i v : Nat) : Bool :=
  if o.is O.vcoreMin then v ≤ m.rd O.vcoreMax
  else if o.is O.vcoreMax then m.rd O.vcoreMin ≤ v
  else if o.is O.sesKeySlot then v = 0xFF ∨ (v < 64 ∧ (mget {} m.sec.slots v).purpose = 0)
  else if o.is O.sesPriv then v ≤ 2 ∨ (3 ≤ m.dbg.level ∧ m.rd O.dbgWickSession = i)
  else if o.is O.hpSession then v < 64 ∨ v = 0xFF
  else if o.is O.fecDegSet then m.rd O.fecDegClr < v
  else if o.is O.fecDegClr then v < m.rd O.fecDegSet
  else if o.is O.bpXoff then m.rd O.bpXon i < v
  else if o.is O.bpXon then v < m.rd O.bpXoff i
  else if o.is O.flxPhyNum then (octets 8 v).all fun x => decide (1 ≤ x.toNat ∧ x.toNat ≤ 254)
  else if o.is O.bpPauseQuanta then m.rd O.bpPauseRefresh i ≤ v
  else if o.is O.bpPauseRefresh then v ≤ m.rd O.bpPauseQuanta i
  else if o.is O.ppcShedAt then
    (i % 8 = 0 ∨ m.rd O.ppcShedAt (i - 1) ≤ v) ∧ (i % 8 = 7 ∨ v ≤ m.rd O.ppcShedAt (i + 1))
  else if o.is O.resetDie then v ≤ 3 ∨ (16 ≤ v ∧ v ≤ 23)
  else if o.is O.exmBase then v % 4 = 0
  else if o.is O.exmSize then isPow2 v ∧ 4 ≤ v ∧ v ≤ 262144
  else if o.is O.indBase then v < 1048576
  else if o.is O.indSize then isPow2 v ∧ v ≤ 65536
  else if o.is O.rsRouteMiss then destOk v
  else if o.is O.rsExact then v ≤ 15 ∨ v = 0xFF
  else if o.is O.hbmScrubPeriod then v = 0 ∨ (3600 ≤ v ∧ v ≤ 604800)
  else if o.is O.fltPinMask then v &&& 0x1FFFF = v
  else if o.is O.trimMeasure then v ≤ 441 ∨ v = 0xFFFF
  else if o.is O.tsPtpMode then v ≤ 3
  else if o.is O.kpFields then v < 256 ∧ v / 64 ≠ 3
  else if o.is O.kpSpread then v < 256 ∧ v / 64 ≠ 3
  else if o.is O.trcKinds then v &&& 0x7FE = v
  else if o.is O.trcWhat then v &&& 0xFF = v
  else if o.is O.gecSelect then gecOk v
  else if o.is O.flColDest then v >>> 28 = 1 ∨ v = 0
  else if o.is O.flColKinds then v &&& 0x1F = v
  else true

/-- Whether a write gives a T96: an object of that type, or the argument of TB-SET and TB-SET-AT-PPS (Table 16.4). -/
def ObjDef.takesT96 (o : ObjDef) : Bool := o.ty = .t96 || o.is O.tbSet || o.is O.tbSetAtPps

/-- Range of a value (check 12). A T96 whose nanoseconds pass 999,999,999 is out of range (Table 0.4). -/
def Mach.rangeOk (m : Mach) (o : ObjDef) (i v : Nat) : Bool :=
  (match o.chk with
   | .any => true
   | .special => true
   | .rng lo hi => decide (lo ≤ v ∧ v ≤ hi)
   | .srng lo hi => decide (lo ≤ sgn (8 * o.len) v ∧ sgn (8 * o.len) v ≤ hi)
   | .mask k => decide (v &&& k = v)) &&
  (!o.takesT96 || decide (v % 2 ^ 32 ≤ 999999999)) && m.specialOk o i v

/-- Checks 13 to 15 over the owning functions: held by another, then (for RS) faulted, then not STOPPED (R12, R123). -/
def Mach.ownerCheck (m : Mach) (rq : Req) (fs : List Nat) (rs : Bool) : Option Status :=
  if rq.staged then none
  else if fs.any fun f => (m.fn f).holder != 0xFF && (m.fn f).holder != rq.ses then some .busy
  else if rs && fs.any fun f => decide (m.fst f = .faulted) then some .functionFaulted
  else if rs && fs.any fun f => decide (m.fst f ≠ .stopped) then some .functionRunning
  else none

/-- Calendars and gate lists (R194, R491): BUSY while a switch to another is pending, FUNCTION-RUNNING for the one in use unless
the function is STOPPED. -/
def Mach.useCheck (m : Mach) (rq : Req) (o : ObjDef) (i : Nat) : Option Status :=
  if rq.staged then none
  else if o.is O.flxCalA ∨ o.is O.flxCalB then
    if (mget none m.com.pend (O.flxCalUse.key i)).isSome then some .busy
    else if m.fst (fnNum .pgroup i) ≠ .stopped ∧ m.rd O.flxCalActive i = (if o.is O.flxCalA then 0 else 1) then some .functionRunning else none
  else if o.is O.gclBase ∨ o.is O.gclCycle ∨ o.is O.gclCount ∨ o.is O.gclEntries then
    if (mget none m.com.pend (O.esGateUse.key (i / 2))).isSome then some .busy
    else if m.fst (fnNum .egress (i / 2)) ≠ .stopped ∧ m.rd O.esGateActive (i / 2) = i % 2 then some .functionRunning else none
  else none

/-- Checks 13 to 15 for a write to an object's instance, or to an entry of a table. -/
def Mach.holdCheck (m : Mach) (rq : Req) (o : ObjDef) (i idx : Nat) : Option Status :=
  match m.useCheck rq o i with
  | some r => some r
  | none => m.ownerCheck rq (if o.acc = .rs ∨ o.acc = .rl then m.owners o i idx else []) (o.acc = .rs)

/-- Checks 8 to 15 of Table 5.6 for a write to an object's instance; none when all pass. -/
def Mach.writeCheck (m : Mach) (c : ModeCtl) (rq : Req) (o : ObjDef) (i : Nat) (val : List Byte) : Option Status :=
  if !areaOpen c.judged o.area o.item true || m.modeRefuses c o then some .mode
  else if rq.priv < o.priv then some .privilege
  else if o.acc = .ro then some .access
  else if o.is O.coreVcoreSet && m.rdB O.avsLoopEn then some .access
  else if !o.typeOk val then some .type
  else if !o.is O.modeReq && !m.rangeOk o i (ofOctets val) then some .range
  else m.holdCheck rq o i 0

/-- Checks 8 to 11 for a read of an object's instance. -/
def readCheck (c : ModeCtl) (rq : Req) (o : ObjDef) : Option Status :=
  if !areaOpen c.judged o.area o.item false then some .mode
  else if rq.priv < o.priv then some .privilege
  else if o.acc = .wo then some .access
  else none

/-- The request of a session that writes one object outside a batch. -/
def Mach.reqOf (m : Mach) (ses : Nat) : Req := { ses := ses, priv := m.sesP ses, win := ses }

/-- A write of one object by a session (R163): the first failing check decides, and with none failing the effect is applied.
A session that does not exist draws SESSION and has no effect; a value wider than its type has the wrong length. -/
def Mach.guarded (m : Mach) (c : ModeCtl) (ses : Nat) (o : ObjDef) (i v : Nat) (eff : Mach → Mach) : Mach :=
  if !m.sesOn ses then m.st .session
  else
    match m.writeCheck c (m.reqOf ses) o i (octets (if v < 2 ^ (8 * o.len) then o.len else o.len + 1) v) with
    | some r => m.st r
    | none => eff m

/-! RL values (R111 to R114). -/

/-- The pending value of an object, if any. -/
def Mach.pendOf (m : Mach) (o : ObjDef) (i : Nat := 0) : Option Nat := mget none m.com.pend (o.key i)

/-- The machine with an object's pending value replaced. -/
def Mach.setPend (m : Mach) (o : ObjDef) (i : Nat) (v : Option Nat) : Mach :=
  { m with com.pend := mset none m.com.pend (o.key i) v }

/-- The pending value of a table entry, if any. -/
def Mach.pendEnt (m : Mach) (o : ObjDef) (i idx : Nat) : Option Nat := mget none m.com.pend (o.ekey i idx)

/-- The machine with an entry's pending value replaced. -/
def Mach.setPendEnt (m : Mach) (o : ObjDef) (i idx : Nat) (v : Option Nat) : Mach :=
  { m with com.pend := mset none m.com.pend (o.ekey i idx) v }

/-- The check of a value at its landing point (R113): its range, and for a port burst that it be at least the rate times 64 ns (R484). -/
def Mach.landOk (m : Mach) (o : ObjDef) (i v : Nat) : Bool :=
  m.rangeOk o i v && (!o.is O.esPshapeBurst || m.rd O.esPshapeRate i * 8 ≤ v * 1024000)

/-- A pending value reaches its landing point (R113): checked again against the values in force, then put in force, or
discarded with a WRITE-DISCARDED notification. -/
def Mach.land (m : Mach) (c : ModeCtl) (o : ObjDef) (i : Nat) : Mach :=
  match m.pendOf o i with
  | none => m
  | some v =>
    let m := m.setPend o i none
    if m.landOk o i v then m.wr o i v else m.note c 2 0xFFFF (o.key i) Status.range.code 0

/-- A write to an RL object (R111, R114): it lands at once, with the landing check in the reply, while its owning function is
STOPPED; otherwise it is pending, replacing an earlier pending value. -/
def Mach.writeRl (m : Mach) (o : ObjDef) (i v : Nat) : Mach :=
  match m.owners o i 0 with
  | f :: _ =>
    if m.fst f = .stopped then (if m.landOk o i v then (m.wr o i v).st .ok else m.st .range)
    else (m.setPend o i (some v)).st .deferred
  | [] => (m.setPend o i (some v)).st .deferred

/-- RL values pending for a function (FN-PENDING). -/
def Mach.fnPending (m : Mach) (f : Nat) : Nat :=
  (m.com.pend.filter fun p =>
    if p.1 < 2 ^ 32 then
      (match target p.1 with
       | some (.obj o i) => (m.owners o i 0).contains f
       | _ => false)
    else
      (match target (p.1 / 2 ^ 32) with
       | some (.win o i _) => (m.owners o i (p.1 % 2 ^ 32)).contains f
       | _ => false)).length

end Sys2Proof.Machine
end

