-- ==== Sys2Proof/Machine/Trim.lean ====
section
/-! DEFINITION. The trim set and the Adtieb record (spec 21). -/

namespace Sys2Proof.Machine

/-! The trim set. -/

/-- A tile record of an image, 16 octets (Table 21.2). -/
def TrimImg.tile (g : TrimImg) (t : Nat) : Nat :=
  match mget none g.tiles t with
  | some v => v
  | none => if g.safe then (Config.safeTile t).toNat else (Config.factoryTile t).toNat

/-- A die record of an image, 8 octets (Table 21.3); the safe image has VCORE-START 800 for the core dies and no offsets (R613). -/
def TrimImg.die (g : TrimImg) (i : Nat) : Nat :=
  match mget none g.dies i with
  | some v => v
  | none => if g.safe then (if 8 ≤ i ∧ i ≤ 11 then pack [(2, 800), (6, 0)] else 0) else (Config.factoryDie i).toNat

/-- Octets 64 to 7,239 of an image, the part the content digest covers (R609). -/
def TrimImg.content (g : TrimImg) : List Byte :=
  (List.range 442).flatMap (fun t => octets 16 (g.tile t)) ++ (List.range 13).flatMap (fun i => octets 8 (g.die i))

/-- The header of an image (Table 21.1). -/
def TrimImg.header (g : TrimImg) : List Byte :=
  octets 4 0x5654524D ++ octets 2 1 ++ octets 2 7272 ++ octets 8 Config.devSerial.toNat ++ octets 1 0xA1 ++ octets 1 g.origin
    ++ octets 2 0 ++ octets 4 g.generation ++ octets 12 g.written ++ octets 28 0

/-- DIGEST of an image (Table 21.1). -/
def TrimImg.digest (g : TrimImg) : Nat := (Config.sha3 (g.header ++ g.content)).toNat

/-- The content digest of an image (R609). -/
def TrimImg.contentDigest (g : TrimImg) : Nat := (Config.sha3 g.content).toNat

/-- An image as its 7,272 octets. -/
def TrimImg.octets (g : TrimImg) : List Byte := g.header ++ g.content ++ Machine.octets 32 g.digest

/-- TRIM-FACTORY-DIGEST (R615). -/
def factoryDigest : Nat := ({} : TrimImg).contentDigest

/-- TRIM-STATE (R611, R615): 4 while a commit runs, 2 where no set was ever written, 3 where it fails a check, else its ORIGIN. -/
def Mach.trimState (m : Mach) : Nat :=
  if m.trm.committing.isSome then 4
  else
    match m.trm.stored with
    | none => 2
    | some g => if !g.sound then 3 else g.origin

/-- The stored set where it is valid (R611). -/
def Mach.trimValid (m : Mach) : Option TrimImg :=
  match m.trm.stored with
  | some g => if g.sound then some g else none
  | none => none

/-- The stored set is read and validated (R611): MARGIN-SOURCE and VCORE-START are set, and a corrupt set is counted and
logged, with 1 for start-up and 2 for KINDLE. With safe margins VCORE-START is the VCORE-MAX in force (R65). -/
def Mach.trimCheck (m : Mach) (c : ModeCtl) (when_ : Nat) : Mach :=
  match m.trimValid with
  | some g =>
    let m := m.wr O.marginSource 0 (if g.origin = 0 then 0 else 2)
    let m := m.wr O.vcoreStart 0 (fld 8 (g.die 8) 0 2)
    { m with trm.inForce := some g, pwr.override := [] }
  | none =>
    let m := (m.wr O.marginSource 0 1).wr O.vcoreStart 0 (m.rd O.vcoreMax)
    let m := { m with trm.inForce := none, pwr.override := [] }
    if m.trm.stored.isSome then (m.adt 11).adtEvent c 4 (pack [(1, when_), (7, 0)]) else m

/-- The margin code a tile's pace monitor runs on (R41, R50): an override of IJTAG-RW, else the code of the replica class. -/
def Mach.tileMargin (m : Mach) (t : Nat) : Nat :=
  match mget none m.pwr.override t with
  | some v => v
  | none =>
    let r := match m.trm.inForce with
      | some g => g.tile t
      | none => (Config.safeTile t).toNat
    fld 16 r (fld 16 r 12 1 % 12) 1 % 64

/-- TEMP-OFFSET in force for a die, in 1/16 °C (Table 21.3). -/
def Mach.tempOffset (m : Mach) (i : Nat) : Int :=
  match m.trm.inForce with
  | some g => sgn 16 (fld 8 (g.die i) 2 2)
  | none => 0

/-- Floor code of a stage class of a tile; 0xFF where the class is absent (R610). -/
def trimFloorOf (t k : Nat) : Nat := fld 16 (Config.trimFloor t).toNat k 1

/-- Whether a tile record may stand in the working image (R613). -/
def tileRecOk (t v : Nat) : Bool :=
  ((List.range 12).all fun k =>
    let code := fld 16 v k 1
    if trimFloorOf t k = 0xFF then code = 0 else trimFloorOf t k ≤ code && code < 64) &&
  decide (fld 16 v 12 1 < 12) && decide (trimFloorOf t (fld 16 v 12 1) ≠ 0xFF) && decide (fld 16 v 13 3 = 0)

/-- Whether a die record may stand in the working image (R613, Table 21.3). -/
def dieRecOk (i v : Nat) : Bool :=
  let volts := fld 8 v 0 2
  let off := sgn 16 (fld 8 v 2 2)
  (if 8 ≤ i ∧ i ≤ 11 then 650 ≤ volts && volts ≤ 800 else volts = 0) && decide (-160 ≤ off ∧ off ≤ 160) && decide (fld 8 v 4 4 = 0)

/-- The working image loaded at each entry to TRIM (R613). -/
def Mach.trimLoad (m : Mach) : Mach :=
  { m with trm.work := some (match m.trimValid with
      | some g => g
      | none => { origin := 1, generation := 0, written := 0, safe := true }) }

/-- Why a write of the working image is refused after its length: RANGE, then BUSY while a measurement or commit runs (R613, R614). -/
def Mach.trimBusy (m : Mach) : Bool := m.trm.measuring.isSome || m.trm.committing.isSome

/-- A whole set as written to TRIM-WORK: header, records and DIGEST must check out (R611, R613). -/
def trimSetOk (val : List Byte) : Bool :=
  oct val 0 4 = 0x5654524D && oct val 4 2 = 1 && oct val 6 2 = 7272 && oct val 8 8 = Config.devSerial.toNat && oct val 16 1 = 0xA1 &&
  oct val 17 1 ≤ 1 && oct val 18 2 = 0 && oct val 36 28 = 0 &&
  ((List.range 442).all fun t => tileRecOk t (oct val (64 + 16 * t) 16)) &&
  ((List.range 13).all fun i => dieRecOk i (oct val (7136 + 8 * i) 8)) &&
  oct val 7240 32 = (Config.sha3 (val.take 7240)).toNat

/-- The image a whole set spells. -/
def trimOf (val : List Byte) : TrimImg :=
  { origin := oct val 17 1, generation := oct val 20 4, written := oct val 24 12, safe := true,
    tiles := (List.range 442).map fun t => (t, some (oct val (64 + 16 * t) 16)),
    dies := (List.range 13).map fun i => (i, some (oct val (7136 + 8 * i) 8)) }

/-- One entry written to a view of the working image (R613); the view is TRIM-WORK, TRIM-TILE or TRIM-DIE. The lengths are the
entry sizes. Answers the status and the machine. -/
def Mach.trimEntry (m : Mach) (c : ModeCtl) (view i : Nat) (val : List Byte) : Status × Mach :=
  if c.mode ≠ .trim then (.mode, m)
  else
    match m.trm.work with
    | none => (.mode, m)
    | some g =>
      let size := if view = 0 then 7272 else if view = 1 then 16 else 8
      let count := if view = 0 then 1 else if view = 1 then 442 else 13
      if val.length ≠ size then (.type, m)
      else if count ≤ i then (.range, m)
      else if view = 0 then
        if !trimSetOk val then (.range, m)
        else if m.trimBusy then (.busy, m)
        else (.ok, { m with trm.work := some (trimOf val) })
      else if view = 1 then
        if !tileRecOk i (ofOctets val) then (.range, m)
        else if m.trimBusy then (.busy, m)
        else (.ok, { m with trm.work := some { g with tiles := mset none g.tiles i (some (ofOctets val)) } })
      else
        if !dieRecOk i (ofOctets val) then (.range, m)
        else if m.trimBusy then (.busy, m)
        else (.ok, { m with trm.work := some { g with dies := mset none g.dies i (some (ofOctets val)) } })

/-- TRIM_WORK_WRITE: a session writes an entry of a view of the working image (R613). -/
def Mach.trimWorkWrite (m : Mach) (c : ModeCtl) (ses view i : Nat) (val : List Byte) : Mach :=
  if !m.sesOn ses then m.st .session
  else if !areaOpen c.judged 0xB8 0x11 true || c.mode ≠ .trim then m.st .mode
  else if m.sesP ses < 2 then m.st .privilege
  else
    let r := m.trimEntry c view i val
    r.2.st r.1

/-- TRIM-MEASURE (R614): the measurement starts; BUSY while one or a commit runs. -/
def Mach.trimMeasure (m : Mach) (arg : Nat) : Mach :=
  if m.trimBusy then m.st .busy else ({ m with trm.measuring := some arg }).st .deferred

/-- The record a measurement leaves for a tile (R614): each present class at its least passing code plus TRIM-GUARD, not below its
floor, not above 63. -/
def Mach.measured (m : Mach) (t old : Nat) : Nat :=
  (List.range 12).foldl (fun v k =>
    if trimFloorOf t k = 0xFF then v
    else setFld 16 v k 1 (min 63 (max (trimFloorOf t k) ((Config.measuredCode m.trm.measures t k).toNat + m.rd O.trimGuard)))) old

/-- The measurement ends: its codes are in the working image (R614). -/
def Mach.trimMeasureDone (m : Mach) : Mach :=
  match m.trm.measuring, m.trm.work with
  | some arg, some g =>
    let ts := if arg = 0xFFFF then List.range 442 else [arg]
    let tiles := ts.foldl (fun acc t => mset none acc t (some (m.measured t (g.tile t)))) g.tiles
    { m with trm.measuring := none, trm.work := some { g with tiles := tiles }, trm.measures := m.trm.measures + 1 }
  | _, _ => m

/-- TRIM-COMMIT (R615): the working image, with its generation raised and its origin judged by the content digest, starts to
replace the stored set. -/
def Mach.trimCommit (m : Mach) : Mach :=
  match m.trm.work with
  | none => m.st .mode
  | some g =>
    if m.trimBusy then m.st .busy
    else
      let g := { g with generation := (g.generation + 1) % 2 ^ 32, origin := if g.contentDigest = factoryDigest then 0 else 1, written := m.now, sound := true }
      ({ m with trm.committing := some g }).st .deferred

/-! The Adtieb record. -/

/-- The counters and histograms are committed to the next image slot (R618); at most one commit is made per second, and one that
falls due sooner waits. -/
def Mach.adtCommit (m : Mach) (c : ModeCtl) : Mach :=
  let due := match m.trm.lastCommit with
    | none => true
    | some t => decide (1000000000 ≤ m.ns - t)
  if !due then { m with trm.commitDue := true }
  else
    let num := m.rd O.adtCommits + 1
    let g : AdtImg := { num := num, mode := c.mode.code, counters := m.trm.counters, hists := m.trm.hists }
    let m := (m.wr O.adtCommits 0 num).wr O.adtLastCommit 0 m.now
    { m with trm.images := (g :: m.trm.images).take 16, trm.lastCommit := some m.ns, trm.commitDue := false }

/-- The commit of the trim set ends (R615): stored, logged, counted, and the Adtieb record committed. -/
def Mach.trimCommitDone (m : Mach) (c : ModeCtl) : Mach :=
  match m.trm.committing with
  | none => m
  | some g =>
    let m := { m with trm.stored := some g, trm.committing := none }
    ((m.adt 10).adtEvent c 3 (pack [(1, g.origin), (3, 0), (4, g.generation)])).adtCommit c

/-- The image loaded at step 3 of Table 3.5: the newest whose digest verifies; with none the record is empty. Answers the mode it shows. -/
def Mach.adtLoad (m : Mach) (newestOk : Bool) : Nat × Mach :=
  let m := if !newestOk && !m.trm.images.isEmpty then m.bump O.adtImageInvalid else m
  let l := if newestOk then m.trm.images else m.trm.images.drop 1
  let g := l.headD { num := 0, mode := 1, counters := [], hists := [] }
  (g.mode, { m with trm.images := l, trm.counters := g.counters, trm.hists := g.hists })

/-- The power-on is counted with the mode that the loaded image shows (Table 21.4), and logged. -/
def Mach.adtPowerOn (m : Mach) (c : ModeCtl) (mode : Nat) : Mach :=
  let m := m.adt 0
  let m := if mode ≠ 1 then m.adt 1 else m
  let m := if mode = 8 then m.adt 2 else m
  m.adtEvent c 0 (pack [(1, mode), (1, m.trimState), (6, 0)])

/-- A histogram bin raised by a second, saturating (R620). -/
def Mach.histBin (m : Mach) (k : Nat) : Mach :=
  { m with trm.hists := mset 0 m.trm.hists k (min 0xFFFFFFFF (mget 0 m.trm.hists k + 1)) }

/-- Temperature bin of a reading in 1/16 °C (R620). -/
def tempBin (t : Int) : Nat := if t < 0 then 0 else if 115 * 16 ≤ t then 24 else (t / 80).toNat + 1

/-- VCORE bin of a reading in mV (R620). -/
def vcoreBin (v : Nat) : Nat := if v < 600 then 0 else if 820 ≤ v then 23 else (v - 600) / 10 + 1

end Sys2Proof.Machine
end

