-- ==== Sys2Proof/Machine/Power.lean ====
section
/-! DEFINITION. Pace monitors, the AVSBus loop, rails, temperature and trips (spec 02 and 22). -/

namespace Sys2Proof.Machine

/-- Whether the core rails carry VCORE in a mode: on but for DARK and PILOT, and at retention in BANKED (R65, R80). -/
def coreOn (c : ModeCtl) (m : Mach) : Bool :=
  match c.mode with
  | .dark | .pilot | .banked => false
  | .quench => m.trn.quenchCore
  | _ => true

/-- Whether core die d takes part in the loop: rails on and the die in service (R57, R59). -/
def Mach.diePowered (m : Mach) (c : ModeCtl) (d : Nat) : Bool := coreOn c m && !decide (2 ≤ (mget {} m.flt.blk (dieKey d)).level)

/-- Whether the rail of core die d is commanded over AVSBus: in BANKED too, where it carries VCORE-RETENTION (R63, R80). -/
def Mach.dieRail (m : Mach) (c : ModeCtl) (d : Nat) : Bool :=
  (coreOn c m || decide (c.mode = .banked)) && !decide (2 ≤ (mget {} m.flt.blk (dieKey d)).level)

/-- Whether no context of mills 8 to 15 of a group holds an event (R384). -/
def Mach.upperIdle (m : Mach) (v : Nat) : Bool := (mget {} m.dp.slu v).ctxs.all fun p => decide (p.1 < 128) || p.2.isNone

/-- Power of a tile by mode (Table 3.3): 0 OFF, 1 ON, 2 RETENTION. A block that containment isolated stays OFF (R589). On the way from LEAN
to LIT the parked groups' tiles and the gated half of the mills have power again (R76), and mill tile 1 goes off once its contexts are empty (R384). Table
3.3 has no column for QUENCH entered from a mode other than PILOT: DESIGN CHOICE (log entry 154), the tiles keep power until the core rails go off. -/
def Mach.tilePower (m : Mach) (c : ModeCtl) (t : Nat) : Nat :=
  let blk := tileBlk t
  let k := tileK t
  let ran := decide (m.fst (fnNum .pgroup blk.2) ≠ .stopped ∧ m.fst (fnNum .pgroup blk.2) ≠ .faulted)
  if blk.1 = .lantern then (if c.mode = .dark then 0 else 1)
  else if m.isolated blk.1 blk.2 then 0
  else
    match c.mode with
    | .dark | .pilot => 0
    | .quench => if m.trn.quenchCore then (if blk.1 = .pgroup then ofB ran else 1) else 0
    | .kindle | .trim | .probe => 1
    | .banked =>
      if (blk.1 = .reach ∧ 12 ≤ k ∧ k ≤ 17) ∨ (blk.1 = .basin ∧ k = 0) ∨ (blk.1 = .mill ∧ k = 0) ∨ blk.1 = .hbm then 2 else 0
    | .lean =>
      if blk.1 = .pgroup then ofB (ran || (decide (c.trans = some .toLit) && m.trn.parked.contains (fnNum .pgroup blk.2)))
      else if blk.1 = .mill ∧ k = 1 ∧ m.rdB O.leanMillHalf ∧ c.trans ≠ some .toLit ∧ m.upperIdle blk.2 then 0 else 1
    | _ => if blk.1 = .pgroup then ofB ran else 1

/-- TILE-STATE (Table 2.6): OFF, ON, RETENTION, or EXCLUDED for a powered tile whose reading is implausible. -/
def Mach.tileState (m : Mach) (c : ModeCtl) (t : Nat) : Nat :=
  let p := m.tilePower c t
  if p = 1 ∧ mget false m.pwr.excl t then 3 else p

/-- Tiles of core die d that the loop includes (R54, R59). -/
def Mach.dieTiles (m : Mach) (c : ModeCtl) (d : Nat) : List Nat :=
  (List.range 436).filter fun t => decide (tileDie t = some d) && decide (m.tileState c t = 1)

/-- w: the largest equivalent cycle among the die's included tiles (R59). -/
def Mach.worst (m : Mach) (c : ModeCtl) (d : Nat) : Nat :=
  (m.dieTiles c d).foldl (fun a t => max a (m.rd O.tilePaceEq t)) 0

/-- Whether any powered tile of the die is excluded (R54). -/
def Mach.dieExcluded (m : Mach) (c : ModeCtl) (d : Nat) : Bool :=
  m.pwr.excl.any fun p => p.2 && decide (tileDie p.1 = some d) && decide (m.tilePower c p.1 = 1)

/-- The active pace target (R59): the LEAN target in LEAN, raised as soon as a request for LIT is accepted (R76). -/
def Mach.paceTarget (m : Mach) (c : ModeCtl) : Nat :=
  if c.mode = .lean ∧ c.trans ≠ some .toLit then m.rd O.paceTargetLean else m.rd O.paceTargetLit

/-- AVSBus loop state of a die. -/
def Mach.avs (m : Mach) (d : Nat) : Avs := mget {} m.pwr.avs d

/-- The machine with a loop's state replaced. -/
def Mach.setAvs (m : Mach) (d : Nat) (a : Avs) : Mach := { m with pwr.avs := mset {} m.pwr.avs d a }

/-- A loop takes over what it steers by for the interval that begins: the active target, the range, the hysteresis and the interval's
length, all of the writes since the last interval together (R64). -/
def Mach.avsLatch (m : Mach) (c : ModeCtl) (d : Nat) : Mach :=
  m.setAvs d { m.avs d with
    tgt := m.paceTarget c
    vmin := m.rd O.vcoreMin
    vmax := m.rd O.vcoreMax
    hyst := m.rd O.avsHysteresis
    every := m.rd O.avsInterval }

/-- AVS-STATE (Table 2.5): the first of FAILED, HELD, SLEWING, AT-CEILING, AT-FLOOR, TRACKING that holds (R61), by what the interval in
progress steers by (R64). Between a loop's start and its first interval the worst cycle may lie above the target below VCORE-MAX with no move made, which no
row names: DESIGN CHOICE (log entry 151), it reads SLEWING. -/
def Mach.avsState (m : Mach) (c : ModeCtl) (d : Nat) : Nat :=
  let a := m.avs d
  let w := m.rd O.corePaceWorst d
  let set := m.rd O.coreVcoreSet d
  if a.failed then 5
  else if !m.rdB O.avsLoopEn || !m.diePowered c d then 4
  else if a.moved then 1
  else if set = a.vmax ∧ a.tgt < w then 3
  else if set = a.vmin ∧ w + a.hyst < a.tgt then 2
  else if w ≤ a.tgt then 0
  else 1

/-- CORE-PACE-DEFICIT as read: the time accumulated so far, the present deficit included (R62). -/
def Mach.paceDeficitNs (m : Mach) (d : Nat) : Nat :=
  m.rd O.corePaceDeficit d + (match (m.avs d).deficit with | some t => m.ns - t | none => 0)

/-- A die's AT-CEILING bookkeeping after its state may have changed (R62): the time of arrival at the ceiling, and on leaving it the
deficit time added up. -/
def Mach.ceilUpd (m : Mach) (c : ModeCtl) (d : Nat) : Mach :=
  let a := m.avs d
  if m.avsState c d = 3 then (if a.ceil.isSome then m else m.setAvs d { a with ceil := some m.ns })
  else
    let m := match a.deficit with
      | some t => m.bump O.corePaceDeficit d (m.ns - t)
      | none => m
    m.setAvs d { m.avs d with ceil := none, deficit := none }

/-- The AT-CEILING bookkeeping of every die (R62), which follows every command: a die may leave the ceiling with its mode, its rail or its
containment. -/
def Mach.ceilSettle (m : Mach) (c : ModeCtl) : Mach :=
  if m.pwr.avs.isEmpty then m else (List.range 4).foldl (fun m d => m.ceilUpd c d) m

/-- A setpoint brought into the range of a loop (R60): VCORE-MIN to VCORE-MAX, and not below VCORE-START while a powered tile of the die is
excluded (R54). Where VCORE-START lies above VCORE-MAX the range decides, since a setpoint never leaves it (log entry 134). -/
def Mach.avsClamp (m : Mach) (c : ModeCtl) (d set : Nat) : Nat :=
  let a := m.avs d
  min (max (max set a.vmin) (if m.dieExcluded c d then m.rd O.vcoreStart else 0)) a.vmax

/-- The setpoint commanded on a rail (R59, R63): what stood before it has been acknowledged by then. -/
def Mach.avsMove (m : Mach) (d set : Nat) : Mach :=
  let was := m.rd O.coreVcoreSet d
  if set = was then m
  else ((m.setAvs d { m.avs d with moved := true, acked := was }).wr O.coreVcoreSet d set).emit (.avs d set)

/-- The setpoint and lowering count that one interval chooses from the worst cycle (R59, R60). -/
def Mach.avsNext (m : Mach) (c : ModeCtl) (d w : Nat) : Nat × Nat :=
  let a := m.avs d
  let set := m.rd O.coreVcoreSet d
  if a.tgt < w then (m.avsClamp c d (set + 5), 0)
  else if w + a.hyst < a.tgt then (if a.below = 3 then (m.avsClamp c d (set - 5), 0) else (m.avsClamp c d set, a.below + 1))
  else (m.avsClamp c d set, 0)

/-- AVS_INTERVAL (R59, R60, R64, R634): AVS-INTERVAL after the one before, the writes since then land, the rail is read back, the worst cycle
taken, and the setpoint moved. -/
def Mach.avsInterval (m : Mach) (c : ModeCtl) (d mv ma : Nat) : Mach :=
  if !m.rdB O.avsLoopEn || !m.diePowered c d || (m.avs d).failed then m
  else
    let m := match (m.avs d).at_ with
      | some t => m.reach (t + 1000 * (m.avs d).every)
      | none => m
    let m := m.avsLatch c d
    let w := m.worst c d
    let m := ((m.wr O.coreVcoreRead d mv).wr O.railI d ma).wr O.corePaceWorst d w
    let nx := m.avsNext c d w
    let m := m.setAvs d { m.avs d with below := nx.2, moved := false, acked := m.rd O.coreVcoreSet d, at_ := some m.ns }
    m.avsMove d nx.1

/-- AVS_FAILURE (R63): the loop of a die whose rail is commanded enters FAILED, be it enabled or not, with its setpoint frozen at the last value
acknowledged; a supply fault is raised. -/
def Mach.avsFailure (m : Mach) (c : ModeCtl) (d : Nat) : Mach :=
  if !m.dieRail c d || (m.avs d).failed then m
  else
    let m := (m.setAvs d { m.avs d with failed := true, moved := false }).wr O.coreVcoreSet d (m.avs d).acked
    m.faultAt c 0xFFFF 0x02 d

/-- A PACE-DEFICIT notification names the die (R62, R76). -/
def Mach.deficitNote (m : Mach) (c : ModeCtl) (d : Nat) : Mach := m.note c 1 0xFFFF (O.corePace.key d) 0 (pack [(1, d), (5, 0)])

/-- PACE_DEFICIT (R62): a die that has stayed AT-CEILING for 1 ms is notified, and its deficit time accumulates from here. -/
def Mach.paceDeficit (m : Mach) (c : ModeCtl) (d : Nat) : Mach :=
  match (m.avs d).ceil, (m.avs d).deficit with
  | some t, none =>
    if m.avsState c d = 3 then
      let m := m.reach (t + 1000000)
      (m.setAvs d { m.avs d with deficit := some m.ns }).deficitNote c d
    else m
  | _, _ => m

/-- PACE_WINDOW (R50, R54): a powered tile's reading; an implausible one excludes the tile, raises a monitor fault and holds its
die's setpoint at VCORE-START or above, within the loop's range (log entry 134). -/
def Mach.paceWindow (m : Mach) (c : ModeCtl) (t eq : Nat) : Mach :=
  if m.tilePower c t ≠ 1 then m.wr O.tilePaceEq t 0
  else if 150 ≤ eq ∧ eq ≤ 2000 then
    let m := (m.wr O.tilePaceEq t eq).peak O.tilePaceSlowest t eq
    { m with pwr.excl := mset false m.pwr.excl t false }
  else
    let was := mget false m.pwr.excl t
    let m := (m.wr O.tilePaceEq t (eq % 65536)).peak O.tilePaceSlowest t (eq % 65536)
    let m := { m with pwr.excl := mset false m.pwr.excl t true }
    let m := match tileDie t with
      | some d => if m.rdB O.avsLoopEn && !(m.avs d).failed then m.avsMove d (m.avsClamp c d (m.rd O.coreVcoreSet d)) else m
      | none => m
    if was then m else m.faultAt c t 0x01 t

/-- A loop that the host enables after it was off (R60, R63): FAILED ends, and the setpoint of a powered die enters the loop's range. -/
def Mach.avsEnable (m : Mach) (c : ModeCtl) (d : Nat) : Mach :=
  let m := (m.setAvs d { m.avs d with failed := false, below := 0, moved := false, at_ := none }).avsLatch c d
  if m.diePowered c d then m.avsMove d (m.avsClamp c d (m.rd O.coreVcoreSet d)) else m

/-- AVS-LOOP-EN written (R63, R66): false then true clears FAILED; a disabled loop is HELD. -/
def Mach.avsLoopEnSet (m : Mach) (c : ModeCtl) (v : Nat) : Mach :=
  let was := m.rdB O.avsLoopEn
  let m := m.wr O.avsLoopEn 0 v
  (if v = 1 && !was then (List.range 4).foldl (fun m d => m.avsEnable c d) m else m).st .ok

/-- CORE-VCORE-SET written (Table 2.6): the rail goes where the host says; the setpoint before it has been acknowledged by then (R63). -/
def Mach.vcoreSet (m : Mach) (d v : Nat) : Mach :=
  (((m.setAvs d { m.avs d with acked := m.rd O.coreVcoreSet d }).wr O.coreVcoreSet d v).emit (.avs d v)).st .ok

/-! Rails and temperature. -/

/-- Operating range of a rail in mV (Table 22.3). -/
def railRange (c : ModeCtl) (r : Nat) : Nat × Nat :=
  match r with
  | 4 => (728, 772)
  | 5 => (784, 816)
  | 6 => (1164, 1236)
  | 7 => (1019, 1081)
  | 8 => (728, 772)
  | 9 => (1710, 1890)
  | 10 => (776, 824)
  | 11 => (1710, 1890)
  | _ => if c.mode = .banked then (520, 600) else (600, 820)

/-- A monitor's reading of a rail stands in RAIL-V and RAIL-STATE, and a departure from the range is counted (R633). -/
def Mach.railMark (m : Mach) (c : ModeCtl) (r mv : Nat) : Mach :=
  let g := railRange c r
  let m := m.wr O.railV r (mv % 65536)
  if g.1 ≤ mv ∧ mv ≤ g.2 then m.wr O.railState r 2
  else if m.rd O.railState r = 3 then m
  else (m.bump O.railOor r).wr O.railState r 3

/-- The least voltage of a core die in service, in mV (R57, R80). -/
def coreFloor (c : ModeCtl) : Nat := if c.mode = .banked then 500 else 600

/-- A core die under its floor leaves service as a die fault (R57). -/
def Mach.undervolt (m : Mach) (c : ModeCtl) (d : Nat) : Mach :=
  (m.adtEvent c 8 (pack [(1, 8 + d), (7, 0)])).faultAt c 0xFFFF 0x03 d

/-- CORE_UNDERVOLT (R57, R80): below 600 mV, or below 500 mV in BANKED, the die leaves service as a die fault. -/
def Mach.coreUndervolt (m : Mach) (c : ModeCtl) (d mv : Nat) : Mach :=
  if m.dieRail c d && decide (mv < coreFloor c) then (m.railMark c d mv).undervolt c d else m

/-- Whether a sample takes a core rail under its floor that was not under it at the sample before (R633). -/
def Mach.sinks (m : Mach) (c : ModeCtl) (r mv : Nat) : Bool :=
  decide (r < 4) && m.dieRail c r && decide (mv < coreFloor c) && !(decide (m.rd O.railState r = 3) && decide (m.rd O.railV r < coreFloor c))

/-- Whether a rail's enable is high (R631): bit 0 core, 1 shore, 2 HBM; the Lantern rails have none. -/
def Mach.railOn (m : Mach) (r : Nat) : Bool :=
  if r < 4 then bit (m.rd O.railEn) 0
  else if r < 7 then bit (m.rd O.railEn) 1
  else if r < 10 then bit (m.rd O.railEn) 2
  else true

/-- A trip (R641): THERMTRIP_N falls, every RAIL_EN falls, and the event is logged and counted. -/
def Mach.trip (m : Mach) (c : ModeCtl) (who : Nat) : Mach :=
  if m.pwr.tripped then m
  else
    let m := { m with pwr.tripped := true }
    ((m.wr O.railEn 0 0).adtEvent c 9 (pack [(1, who), (7, 0)])).adt 30

/-- A monitor sample of a rail (R633): each departure from range is counted, a core rail is judged under R57 and R80; a shore or HBM rail whose enable is high, which then stays outside
its range for 10 µs, trips the device, as a core rail above 0.85 V does at once (log entry 145). -/
def Mach.railSample (m : Mach) (c : ModeCtl) (r mv : Nat) : Mach :=
  let sinks := m.sinks c r mv
  let m := m.railMark c r mv
  if (railRange c r).1 ≤ mv ∧ mv ≤ (railRange c r).2 then m
  else if 4 ≤ r ∧ r ≤ 9 ∧ m.railOn r then (m.reach (m.ns + 10000)).trip c 0xFF
  else if r ≤ 3 ∧ 850 < mv then m.trip c 0xFF
  else if sinks then m.undervolt c r
  else m

/-- A DIE-TEMP against DIE-TEMP-LIMIT (R643): reaching the limit raises a THERMAL fault; a further one needs a fall of 5 °C below it first. -/
def Mach.warmCheck (m : Mach) (c : ModeCtl) (s : Nat) (t : Int) : Mach :=
  let lim := sgn 32 (m.rd O.dieTempLimit s)
  if lim ≤ t then
    (if mget false m.pwr.warm s then m
     else ({ m with pwr.warm := mset false m.pwr.warm s true }).faultAt c 0xFFFF 0x0D s)
  else if t ≤ lim - 80 then { m with pwr.warm := mset false m.pwr.warm s false }
  else m

/-- A reading of a die's hottest sensor, in 1/16 °C: DIE-TEMP with the TEMP-OFFSET applied, its peak, the limit (R643) and the trip temperature (R641). -/
def Mach.dieReading (m : Mach) (c : ModeCtl) (s : Nat) (temp : Int) : Mach :=
  let t := temp + m.tempOffset s
  let m := m.wr O.dieTemp s (unsgn 32 t)
  let m := if sgn 32 (m.rd O.dieTempPeak s) < t then m.wr O.dieTempPeak s (unsgn 32 t) else m
  let m := m.warmCheck c s t
  if (if s = 12 then 2000 else 1920) ≤ t then m.trip c s else m

/-- THERMAL_TRIP (R641): a die's reading, or a stack's, which trips at 120 °C. -/
def Mach.thermalTrip (m : Mach) (c : ModeCtl) (s : Nat) (temp : Int) : Mach :=
  if s < 13 then m.dieReading c s temp
  else
    let m := m.wr O.stkTemp (s - 13) (unsgn 32 temp)
    if 120 ≤ temp then m.trip c s else m

/-- DIE_TEMP_LIMIT (R643): a die's reading. -/
def Mach.dieTempLimit (m : Mach) (c : ModeCtl) (s : Nat) (temp : Int) : Mach := m.dieReading c s temp

/-- Seconds counters and histograms at each whole second of FRC (R619, R620), the next one not counted yet: the temperatures are the powered
sensors', in 1/16 °C. -/
def Mach.adtSecond (m : Mach) (c : ModeCtl) (temps : List (Option Int)) : Mach :=
  let sec := max (m.trm.secDone + 1) (m.ns / 1000000000)
  let m := m.reach (sec * 1000000000)
  let m := { m with trm.secDone := sec }
  let m := if 1 ≤ m.dbg.level then m.adt 9 else m
  let m := if m.rd O.marginSource = 1 then m.adt 12 else m
  let m := if c.mode = .dark then m else m.adt (12 + c.mode.code)
  let m := if (List.range 4).any fun d => decide (m.avsState c d = 3) then m.adt 31 else m
  let m := (temps.take 21).zipIdx.foldl (fun m p =>
    match p.1 with
    | some t => m.histBin (25 * p.2 + tempBin (t + if p.2 < 13 then m.tempOffset p.2 else 0))
    | none => m) m
  (List.range 4).foldl (fun m d => if m.diePowered c d then m.histBin (1000 + 24 * d + vcoreBin (m.rd O.coreVcoreRead d)) else m) m

/-- The objects of Table 2.6 return to their defaults on entry to PILOT (R66). A loop stays FAILED, which only the host ends (R63), and
TILE-MARGIN reads the codes of the trim set or the safe ones. -/
def Mach.paceDefaults (m : Mach) : Mach :=
  let keep := m.com.objs.filter fun p =>
    !(decide (p.1 >>> 24 = 0xC0) && (decide ((p.1 >>> 8) % 65536 < 0x10) || decide (0x200 ≤ (p.1 >>> 8) % 65536 ∧ (p.1 >>> 8) % 65536 < 0x204) ||
      decide (0x1000 ≤ (p.1 >>> 8) % 65536)) && !decide (p.1 = O.marginSource.key))
  { m with com.objs := keep, pwr.avs := m.pwr.avs.filterMap (fun p => if p.2.failed then some (p.1, { failed := true }) else none), pwr.excl := [], pwr.override := [] }

end Sys2Proof.Machine
end

