-- ==== Sys2Proof/Machine/Keys.lean ====
section
/-! DEFINITION. The key store, random numbers and the lifecycle (spec 18, R535 to R547, R563 to R566). -/

namespace Sys2Proof.Machine

/-- TRNG-STATE reads FAILED (R565). -/
def Mach.trngFailed (m : Mach) : Bool := m.rd O.trngState = 2

/-- KEYSTORE-STATE reads FAILED (R544). -/
def Mach.keysFailed (m : Mach) : Bool := m.rd O.keystoreState = 2

/-- 32 octets of DRBG output (R563). -/
def Mach.drbgOut (m : Mach) : Nat := (Config.drbg m.sec.drbgCtr).toNat

/-- The machine after one generate request; the DRBG is reseeded after 65,536 of them (R563). -/
def Mach.drbgUsed (m : Mach) : Mach :=
  { m with sec.drbgCtr := m.sec.drbgCtr + 1, sec.generates := if m.sec.generates + 1 = 65536 then 0 else m.sec.generates + 1 }

/-- A LIFECYCLE notification (R566). -/
def Mach.lifeNote (m : Mach) (c : ModeCtl) (cause slot obj : Nat) : Mach :=
  m.note c 8 0xFFFF obj 0 (pack [(1, m.sec.life.code), (1, cause), (1, slot), (3, 0)])

/-- The machine with a key slot replaced. -/
def Mach.setSlot (m : Mach) (k : Nat) (s : Slot) : Mach := { m with sec.slots := mset {} m.sec.slots k s }

/-- Erase a slot (R547): overwritten with zeros and one DRBG output, or all-ones octets while the TRNG has failed, its digest cleared, EMPTY. -/
def Mach.eraseSlot (m : Mach) (k : Nat) : Mach := ((if m.trngFailed then m else m.drbgUsed).setSlot k {}).wr O.slotLoaded k 0

/-- Erase slots, then one ERASE notification for each that was not EMPTY, in rising order (R566). -/
def Mach.eraseSlots (m : Mach) (c : ModeCtl) (ks : List Nat) : Mach :=
  let hit := ks.filter fun k => decide ((m.slot k).state ≠ 0)
  let m := ks.foldl (fun m k => m.eraseSlot k) m
  hit.foldl (fun m k => m.lifeNote c 6 k (O.slot.key k)) m

/-- KEYSTORE-STATE from the slots' states (R544): FAILED for slot 66 or 67, DEGRADED for any other CORRUPT slot. -/
def Mach.keystoreOf (m : Mach) : Nat :=
  if (m.slot 66).state = 2 ∨ (m.slot 67).state = 2 then 2
  else if (List.range 69).any fun k => decide ((m.slot k).state = 2) then 1 else 0

/-- Bring KEYSTORE-STATE up to date; a change is notified (R566). -/
def Mach.keystoreSettle (m : Mach) (c : ModeCtl) : Mach :=
  let v := m.keystoreOf
  if v = m.rd O.keystoreState then m else (m.wr O.keystoreState 0 v).lifeNote c 7 0xFF O.keystoreState.key

/-- TRNG-STATE changed; a change is notified (R566). -/
def Mach.trngTo (m : Mach) (c : ModeCtl) (v : Nat) : Mach :=
  if v = m.rd O.trngState then m else (m.wr O.trngState 0 v).lifeNote c 8 0xFF O.trngState.key

/-- The lifecycle changes (R535): written with its time, counted and logged for life, and ending any wick (R576, R582). -/
def Mach.lifeTo (m : Mach) (c : ModeCtl) (l : Life) : Mach :=
  let old := m.sec.life
  let m := ({ m with sec.life := l, dbg.testLevel := none }).wr O.lcSince 0 m.now
  let m := (m.adt 6).adtEvent c 1 (pack [(1, old.code), (1, l.code), (6, 0)])
  (m.wickEnd c 6 0xFF).adtCommit c

/-- A session's objects at the defaults of Table 5.5a, its sequence floor kept (R159, R538). -/
def Mach.sesDefaults (m : Mach) (s : Nat) : Mach :=
  (((((m.wr O.sesEnable s 0).wr O.sesKeySlot s 0xFF).wr O.sesPriv s 0).wr O.sesPaths s 3).wr O.sesPeer s 0).wr O.sesConfid s 0

/-- A session's highest sequence and floor back at 0 (R159). -/
def Mach.seqZero (m : Mach) (s : Nat) : Mach := { m.wr O.sesSeqHigh s 0 with clk.floor := mset 0 m.clk.floor s 0 }

/-- Closing a session (R159): its message in progress ends, its subscriptions are cancelled and replies owed are withheld, those of a batch
that has passed its checks among them. -/
def Mach.sesClose (m : Mach) (s : Nat) : Mach :=
  let hush := fun (x : Staged) => if x.toward.ses = s then { x with mute := true } else x
  let m :=
    { m with
      clk.msgs := mset none m.clk.msgs s none
      clk.attQ := m.clk.attQ.filter fun a => decide (a.toward.ses ≠ s)
      clk.owed := m.clk.owed.filter fun a => decide (a.toward.ses ≠ s)
      clk.staged := m.clk.staged.map hush
      clk.job := m.clk.job.map fun j => { j with st := hush j.st } }
  (List.range 16).foldl (fun m k => if m.rd O.subSession k = s then (m.wr O.subSession k 0xFF).wr O.subKinds k 0 else m) m

/-- The first 8 octets of a SHA3-256 digest (R538, R543). -/
def digest8 (l : List Byte) : Nat := (Config.sha3 l).toNat >>> 192

/-- WICK-NONCE as it reads: zero while the TRNG has failed (R574). -/
def Mach.nonceNow (m : Mach) : Nat := if m.trngFailed then 0 else m.rd O.wickNonce

/-- A WICK-NONCE drawn from the DRBG; zero while the TRNG has failed (R574). -/
def Mach.nonceDraw (m : Mach) : Mach :=
  if m.trngFailed then m.wr O.wickNonce 0 0 else (m.wr O.wickNonce 0 m.drbgOut).drbgUsed

/-- The reserve for KINDLE (R564): 64 octets for slot 65 and 8 for FLOW-SEED. -/
def Mach.reserveDraw (m : Mach) : Mach :=
  let a := m.drbgOut
  let m := m.drbgUsed
  let b := m.drbgOut
  let m := m.drbgUsed
  let s := m.drbgOut % 2 ^ 64
  { m.drbgUsed with sec.reserve := some (a * 2 ^ 256 + b, s) }

end Sys2Proof.Machine
end

