-- ==== Sys2Proof/Machine/Time.lean ====
section
/-! DEFINITION. The timebase, pulses and the transmit timestamp queue (spec 16). -/

namespace Sys2Proof.Machine

/-- The anchor point of a change acknowledged at an FRC (R499): the first whole multiple of 8,192 ns at least 4 µs later; both in
2^-16 ns. -/
def anchorOf (frc : Nat) : Nat := ((frc + 4000 * 65536 + (8192 * 65536 - 1)) / (8192 * 65536)) * (8192 * 65536)

/-- TB-RATE written (R499): pending until its anchor point. -/
def Mach.tbRate (m : Mach) (v : Nat) : Mach :=
  ({ (m.setPend O.tbRate 0 (some v)) with tb.rateAt := m.com.frc }).st .deferred

/-- Anchor point of a pending rate. -/
def Mach.rateAnchor (m : Mach) : Option Nat := (m.pendOf O.tbRate).map fun _ => anchorOf m.tb.rateAt

/-- Adjusted time at an anchor point to come, under the rate in force and from its own anchor point the one pending. -/
def Mach.adjLanding (m : Mach) (a : Nat) : Int :=
  match m.rateAnchor, m.pendOf O.tbRate with
  | some r, some v => if r < a then Mach.adjAt { m with tb.frc0 := r, tb.adj0 := m.adjAt r, tb.rate := sgn 64 v } a else m.adjAt a
  | _, _ => m.adjAt a

/-- A step command (R499): BUSY while a step is pending, RANGE where adjusted time would fall below 0 as it lands, else pending. -/
def Mach.tbStep (m : Mach) (x : TbStep) : Mach :=
  if m.tb.step.isSome then m.st .busy
  else
    let bad := match x with
      | .adjust ns => decide (m.adjLanding (anchorOf m.com.frc) + ns * 65536 < 0)
      | _ => false
    if bad then m.st .range else ({ m with tb.step := some x, tb.stepAt := m.com.frc }).st .deferred

/-- A step lands: adjusted time is q at an FRC, it is counted, and its time recorded (R499); the next PPS edge is placed anew (R503). -/
def Mach.tbLand (m : Mach) (frc : Nat) (q : Int) : Mach :=
  let m := { m with tb.frc0 := frc, tb.adj0 := q, tb.step := none, tb.ppsNext := none, tb.lossSec := (q / (1000000000 * 65536)).toNat }
  (m.bump O.tbSteps).wr O.tbLastStep 0 (t96Of q)

/-- Anchor point of a pending TB-ADJUST or TB-SET. -/
def Mach.stepAnchor (m : Mach) : Option Nat :=
  match m.tb.step with
  | some (.adjust _) => some (anchorOf m.tb.stepAt)
  | some (.set _) => some (anchorOf m.tb.stepAt)
  | _ => none

/-- The next anchor point at which a change lands; none when none is pending. -/
def Mach.nextAnchor (m : Mach) : Option Nat :=
  match m.rateAnchor, m.stepAnchor with
  | some a, some b => some (min a b)
  | some a, none => some a
  | none, some b => some b
  | none, none => none

/-- The changes of an anchor point (R499): the anchor moves there under the old values, then the pending rate and the pending step
that belong to it act. -/
def Mach.anchorAt (m : Mach) (c : ModeCtl) (a : Nat) : Mach :=
  let doRate := decide (m.rateAnchor = some a)
  let doStep := decide (m.stepAnchor = some a)
  let step := m.tb.step
  let m := { m with com.frc := max m.com.frc a, tb.frc0 := a, tb.adj0 := m.adjAt a }
  let m := if doRate then
      let m := m.land c O.tbRate 0
      { m with tb.rate := sgn 64 (m.rd O.tbRate) }
    else m
  if doStep then
    match step with
    | some (.adjust ns) => m.tbLand a (m.tb.adj0 + ns * 65536)
    | some (.set t) => m.tbLand a (ofT96 t)
    | _ => m
  else m

/-- Whether less than 500 ms have passed since an FRC in ns, a duration of R500. -/
def Mach.within500 (m : Mach) (t : Option Nat) : Bool :=
  match t with
  | some t => decide (m.rated ((m.ns : Int) * 65536 - t * 65536) < 500000000 * 65536)
  | none => false

/-- PPS_IN_EDGE (R502): a selected edge is latched and counted, one within 500 ms of the last accepted is spurious; a pending
TB-SET-AT-PPS lands at the edge. -/
def Mach.ppsIn (m : Mach) (rising : Bool) : Mach :=
  let sel := m.rd O.ppsInEdge
  if !((sel = 1 ∧ rising = true) ∨ (sel = 2 ∧ rising = false)) then m
  else if m.within500 m.tb.ppsLast then m.bump O.ppsInSpurious
  else
    let m := ((m.wr O.ppsInFrc 0 m.ns).wr O.ppsInTime 0 m.now).bump O.ppsInCount
    let m := { m with tb.ppsLast := some m.ns }
    match m.tb.step with
    | some (.setAtPps t) => m.tbLand m.com.frc (ofT96 t)
    | _ => m

/-- The next whole second plus PPS-OUT-OFFSET of adjusted time that no edge has been placed for, in 2^-16 ns (R503). -/
def Mach.ppsTarget (m : Mach) : Int :=
  let off := sgn 32 (m.rd O.ppsOutOffset) * 65536
  let sec : Int := 1000000000 * 65536
  let q := ((m.adj - off + (sec - 1)) / sec) * sec + off
  match m.tb.ppsNext with
  | some last => if q ≤ last then last + sec else q
  | none => q

/-- PPS_OUT_EDGE (R503): the output rises, or the edge is omitted and counted within 500 ms of the last rise. -/
def Mach.ppsOutEdge (m : Mach) : Mach :=
  if !m.rdB O.ppsOutEn then m
  else
    let q := m.ppsTarget
    let m := m.reach (m.nsWhen q)
    let m := { m with tb.ppsNext := some q }
    if m.within500 m.tb.ppsRise then m.bump O.ppsOutSkipped
    else { m with tb.ppsOut := true, tb.ppsRise := some m.ns }

/-- PPS_OUT_FALL (R503): PPS-OUT-WIDTH after its rise the output falls. -/
def Mach.ppsOutFall (m : Mach) : Mach :=
  match m.tb.ppsOut, m.tb.ppsRise with
  | true, some t => { m.reach (t + m.rd O.ppsOutWidth) with tb.ppsOut := false }
  | _, _ => m

/-- REF_LOSS (R501): the timebase holds over and a TIMEBASE fault of Lantern island 1 is raised. -/
def Mach.refLoss (m : Mach) (c : ModeCtl) : Mach :=
  if m.rd O.tbRefSource = 1 ∧ (m.rd O.tbRefState = 1 ∨ m.rd O.tbRefState = 2) then (m.wr O.tbRefState 0 3).faultAt c 437 0x0C 0 else m

/-- REF_RELOCK (R501): locked to the 10 MHz input, without a step. -/
def Mach.refRelock (m : Mach) : Mach :=
  if m.rd O.tbRefSource = 1 ∧ (m.rd O.tbRefState = 2 ∨ m.rd O.tbRefState = 3) then m.wr O.tbRefState 0 1 else m

/-- TB-REF-SOURCE written (R501): INTERNAL at once; ACQUIRING until the 10 MHz input is locked, where it was not the source already. -/
def Mach.refSource (m : Mach) (v : Nat) : Mach :=
  ((m.wr O.tbRefSource 0 v).wr O.tbRefState 0 (if v = 0 then 0 else if m.rd O.tbRefSource = 1 then m.rd O.tbRefState else 2)).st .ok

/-- PPS-IN-EDGE written: 0 cancels a pending TB-SET-AT-PPS (R499). -/
def Mach.ppsEdgeSet (m : Mach) (v : Nat) : Mach :=
  let m := m.wr O.ppsInEdge 0 v
  let m := match m.tb.step with
    | some (.setAtPps _) => if v = 0 then { m with tb.step := none } else m
    | _ => m
  m.st .ok

/-! The transmit timestamp queue (R510 to R512). -/

/-- A transmit timestamp entry (Table 16.3). -/
def tsEntry (tag time frac port status reason msg dom pseq count : Nat) : Nat :=
  pack [(8, tag), (12, time), (2, frac), (2, port), (1, status), (1, reason), (1, msg), (1, dom), (2, pseq), (2, count)]

/-- A lost result enters the ring of the 256 most recent (R512): octets 0 to 7 and 22 to 29 of its entry. -/
def Mach.tsLose (m : Mach) (e status : Nat) : Mach :=
  let r := pack [(8, fld 32 e 0 8), (2, fld 32 e 22 2), (1, status), (1, fld 32 e 25 1), (1, fld 32 e 26 1), (1, fld 32 e 27 1), (2, fld 32 e 28 2)]
  let m := m.setEnt O.tsLost 0 (m.tb.lostNext % 256) r
  { m with tb.lostNext := (m.tb.lostNext + 1) % 256 }

/-- A result put in the queue, counted for its port (TS-TX-STAMPED): after the others, but among results of frames that started at the same moment in the order of
their ports (R510). -/
def Mach.tsQueue (m : Mach) (e : Nat) : Mach :=
  let q := m.tb.txq
  let k := if fld 32 e 24 1 ≠ 0 then 0 else if m.tb.txTied.1 = m.com.frc then min q.length m.tb.txTied.2 else 0
  let tied := q.drop (q.length - k)
  let first := tied.takeWhile fun x => decide (fld 32 x 22 2 ≤ fld 32 e 22 2)
  let q := q.take (q.length - k) ++ first ++ e :: tied.drop first.length
  { m with tb.txq := q, tb.txTied := if fld 32 e 24 1 ≠ 0 then (0, 0) else (m.com.frc, k + 1) }.bump O.tsTxStamped (fld 32 e 22 2)

/-- A result arrives (R510, R512): queued; the last free entry becomes an OVERFLOW entry; until that has been read, later results raise its count and
go to the lost ring (log entry 84). -/
def Mach.tsResult (m : Mach) (e : Nat) : Mach :=
  let n := m.tb.txq.length
  let lost := fld 32 e 24 1 = 1
  if !m.tb.txq.any (fun x => fld 32 x 24 1 = 2) then
    if n < 1023 then m.tsQueue e
    else { m with tb.txq := m.tb.txq ++ [setFld 32 (setFld 32 (setFld 32 (setFld 32 e 8 14 0) 24 1 2) 25 1 0) 30 2 1] }
  else
    let q := m.tb.txq.map fun x => if fld 32 x 24 1 = 2 then setFld 32 x 30 2 (min 65535 (fld 32 x 30 2 + 1)) else x
    (({ m with tb.txq := q }).bump O.tsTxqOverflow).tsLose e (if lost then 1 else 2)

/-- A read of TS-TXQ-NEXT (R511): the oldest entry, removed; an entry with STATUS EMPTY when there is none. -/
def Mach.tsNext (m : Mach) : Mach :=
  match m.tb.txq with
  | e :: r => (({ m with tb.txq := r }).val e).st .ok
  | [] => (m.val (tsEntry 0 0 0 0 3 0 0 0 0 0)).st .ok

end Sys2Proof.Machine
end

