-- ==== Sys2Proof/Machine/Security.lean ====
section
/-! DEFINITION. Lifecycle commands, slot erasure, import, attestation, the cipher service (spec 18) and debug (spec 19). -/

namespace Sys2Proof.Machine

/-! Lifecycle commands (R536 to R540). Their argument and access checks come first (Table 5.6). -/

/-- LC-SHIP (R536, R648): TEST or RETURNED becomes SHIPPED; the claim slot must be LOADED and the mode PILOT. -/
def Mach.lcShip (m : Mach) (c : ModeCtl) : Mach :=
  if !(m.sec.life = .test ∨ m.sec.life = .returned) ∨ (m.slot 64).state ≠ 1 then m.st .lifecycle
  else if c.mode ≠ .pilot then m.st .mode
  else
    let m := ((m.wr O.sesPaths 0 3).wr O.sesPeer 0 0).wr O.sesConfid 0 0
    ((m.lifeTo c .shipped).lifeNote c 3 0xFF O.lcShip.key).st .ok

/-- Whether some session 1 to 63 is enabled at P2 on a loaded SESSION slot (R538). -/
def Mach.otherWayIn (m : Mach) : Bool :=
  (List.range 63).any fun k =>
    let s := k + 1
    m.rdB O.sesEnable s && decide (m.rd O.sesPriv s = 2) &&
      decide (m.rd O.sesKeySlot s < 64 ∧ (m.slot (m.rd O.sesKeySlot s)).state = 1 ∧ (m.slot (m.rd O.sesKeySlot s)).purpose = 0)

/-- The owner root becomes OWNER-ROOT-NEXT, with its fingerprint, and the owner floor is reset (R538, R539). -/
def Mach.rootSet (m : Mach) : Mach :=
  let key := octets 1312 (m.rd O.ownerRootNext)
  let m := { m with sec.root := key }
  (m.wr O.ownerRootFpr 0 (Config.sha3 key).toNat).wr O.secFloorOwner 0 0

/-- OWNER-CLAIM (R538). -/
def Mach.ownerClaim (m : Mach) (c : ModeCtl) (arg : Nat) : Mach :=
  if m.sec.life ≠ .shipped then m.st .lifecycle
  else if c.mode ≠ .pilot then m.st .mode
  else if arg ≠ digest8 (octets 1312 (m.rd O.ownerRootNext)) ∨ !m.otherWayIn then m.st .range
  else
    let m := m.rootSet
    let m := m.setSlot 64 { m.slot 64 with state := 3 }
    let m := (m.sesDefaults 0).sesClose 0
    ((m.lifeTo c .owned).lifeNote c 0 0xFF O.ownerClaim.key).st .ok

/-- Whether a bundle is being carried out or waits to be (R139). -/
def Mach.bundleBusy (m : Mach) : Bool :=
  m.clk.staged.any (·.bundle) || (match m.clk.job with | some j => j.st.bundle | none => false)

/-- OWNER-TRANSFER (R539): BUSY while a bundle is checked or executed. -/
def Mach.ownerTransfer (m : Mach) (c : ModeCtl) (arg : Nat) : Mach :=
  if m.sec.life ≠ .owned then m.st .lifecycle
  else if arg ≠ digest8 (octets 1312 (m.rd O.ownerRootNext)) then m.st .range
  else if m.bundleBusy then m.st .busy
  else ((m.rootSet.lifeTo c .owned).lifeNote c 1 0xFF O.ownerTransfer.key).st .ok

/-- OWNER-RETURN (R540): owner slots erased, root and floor cleared, sessions 1 to 63 at their defaults, session 0 on slot 68. -/
def Mach.ownerReturn (m : Mach) (c : ModeCtl) (arg : Nat) : Mach :=
  if m.sec.life ≠ .owned then m.st .lifecycle
  else if c.mode ≠ .pilot then m.st .mode
  else if arg ≠ Config.devSerial.toNat then m.st .range
  else
    let hit := (List.range 64).filter fun k => decide ((m.slot k).state ≠ 0)
    let m := (List.range 64).foldl (fun m k => m.eraseSlot k) m
    let m := ({ m with sec.root := [] }.wr O.ownerRootFpr 0 0).wr O.secFloorOwner 0 0
    let m := (List.range 63).foldl (fun m k => ((m.sesDefaults (k + 1)).sesClose (k + 1)).seqZero (k + 1)) m
    let m := ((m.wr O.sesPaths 0 3).wr O.sesPeer 0 0).wr O.sesConfid 0 0
    let m := (m.lifeTo c .returned).keystoreSettle c
    let m := hit.foldl (fun m k => m.lifeNote c 6 k (O.slot.key k)) m
    (m.lifeNote c 2 0xFF O.ownerReturn.key).st .ok

/-- SLOT-ERASE (R547): RANGE for a slot above 63, BUSY while an enabled session names it. -/
def Mach.slotErase (m : Mach) (c : ModeCtl) (k : Nat) : Mach :=
  if 64 ≤ k then m.st .range
  else if (List.range 64).any fun s => m.sesEn s && decide (m.sesSlot s = k) then m.st .busy
  else ((m.eraseSlots c [k]).keystoreSettle c).st .ok

/-! Random numbers (R565). -/

/-- TRNG_HEALTH_FAIL: the DRBG stops. -/
def Mach.trngFail (m : Mach) (c : ModeCtl) : Mach :=
  if m.trngFailed then m else (m.bump O.trngFails).trngTo c 2

/-- TRNG-RETEST: the start-up test runs again, TESTING meanwhile; a pass returns the state to OK and reseeds the DRBG. -/
def Mach.trngRetest (m : Mach) (c : ModeCtl) (pass : Bool) : Mach :=
  let m := m.trngTo c 1
  if pass then (({ m with sec.generates := 0 }).trngTo c 0).st .ok
  else ((m.bump O.trngFails).trngTo c 2).st .ok

/-! Importing keys (R548 to R551). -/

/-- Whether the lifecycle allows an import into a slot (Table 18.3). -/
def Mach.importAllowed (m : Mach) (ses slot : Nat) : Bool :=
  match m.sec.life with
  | .test => slot ≠ 64 || 3 ≤ m.sesP ses
  | .returned => 64 < slot || (slot = 64 && 3 ≤ m.sesP ses)
  | .spent => false
  | _ => slot ≠ 64

/-- The key-encryption key of an IMPORT body (R549): its ciphertext is decapsulated with slot 67. -/
def Mach.importKek (m : Mach) (body : List Byte) : Nat :=
  (Config.sha3 (ascii "VIUST-IMPORT" ++ octets 32 (Config.mlkemDecaps (m.slot 67).key ((body.drop 4).take 1088)).toNat
    ++ octets 8 Config.devSerial.toNat ++ body.take 2)).toNat

/-- The key that an IMPORT body carries (R548, R549): opened under the kek with an IV of zeros and the first 4 octets as additional data. -/
def Mach.importOpen (m : Mach) (body : List Byte) : Option (List Byte) :=
  Config.gcmOpen (m.importKek body) 0 (oct body 1124 16) (body.take 4) ((body.drop 1092).take 32)

/-- The status an IMPORT body draws (Table 18.6). -/
def Mach.importStatus (m : Mach) (ses : Nat) (body : List Byte) : Status :=
  let slot := oct body 0 1
  let purpose := oct body 1 1
  if !m.importAllowed ses slot then .lifecycle
  else if m.keysFailed then .lifecycle
  else if 64 < slot ∨ 1 < purpose ∨ (slot = 64 ∧ purpose ≠ 0) ∨ oct body 2 2 ≠ 0 then .range
  else if purpose = 1 && (List.range 64).any fun s => m.sesEn s && decide (m.sesSlot s = slot) then .range
  else if (m.importOpen body).isNone then .signature
  else .ok

/-- A successful import (R550): the slot, its purpose and time of loading are written and its counter is 0; SLOT-KCV follows from its key (R543). -/
def Mach.importLoad (m : Mach) (c : ModeCtl) (body : List Byte) : Mach :=
  let slot := oct body 0 1
  let key := ofOctets ((m.importOpen body).getD [])
  let m := m.setSlot slot { state := 1, purpose := oct body 1 1, key := key, nonce := 0, loaded := m.now }
  ((m.wr O.slotLoaded slot m.now).keystoreSettle c).lifeNote c 5 slot (O.slot.key slot)

/-! The cipher service (R561, R562). -/

/-- The AAD and text of a cipher entry. -/
def cipherData (e : List Byte) : List Byte × List Byte :=
  let n := oct e 4 2
  let a := oct e 6 2
  (((e.drop 64).take a), ((e.drop (64 + a)).take n))

/-- An entry that passes R132: OP 0 to 4, RSVD zero, and lengths in range (Table 18.8). -/
def cipherEntryOk (e : List Byte) : Bool :=
  oct e 0 1 ≤ 4 && oct e 3 1 = 0 && oct e 36 28 = 0 && oct e 4 2 + oct e 6 2 ≤ 4096 &&
    (!(oct e 0 1 = 3 ∨ oct e 0 1 = 4) || oct e 4 2 = 0)

/-- Whether a slot may serve the cipher service (R546): a loaded OWNER slot of purpose SEAL. -/
def Mach.sealSlot (m : Mach) (k : Nat) : Bool := k < 64 && decide ((m.slot k).state = 1 ∧ (m.slot k).purpose = 1)

/-- The slot's counter after one nonce, 48 bits; one that would wrap advances BOOT-EPOCH (R559). -/
def Mach.sealUsed (m : Mach) (c : ModeCtl) (k : Nat) : Mach :=
  let s := m.slot k
  if s.nonce + 1 < 2 ^ 48 then m.setSlot k { s with nonce := s.nonce + 1 } else m.nextEpoch c

/-- The entry with its result, nonce, tag and text replaced. -/
def cipherPut (e : List Byte) (result nonce tag : Nat) (text : List Byte) : List Byte :=
  let n := oct e 6 2
  let body := (e.drop 64).take n ++ text
  octets 1 (oct e 0 1) ++ octets 1 result ++ octets 1 (oct e 2 1) ++ octets 1 0 ++ octets 2 (oct e 4 2) ++ octets 2 (oct e 6 2)
    ++ octets 12 nonce ++ octets 16 tag ++ octets 28 0 ++ body ++ (e.drop (64 + body.length))

/-- One cipher request carried out: the entry as the device leaves it, and the machine (R562). In a lifecycle other than OWNED the
service is refused before this point. -/
def Mach.cipher (m : Mach) (c : ModeCtl) (e : List Byte) : List Byte × Mach :=
  let op := oct e 0 1
  let k := oct e 2 1
  let (aad, text) := cipherData e
  if op = 0 then (e, m)
  else if !m.sealSlot k then (cipherPut e 3 (oct e 8 12) (oct e 20 16) text, m)
  else if op = 1 ∨ op = 3 then
    let nonce := pack [(1, 4), (1, k), (4, m.rd O.bootEpoch), (6, (m.slot k).nonce)]
    let r := Config.gcmSeal (m.slot k).key nonce aad (if op = 1 then text else [])
    (cipherPut e 1 nonce r.1.toNat (if op = 1 then r.2 else text), m.sealUsed c k)
  else if oct e 8 1 ≠ 4 ∨ oct e 9 1 ≠ k then (cipherPut e 3 (oct e 8 12) (oct e 20 16) text, m)
  else
    match Config.gcmOpen (m.slot k).key (oct e 8 12) (oct e 20 16) aad (if op = 2 then text else []) with
    | none => (cipherPut e 2 (oct e 8 12) (oct e 20 16) text, m)
    | some p => (cipherPut e 1 (oct e 8 12) (oct e 20 16) (if op = 2 then p else text), m)

/-- A CIPHER-REQ entry of a session as octets. -/
def Mach.cipherEnt (m : Mach) (ses i : Nat) : List Byte := octets 4160 (m.ent O.cipherReq 0 (16 * ses + i))

/-- A cipher row: the request of kind op that stands in a session's entry i is carried out there; anything else stands as it is. -/
def Mach.cipherRun (m : Mach) (c : ModeCtl) (ses i op : Nat) : Mach :=
  if !m.sesOn ses then m.st .session
  else if !areaOpen c.judged 0xA0 0x400 true then m.st .mode
  else if m.sesP ses < 2 then m.st .privilege
  else if m.sec.life ≠ .owned then m.st .lifecycle
  else
    let e := m.cipherEnt ses i
    if oct e 0 1 ≠ op then m
    else if !cipherEntryOk e then m.st .range
    else
      let r := m.cipher c e
      (r.2.setEnt O.cipherReq 0 (16 * ses + i) (ofOctets r.1)).st .ok

/-! Attestation (R553). -/

/-- The quote of Table 18.7, 200 octets. -/
def Mach.quote (m : Mach) (c : ModeCtl) (challenge : List Byte) : List Byte :=
  let trim := match m.trimValid with
    | some g => g.digest
    | none => 0
  octets 4 0x56514F54 ++ octets 2 1 ++ octets 2 200 ++ octets 8 Config.devSerial.toNat ++ octets 1 0xA1 ++ octets 1 m.sec.life.code
    ++ octets 1 c.mode.code ++ octets 1 m.dbg.level ++ octets 1 (m.rd O.marginSource) ++ octets 1 (m.rd O.keystoreState)
    ++ octets 1 (m.rd O.trngState) ++ octets 1 0 ++ octets 4 (m.rd O.bootEpoch) ++ octets 4 0 ++ octets 32 (ofOctets challenge)
    ++ octets 12 m.now ++ octets 4 0 ++ octets 8 (m.rd O.secFloorOwner) ++ octets 8 (m.rd O.secFloorVendor)
    ++ octets 32 (m.rd O.ownerRootFpr) ++ octets 32 (m.rd O.configMeasure) ++ octets 8 (m.rd O.bundleLastId) ++ octets 32 trim

/-- The reply body of an ATTEST: the quote and the ML-DSA-44 signature of its digest by slot 66, hedged by the DRBG (R553). -/
def Mach.quoteSigned (m : Mach) (c : ModeCtl) (challenge : List Byte) : List Byte :=
  let q := m.quote c challenge
  q ++ octets 2420 (Config.mldsaSign (m.slot 66).key (ascii "VIUST-QUOTE") (octets 32 (Config.sha3 q).toNat) (Config.drbg m.sec.drbgCtr)).toNat

/-! Debug (spec 19). -/

/-- Whether a wick's body is well formed (check 1 of Table 19.4). -/
def wickFormOk (w : List Byte) : Bool :=
  oct w 0 4 = 0x56574943 && oct w 4 2 = 1 && oct w 6 2 = 140 && oct w 51 1 = 0 && oct w 96 44 = 0

/-- Whether a wick of a level is granted in the lifecycle state (Table 19.5). -/
def wickAllowed (l : Life) (level : Nat) : Bool :=
  match l with
  | .test => false
  | .shipped => level = 1
  | .owned => 1 ≤ level && level ≤ 3
  | .returned => 2 ≤ level && level ≤ 4
  | .spent => false

/-- Level rules of check 6 of Table 19.4: levels 2 and 4 only in PRIMED or PROBE. -/
def levelModeOk (c : ModeCtl) (level : Nat) : Bool := !(level = 2 ∨ level = 4) || c.mode = .primed || c.mode = .probe

/-- The status WICK-APPLY draws (Table 19.4); `sigOk` says that the ML-DSA-44 signature verifies. A wick with a zero nonce is
refused (R574). A DURATION outside its range and a SESSION named by level 1 or 2 draw no status in Table 19.4: DESIGN CHOICE, they stand as they are
(log entry 185). -/
def Mach.wickStatus (m : Mach) (c : ModeCtl) (w : List Byte) (sigOk : Bool) : Status :=
  let level := oct w 48 1
  let ses := oct w 50 1
  if !wickFormOk w then .type
  else if !sigOk then .signature
  else if oct w 8 8 ≠ Config.devSerial.toNat ∨ oct w 16 32 ≠ m.nonceNow ∨ oct w 16 32 = 0 ∨ oct w 49 1 ≠ m.sec.life.code ∨
      oct w 56 32 ≠ (if m.sec.life = .owned then m.rd O.ownerRootFpr else 0) then .signature
  else if !wickAllowed m.sec.life level ∨ m.keysFailed then .lifecycle
  else if m.sec.life = .owned ∧ m.rd O.dbgOwnerConsent < level then .privilege
  else if !levelModeOk c level then .mode
  else if 3 ≤ level ∧ !m.sesOn ses then .range
  else .ok

/-- The wick in the buffer, 2,560 octets (R573). -/
def Mach.wickBuf (m : Mach) : List Byte := octets 2560 (m.ent O.wickBuf 0 0)

/-- The session that DBG-LOG names for a level that a session asked for: the one given P3, else the one that asked (Table 19.7). -/
def logSession (level given asked : Nat) : Nat := if 3 ≤ level then given else asked

/-- WICK-APPLY (R575, R576): an accepted wick replaces any in force, the level rises and a new nonce is drawn. -/
def Mach.wickApply (m : Mach) (c : ModeCtl) (ses : Nat) (sigOk : Bool) : Mach :=
  let w := m.wickBuf
  match m.wickStatus c w sigOk with
  | .ok =>
    let k : Wick := ⟨oct w 48 1, oct w 50 1, oct w 88 8⟩
    let m := { m with dbg.wick := some k }
    let m := (m.wr O.dbgExpiry 0 (m.ns + oct w 52 4 * 1000000000)).wr O.dbgWickSession 0 k.ses
    (((m.dbgSettle c 0 (logSession k.level k.ses ses) k.ticket).adt 8).nonceDraw).st .ok
  | r => m.st r

/-- WICK-REVOKE (R576): the wick in force ends. -/
def Mach.wickRevoke (m : Mach) (c : ModeCtl) (ses : Nat) : Mach := (if m.dbg.wick.isSome then m.wickEnd c 4 ses else m).st .ok

/-- DBG-LEVEL-REQ (R577): in TEST any level, under the mode rule of check 6. -/
def Mach.levelReq (m : Mach) (c : ModeCtl) (asked v : Nat) : Mach :=
  let level := v % 256
  let ses := v / 256
  if m.sec.life ≠ .test then m.st .lifecycle
  else if 4 < level then m.st .range
  else if !levelModeOk c level then m.st .mode
  else
    let m := ({ m with dbg.testLevel := some level }).wr O.dbgWickSession 0 (if 3 ≤ level then ses else 0xFF)
    (m.dbgSettle c 1 (logSession level ses asked) 0).st .ok

/-- Whether an opcode is one of Table 19.2. -/
def tapKnown (op : Nat) : Bool := op = 0xFF || op = 1 || op = 2 || op = 3 || op = 4 || op = 5 || op = 0x10 || op = 0x11 || op = 0x20

end Sys2Proof.Machine
end

