-- ==== Sys2Proof/Machine/Count.lean ====
section
/-! DEFINITION. The counters of area 98: port, reason and general counters, with their sticky bits and notifications
(R515 to R524). VALUE and FLAGS are stored in the entry; CAPTURE is put in when it is read. -/

namespace Sys2Proof.Machine

/-- The link-local address of a port: modified EUI-64 of its MAC address (R144). -/
def Mach.linkLocal (m : Mach) (p : Nat) : Nat :=
  let a := m.rd O.mgtMac p
  pack [(8, 0xFE80000000000000), (1, Nat.xor (a >>> 40) 2), (2, bits a 39 24), (2, 0xFFFE), (3, a % 2 ^ 24)]

/-- A COUNTER notification (R524): entry index, cause and table. -/
def Mach.counterNote (m : Mach) (c : ModeCtl) (o : ObjDef) (idx cause table : Nat) : Mach :=
  m.note c 7 0xFFFF o.key 0 (pack [(2, idx), (1, cause), (1, table), (2, 0)])

/-- A counter entry raised by n (R517): VALUE wraps at 2^64, and a wrap sets WRAPPED and is notified where it was clear. In BANKED nothing counts: counting
resumes at the exit from the values copied at the entry (R518). -/
def Mach.count (m : Mach) (c : ModeCtl) (o : ObjDef) (idx table n : Nat) : Mach :=
  let e := m.ent o 0 idx
  let v := fld 24 e 0 8 + n
  let e' := setFld 24 e 0 8 v
  if c.mode = .banked then m
  else if v < 2 ^ 64 then m.setEnt o 0 idx e'
  else
    let was := bit (fld 24 e 20 1) 0
    let m := m.setEnt o 0 idx (setFld 24 e' 20 1 (fld 24 e 20 1 ||| 1))
    if was then m else m.counterNote c o idx 1 table

/-- A general counter raised by n (R523, R524): reaching its threshold, on the way up or after a wrap, sets THRESHOLD, notified where it was clear. -/
def Mach.gecAdd (m : Mach) (c : ModeCtl) (g n : Nat) : Mach :=
  let old := m.entF O.gecValues 0 g 0 8
  let m := m.count c O.gecValues g 4 n
  let thr := m.rd O.gecThreshold g
  if c.mode ≠ .banked ∧ thr ≠ 0 ∧ ((old < thr ∧ thr ≤ old + n) ∨ 2 ^ 64 + thr ≤ old + n) then
    let e := m.ent O.gecValues 0 g
    let was := bit (fld 24 e 20 1) 2
    let m := m.setEnt O.gecValues 0 g (setFld 24 e 20 1 (fld 24 e 20 1 ||| 4))
    if was then m else m.counterNote c O.gecValues g 0 4
  else m

/-- The general counters that have a selection. -/
def Mach.gecOn (m : Mach) : List Nat :=
  (m.com.objs.filter fun p => decide (p.1 >>> 24 = 0x98 ∧ 0x4000 ≤ (p.1 >>> 8) % 65536 ∧ (p.1 >>> 8) % 65536 < 0x4100 ∧ p.1 % 256 = 1)).map
    fun p => (p.1 >>> 8) % 65536 - 0x4000

/-- Pulses of a block's event (Table 17.4): every general counter that selects it with MODE EDGE counts them. -/
def Mach.pulse (m : Mach) (c : ModeCtl) (tile ev arg : Nat) (n : Nat := 1) : Mach :=
  m.gecOn.foldl (fun m g =>
    let s := m.rd O.gecSelect g
    if bits s 23 16 = 1 ∧ bits s 31 24 = ev ∧ blkOf (bits s 47 32) = blkOf tile ∧ bits s 15 0 = arg then m.gecAdd c g n else m) m

/-- Slot of a reason code (Table 17.3). -/
def rsnSlot (code : Nat) : Nat :=
  match code with
  | 0x10 => 0 | 0x11 => 1 | 0x12 => 2 | 0x13 => 3 | 0x20 => 4 | 0x21 => 5 | 0x22 => 6 | 0x30 => 7 | 0x31 => 8 | 0x32 => 9
  | 0x33 => 10 | 0x34 => 11 | 0x40 => 12 | 0x41 => 13 | 0x42 => 14 | 0x50 => 15 | 0x51 => 16 | 0x52 => 17 | 0x53 => 18
  | 0x60 => 19 | 0x61 => 20 | 0x70 => 21 | 0x71 => 22 | _ => 23

/-- A reason counted against a breakout port and class (R521). -/
def Mach.rsn (m : Mach) (c : ModeCtl) (code b cls : Nat) : Mach :=
  (m.count c O.rsnCnt (32 * (8 * b + cls) + rsnSlot code) 2 1).pulse c (blkTile .reach (b / 128)) 0x05 code

/-- A reason counted against a basin (R521). -/
def Mach.rsnB (m : Mach) (c : ModeCtl) (code n : Nat) : Mach := m.count c O.rsnBasin (32 * n + rsnSlot code) 3 1

/-- Port whose counters a breakout port counts in: 8n for a FlexE group (R520). -/
def Mach.cntPort (m : Mach) (b : Nat) : Nat := if m.flexMember b then 8 * (b / 8) else b

/-- A per-port counter raised (Table 17.2). -/
def Mach.portCnt (m : Mach) (c : ModeCtl) (b k : Nat) (n : Nat := 1) : Mach := m.count c O.portCnt (16 * m.cntPort b + k) 1 n

/-- Frame counters by destination address of a frame of FRAME-LEN n: k counts frames, k + 1 octets, k + 2 to k + 4 unicast, multicast and broadcast
(Table 17.2). -/
def Mach.frameCnt (m : Mach) (c : ModeCtl) (b k n dmac : Nat) : Mach :=
  let kind := if dmac = 0xFFFFFFFFFFFF then 4 else if bit dmac 40 then 3 else 2
  ((m.portCnt c b k).portCnt c b (k + 1) (n + 4)).portCnt c b (k + kind)

/-- The frame counters of a frame whose octets are at hand. -/
def Mach.portFrame (m : Mach) (c : ModeCtl) (b k : Nat) (data : List Byte) : Mach := m.frameCnt c b k data.length (oct data 0 6)

/-- Clear the sticky bits of a table (R517): WRAPPED, and THRESHOLD in the general counters; in BANKED those of the copy too. -/
def Mach.stickyTable (m : Mach) (o : ObjDef) : Mach :=
  let lo := o.ekey 0 0
  let clear := fun (e : Nat) => setFld 24 e 20 1 (fld 24 e 20 1 &&& 0xFA)
  let m := { m with trn.counters := m.trn.counters.map fun (k, v) => if lo ≤ k ∧ k < lo + 2 ^ 32 then (k, clear v) else (k, v) }
  (m.com.tabs.filter fun p => decide (lo ≤ p.1 ∧ p.1 < lo + 2 ^ 32)).foldl (fun m p => m.setEnt o 0 (p.1 - lo) (clear (m.ent o 0 (p.1 - lo)))) m

/-- CNT-STICKY-CLEAR (R517): 0 every table, else one of the four. -/
def Mach.stickyClear (m : Mach) (v : Nat) : Mach :=
  let t := [O.portCnt, O.rsnCnt, O.rsnBasin, O.gecValues]
  (t.zipIdx.foldl (fun m p => if v = 0 ∨ v = p.2 + 1 then m.stickyTable p.1 else m) m).st .ok

end Sys2Proof.Machine
end

