-- ==== Sys2Proof/Machine/Pool.lean ====
section
/-! DEFINITION. On-die packet pools and HBM pools (spec 13). -/

namespace Sys2Proof.Machine

/-- Cells of pool k (Table 13.1). -/
def poolCells (k : Nat) : Nat := match k with | 0 => 131072 | 1 => 16384 | 2 => 4096 | _ => 496

/-- Cell size of pool k. -/
def cellSize (k : Nat) : Nat := match k with | 0 => 128 | 1 => 512 | 2 => 2048 | _ => 16384

/-- First-choice pool for a number of octets; 4 when no pool holds it (R420). -/
def poolFor (n : Nat) : Nat := if n ≤ 128 then 0 else if n ≤ 512 then 1 else if n ≤ 2048 then 2 else if n ≤ 16384 then 3 else 4

/-- Pool k of reach r. -/
def Mach.pool (m : Mach) (r k : Nat) : PoolSt := mget {} m.dp.pools (4 * r + k)

/-- The machine with a pool replaced. -/
def Mach.setPool (m : Mach) (r k : Nat) (p : PoolSt) : Mach := { m with dp.pools := mset {} m.dp.pools (4 * r + k) p }

/-- Free cells of pool k (R421). -/
def PoolSt.free (p : PoolSt) (k : Nat) : Nat := p.freed.length + (poolCells k - p.fresh)

/-- The head of the free list; none when the pool is empty. -/
def PoolSt.head (p : PoolSt) (k : Nat) : Option Nat :=
  match p.freed with
  | x :: _ => some x
  | [] => if p.fresh < poolCells k then some p.fresh else none

/-- The free list without its head. -/
def PoolSt.popped (p : PoolSt) : PoolSt :=
  match p.freed with
  | _ :: r => { p with freed := r }
  | [] => { p with fresh := p.fresh + 1 }

/-- The requests of one arbitration in the order they are served: by code from the rotation state, wrapping at n (R426). -/
def served {α : Type} (n rot : Nat) (code : α → Nat) (l : List α) : List α :=
  (List.range n).flatMap fun j => l.filter fun q => decide (code q = (rot + j) % n)

/-- A request for a cell: what its side word would hold, and its first-choice pool. -/
structure CellReq where
  word : CellRec
  first : Nat
deriving DecidableEq, Repr

/-- A request granted cell i of pool k: the cell leaves the free list, and the rotation state is the owner's code plus one. -/
def Mach.cellGrant (m : Mach) (r k i : Nat) (q : CellReq) : Mach :=
  let p := (m.pool r k).popped
  let m := m.setPool r k { p with used := mset none p.used i (some q.word), rot := (q.word.owner + 1) % 64 }
  let m := (m.bump O.bufpAllocs (4 * r + k)).peak O.bufpFreeMin (4 * r + k) (poolCells k - (m.pool r k).free k)
  if k = q.first then m else m.bump O.bufpFallbackIn (4 * r + k)

/-- One arbitration of pool k (R426): the requests granted with their cells, those that found none left, and the machine. -/
def Mach.poolArb (m : Mach) (r k : Nat) (l : List CellReq) : List (CellReq × (Nat × Nat)) × List CellReq × Mach :=
  (served 64 (m.pool r k).rot (fun q => q.word.owner) l).foldl (fun a q =>
    match (a.2.2.pool r k).head k with
    | some i => (a.1 ++ [(q, (k, i))], a.2.1, a.2.2.cellGrant r k i q)
    | none => (a.1, a.2.1 ++ [q], a.2.2)) ([], [], m)

/-- The requests pending together at a reach (R423, R426): each pool arbitrates over those whose first choice it is and those that the smaller pools
turned away; one that no pool grants is refused and counted in BUFP-EXHAUSTED. -/
def Mach.cellArb (m : Mach) (r : Nat) (l : List CellReq) : List (CellReq × (Nat × Nat)) × Mach :=
  let a := (List.range 4).foldl (fun a k =>
    let b := a.2.2.poolArb r k (a.2.1 ++ l.filter fun q => decide (q.first = k))
    (a.1 ++ b.1, b.2)) (([] : List (CellReq × (Nat × Nat))), ([] : List CellReq), m)
  (a.1, a.2.1.foldl (fun m q => m.bump O.bufpExhausted (4 * r + q.first)) a.2.2)

/-- Cell for n octets under an owner (R420, R423), the one request that a command makes pending (log entry 178): the cell unless every pool refused,
and the machine. BUFR-OVERSIZE counts what no pool holds. -/
def Mach.cellAlloc (m : Mach) (r n : Nat) (x : CellRec) : Option (Nat × Nat) × Mach :=
  if poolFor n = 4 then (none, m.bump O.bufrOversize r)
  else
    let a := m.cellArb r [{ word := x, first := poolFor n }]
    (a.1.head?.map (·.2), a.2)

/-- Ingress occupancy of a breakout port and class in octets (R425). -/
def Mach.ingressOcc (m : Mach) (b cls : Nat) : Nat :=
  let r := b / 128
  (List.range 4).foldl (fun a k =>
    (m.pool r k).used.foldl (fun a p =>
      match p.2 with
      | some x => if x.bport = b ∧ x.cls = cls ∧ x.owner ≤ 17 then a + cellSize k else a
      | none => a) a) 0

/-- Cells an owner holds in pool k of reach r (BUF-OWNER). -/
def Mach.ownerCells (m : Mach) (r k owner : Nat) : Nat :=
  ((m.pool r k).used.filter fun p => match p.2 with | some x => decide (x.owner = owner) | none => false).length

/-- The side word of a cell (R421). -/
def Mach.cellOf (m : Mach) (r : Nat) (i : Nat × Nat) : Option CellRec := mget none (m.pool r i.1).used i.2

/-- Whether a free or hand-over by an owner passes (R427). -/
def Mach.cellOk (m : Mach) (r : Nat) (i : Nat × Nat) (owner : Nat) : Bool :=
  decide (i.1 < 4 ∧ i.2 < poolCells i.1) && (match m.cellOf r i with | some x => decide (x.owner = owner) | none => false)

/-- A refused free or hand-over (R427): counted, and reported without containment. -/
def Mach.freeFault (m : Mach) (c : ModeCtl) (r k owner : Nat) : Mach :=
  let g := if owner < 16 then 16 * r + owner else 16 * r
  ((m.bump O.bufpFreeFaults (4 * r + k)).rsn c 0x42 (8 * g) 0).faultAt c (blkTile .reach r) 0x0A owner

/-- A free (R427). -/
def Mach.cellFree (m : Mach) (c : ModeCtl) (r : Nat) (i : Nat × Nat) (owner : Nat) : Mach :=
  if m.cellOk r i owner then
    let p := m.pool r i.1
    m.setPool r i.1 { p with freed := i.2 :: p.freed, used := mset none p.used i.2 none }
  else m.freeFault c r i.1 owner

/-- A hand-over (R428): whether it passed, and the machine. -/
def Mach.handOver (m : Mach) (c : ModeCtl) (r : Nat) (i : Nat × Nat) (src dst : Nat) : Bool × Mach :=
  if m.cellOk r i src then
    let p := m.pool r i.1
    let x := (m.cellOf r i).getD ⟨0, 0, 0⟩
    (true, m.setPool r i.1 { p with used := mset none p.used i.2 (some { x with owner := dst }) })
  else (false, m.freeFault c r i.1 src)

/-- Owner code of the ingress writer of a breakout port (Table 13.3). -/
def inOwner (b : Nat) : Nat := b / 8 % 16

/-- The ingress writer's quota check (R424). -/
def Mach.quotaOk (m : Mach) (b cls n : Nat) : Bool :=
  decide (m.ingressOcc b cls + cellSize (poolFor n) ≤ 1024 * m.ent O.bufQuota (b / 128) (8 * (b % 128) + cls))

/-! HBM pools (R429 to R437). -/

/-- Primary stack of a basin (R392). -/
def primStack (b : Nat) : Nat := 2 * (b / 4) + b % 2

/-- The mirror partner of a stack (R390). -/
def partner (s : Nat) : Nat := (s + 4) % 8

/-- The two basins whose primary stack it is (R430). -/
def stackBasins (s : Nat) : List Nat := [4 * (s / 2) + s % 2, 4 * (s / 2) + 2 + s % 2]

/-- HBM pool p = 2s + k. -/
def Mach.hpool (m : Mach) (p : Nat) : HPool := mget {} m.dp.hpools p

/-- The machine with an HBM pool replaced. -/
def Mach.setHpool (m : Mach) (p : Nat) (x : HPool) : Mach := { m with dp.hpools := mset {} m.dp.hpools p x }

/-- Buffer size of HBM pool p (Table 13.4). -/
def bufSize (p : Nat) : Nat := if p % 2 = 0 then 4096 else 8192

/-- Whether the modes keep the stacks (R416, Table 13.5). -/
def stacksOn (c : ModeCtl) : Bool :=
  match c.mode with
  | .dark | .pilot | .quench => false
  | _ => true

/-- Whether a stack is lost (R415, R417): its controller block is isolated, as it is with its die, or being reset. -/
def Mach.stackLost (m : Mach) (s : Nat) : Bool :=
  decide (2 ≤ (m.cont (416 + s)).level) || (m.cont (416 + s)).resetting || (m.cont (416 + s)).hostReset

/-- Whether a stack has rejoined and is not yet rebuilt (R415). -/
def Mach.stackStale (m : Mach) (s : Nat) : Bool := mget false m.flt.rebuild s

/-- HPL-STATE (Table 13.6). -/
def Mach.hpoolState (m : Mach) (c : ModeCtl) (p : Nat) : Nat :=
  if !stacksOn c then 4
  else if m.stackLost (p / 2) then 3
  else if (m.hpool p).rebuilding then 2
  else if (m.hpool p).frozen then 1 else 0

/-- The stack a basin's pools are on: its primary, or the partner while the primary is lost (R437). -/
def Mach.poolStack (m : Mach) (b : Nat) : Nat := if m.stackLost (primStack b) then partner (primStack b) else primStack b

/-- Free indices of a pool: the head, and the pool without it. -/
def HPool.pop (x : HPool) : Nat × HPool :=
  match x.freed with
  | i :: r => (i, { x with freed := r, free := x.free - 1, stock := x.stock - 1 })
  | [] => (x.fresh, { x with fresh := x.fresh + 1, free := x.free - 1, stock := x.stock - 1 })

/-- Charge or release octets in HRQ-INUSE (R430). -/
def Mach.hrqAdd (m : Mach) (b n : Nat) : Mach := m.wr O.hrqInuse b (m.rd O.hrqInuse b + n)

/-- The outcome of an HBM allocation: a buffer, refused, or waiting for the link read that fills the stock of a pool. -/
inductive HGrant where
  | got (p buf : Nat)
  | refused
  | wait (p : Nat)
deriving DecidableEq, Repr

/-- One pool's grant: taken where it is ACTIVE and has a free buffer in stock. -/
def Mach.hpoolTake (m : Mach) (c : ModeCtl) (b p : Nat) : HGrant × Mach :=
  let x := m.hpool p
  if m.hpoolState c p ≠ 0 ∨ x.free = 0 then (.refused, m)
  else if x.stock = 0 then (.wait p, m.bump O.hplStockWaits p)
  else
    let r := x.pop
    let m := (m.setHpool p { r.2 with rot := (b + 1) % 16, charge := mset 0 x.charge b (mget 0 x.charge b + bufSize p) }).hrqAdd b (bufSize p)
    (.got p r.1, (m.bump O.hplAllocs p).peak O.hplFreeMin p (262144 - r.2.free))

/-- A request for an HBM buffer: the basin, and whether it is for a bitmap. -/
abbrev HbmAsk := Nat × Bool

/-- First-choice pool on stack s: H4K for an export buffer, H8K for a bitmap (R431). -/
def firstPool (s : Nat) (q : HbmAsk) : Nat := 2 * s + if q.2 then 1 else 0

/-- One arbitration of an HBM pool under R426, with basin numbers as codes (R431): the requests granted or made to wait, those it refused, and the machine. -/
def Mach.hpoolServe (m : Mach) (c : ModeCtl) (p : Nat) (l : List HbmAsk) : List (HbmAsk × HGrant) × List HbmAsk × Mach :=
  (served 16 (m.hpool p).rot (fun q => q.1) l).foldl (fun a q =>
    match a.2.2.hpoolTake c q.1 p with
    | (.refused, m) => (a.1, a.2.1 ++ [q], m)
    | (g, m) => (a.1 ++ [(q, g)], a.2.1, m)) ([], [], m)

/-- The requests pending together at the pools of stack s (R431): quota, the first choice, then the larger pool; the outcome of each that is not refused,
and the machine. -/
def Mach.hpoolArb (m : Mach) (c : ModeCtl) (s : Nat) (l : List HbmAsk) : List (HbmAsk × HGrant) × Mach :=
  let tooMany := fun (q : HbmAsk) => decide (1048576 * m.rd O.hrqLimit q.1 < m.rd O.hrqInuse q.1 + bufSize (firstPool s q))
  let m1 := (l.filter tooMany).foldl (fun m q => (m.bump O.hrqQuotaRefused q.1).rsnB c 0x40 q.1) m
  let l := l.filter fun q => !tooMany q
  let a := m1.hpoolServe c (2 * s) (l.filter fun q => !q.2)
  let b := a.2.2.hpoolServe c (2 * s + 1) (a.2.1 ++ l.filter fun q => q.2)
  (a.1 ++ b.1, b.2.1.foldl (fun m q => (m.bump O.hplExhausted (firstPool s q)).rsnB c 0x41 q.1) b.2.2)

/-- An HBM allocation by one basin (R431), the one request that a command makes pending (log entry 178). -/
def Mach.hpoolAlloc (m : Mach) (c : ModeCtl) (b : Nat) (bitmap : Bool) : HGrant × Mach :=
  let a := m.hpoolArb c (m.poolStack b) [(b, bitmap)]
  ((a.1.head?.map (·.2)).getD .refused, a.2)

/-- Whether the modes let an HBM buffer be allocated (Table 13.5): export buffers while flare appends (R533), bitmaps also in TRIM, in PROBE, and in PRIMED
once a basin runs. -/
def Mach.mayTake (m : Mach) (c : ModeCtl) (bitmap : Bool) : Bool :=
  match c.mode with
  | .lit | .lean | .guard | .ebb => true
  | .trim | .probe => bitmap
  | .primed => bitmap && (List.range 16).any fun v => decide (m.fst (fnNum .basin v) = .running)
  | _ => false

/-- The index that a buffer linked at the head of the free list holds (R429). -/
def HPool.link (x : HPool) : Nat :=
  match x.freed with
  | i :: _ => i
  | [] => if x.fresh < 262144 then x.fresh else 0xFFFFFFFF

/-! What stands in a buffer that two hold (R433). -/

/-- Octets d at place pos after octets l have been written at place o. -/
def overlay (pos o : Nat) (l d : List Byte) : List Byte := d.mapIdx fun j y => if o ≤ pos + j then l.getD (pos + j - o) y else y

/-- An export buffer's records after a write of octets l at place o of its memory: its head takes 16 octets, and each record has a prefix of 4 (R526). -/
def Xb.overlay (x : Xb) (o : Nat) (l : List Byte) : Xb :=
  { x with recs := (x.recs.foldl (fun (a : List FlRec × Nat) r =>
      (a.1 ++ [{ r with data := Machine.overlay (a.2 + 4) o l r.data }], a.2 + 4 + r.data.length)) ([], 16)).1 }

/-- The port whose bit is bit t of octet o of a bitmap, each line being taken as a number of 512 bits (R368). -/
def bitmapPort (o t : Nat) : Nat := 512 * (o / 64) + 8 * (63 - o % 64) + t

/-- A bitmap after a write of octets l at place o of its memory. -/
def PPool.overlay (p : PPool) (o : Nat) (l : List Byte) : PPool :=
  { p with bits := (List.range (8 * l.length)).foldl (fun b j => mset false b (bitmapPort (o + j / 8) (j % 8)) (bit (l.getD (j / 8) 0).toNat (j % 8))) p.bits }

/-- The octets of a bitmap. -/
def PPool.octets (p : PPool) : List Byte :=
  (List.range 8192).map fun o => BitVec.ofNat 8 ((List.range 8).foldl (fun a t => a + if mget false p.bits (bitmapPort o t) then 2 ^ t else 0) 0)

/-- Whether an export buffer, open or queued, or a bitmap stands in a buffer; `own` is the basin whose open buffer does not count. -/
def Mach.bufInUse (m : Mach) (own : Option Nat) (buf : Nat × Nat) : Bool :=
  (m.dp.xbuf.any fun p => decide (some p.1 ≠ own) && (match p.2 with | some x => decide (x.buf = buf) | none => false)) ||
    (m.dp.cols.any fun p => p.2.q.any fun q => match q.2.xb? with | some x => decide (x.buf = buf) | none => false) ||
    m.dp.ppool.any fun p => decide (p.2.buf = some buf)

/-- Octets l written at place o of a buffer, as every other holder of it finds them (R433). -/
def Mach.bufWrite (m : Mach) (own : Option Nat) (buf : Nat × Nat) (o : Nat) (l : List Byte) : Mach :=
  if !m.bufInUse own buf then m
  else
    let put := fun (x : Xb) => if x.buf = buf then x.overlay o l else x
    { m with
      dp.xbuf := m.dp.xbuf.map fun p => (p.1, if some p.1 = own then p.2 else p.2.map put)
      dp.cols := m.dp.cols.map fun p => (p.1, { p.2 with q := p.2.q.map fun q => (q.1, match q.2 with | .buf x => .buf (put x) | i => i) })
      dp.ppool := m.dp.ppool.map fun p => (p.1, if p.2.buf = some buf then p.2.overlay o l else p.2) }

/-- A FAULT notification and record that a pool froze (R434). -/
def Mach.hpoolFreeze (m : Mach) (c : ModeCtl) (p : Nat) : Mach :=
  (m.setHpool p { m.hpool p with frozen := true }).faultAt c (416 + p / 2) 0x0B p

/-- A refused HBM free (R432): counted under 0x42 and reported. -/
def Mach.hpoolFault (m : Mach) (c : ModeCtl) (b p : Nat) : Mach :=
  ((m.bump O.hplFreeFaults p).rsnB c 0x42 b).faultAt c (416 + p / 2) 0x0A p

/-- An HBM free (R432 to R434, R437): the index and the basin's charge are checked, a free to a lost stack is discarded, one that would
raise the free count above the buffers freezes the pool. -/
def Mach.hpoolFree (m : Mach) (c : ModeCtl) (b p i : Nat) : Mach :=
  let x := m.hpool p
  if m.stackLost (p / 2) then m
  else if 262144 ≤ i then m.hpoolFault c b p
  else if m.rd O.hrqInuse b < bufSize p then (m.bump O.hrqUnderflow b).hpoolFault c b p
  else if x.frozen then m.bump O.hplFrozenFrees p
  else if x.free = 262144 then m.hpoolFreeze c p
  else
    let m := (m.setHpool p { x with
      freed := i :: x.freed, free := x.free + 1, charge := mset 0 x.charge b (mget 0 x.charge b - bufSize p) }).wr O.hrqInuse b (m.rd O.hrqInuse b - bufSize p)
    m.bufWrite none (p, i) 0 (octets 4 x.link ++ octets 60 0)

/-- The stack offset of an HBM pool's first buffer (Table 13.4): 8.25 GiB and 9.25 GiB. -/
def poolStart (p : Nat) : Nat := if p % 2 = 0 then 33 * 2 ^ 28 else 37 * 2 ^ 28

/-- A free that names an offset on stack s (R432): the pool it lies in, and there whole buffers from its start. One outside both pools is
counted for H4K: DESIGN CHOICE (log entry 179). -/
def Mach.hpoolFreeAt (m : Mach) (c : ModeCtl) (b s off : Nat) : Mach :=
  let p := 2 * s + if 37 * 2 ^ 28 ≤ off then 1 else 0
  if m.stackLost s then m
  else if off < poolStart (2 * s) ∨ 45 * 2 ^ 28 ≤ off then m.hpoolFault c b (2 * s)
  else if (off - poolStart p) % bufSize p ≠ 0 then m.hpoolFault c b p
  else m.hpoolFree c b p ((off - poolStart p) / bufSize p)

/-- A stock refill (R431): the link of the next free buffer is read into the stock, up to 32. -/
def Mach.hpoolRefill (m : Mach) (p : Nat) : Mach :=
  let x := m.hpool p
  if x.stock < 32 ∧ x.stock < x.free then m.setHpool p { x with stock := x.stock + 1 } else m

/-- Every buffer of a pool linked free in index order (R435). -/
def Mach.hpoolReset (m : Mach) (p : Nat) : Mach := m.setHpool p {}

end Sys2Proof.Machine
end

