-- ==== Sys2Proof/Machine/Parse.lean ====
section
/-! DEFINITION. From a frame to its parse result, flow key and hashes (spec 07), and the logical interface it belongs to
(R242). -/

namespace Sys2Proof.Machine

/-! CRCs (R236): most significant bit first, no reflection, no final inversion. -/

/-- One bit of a 32-bit CRC, n times. -/
def crcBits (poly n : Nat) (v : Nat) : Nat :=
  match n with
  | 0 => v
  | k + 1 => crcBits poly k (if bit v 31 then (v * 2 ^^^ poly) % 2 ^ 32 else v * 2 % 2 ^ 32)

/-- A CRC over octets in order, started at v. -/
def crc (poly : Nat) (v : Nat) (l : List Byte) : Nat := l.foldl (fun v b => crcBits poly 8 (v ^^^ b.toNat * 2 ^ 24)) v

/-- CRC-32C. -/
def crc32c (v : Nat) (l : List Byte) : Nat := crc 0x1EDC6F41 v l

/-- CRC-32 of IEEE 802.3. -/
def crc32 (v : Nat) (l : List Byte) : Nat := crc 0x04C11DB7 v l

/-- A 32-bit right rotation (R263, R281). -/
def ror32 (v n : Nat) : Nat := (v >>> (n % 32) ||| v <<< (32 - n % 32)) % 2 ^ 32

/-! Logical interface and class at entry. -/

/-- Whether the EtherType at octet 12 is one of the three tags (R207). -/
def isTag (t : Nat) : Bool := t = 0x8100 || t = 0x88A8 || t = 0x9100

/-- Offset of the EtherType after one or two tags (R207). -/
def etherOff (d : List Byte) : Nat := if isTag (oct d 12 2) then (if isTag (oct d 16 2) then 20 else 16) else 12

/-- Whether a LIF-MAP entry matches a frame at one of the three steps of R242. -/
def lifMatch (d : List Byte) (step e j : Nat) : Bool :=
  let kind := fld 4 e 0 1
  let tpid := oct d 12 2
  let tagged := tpid = 0x8100 || tpid = 0x88A8
  decide (fld 4 e 1 1 = j) &&
    (match step with
     | 0 => kind = 2 && tagged && fld 4 e 2 2 = oct d 14 2 % 4096
     | 1 => kind = 1 && tpid ≠ 0x9100 && (!tagged || oct d 14 2 % 4096 = 0)
     | _ => kind = 3)

/-- The logical interface of a frame of breakout port b, or of FlexE client k of its group (R242). -/
def Mach.lifOf (m : Mach) (b client : Nat) (d : List Byte) : Option Nat :=
  let n := b / 8
  if m.rdB O.pgFlexe n && bit (m.rd O.flxMembers n) (b % 8) then (if client < 64 then some (64 * n + client) else none)
  else
    let pick := fun step => (List.range 64).find? fun i => lifMatch d step (m.ent O.lifMap n i) (b % 8)
    (match pick 0 with
     | some i => some i
     | none => match pick 1 with
       | some i => some i
       | none => pick 2).map (64 * n + ·)

/-- Traffic class at entry (R207). -/
def Mach.tcOf (m : Mach) (l : Nat) (d : List Byte) : Nat :=
  let dflt := m.rd O.lifTcDefault l % 8
  match m.rd O.lifTcSource l with
  | 1 => if isTag (oct d 12 2) then fld 8 (m.rd O.pcpTcMap) (oct d 14 1 / 32) 1 % 8 else dflt
  | 2 =>
    let o := etherOff d
    if oct d o 2 = 0x0800 then fld 64 (m.rd O.dscpTcMap) (oct d (o + 3) 1 / 4) 1 % 8
    else if oct d o 2 = 0x86DD then fld 64 (m.rd O.dscpTcMap) (oct d (o + 2) 2 / 64 % 64) 1 % 8
    else dflt
  | _ => dflt

/-! The parse. -/

/-- An octet of a frame; beyond its end the spec states no value, so it is free (log entry 2). A context holds the first 512 octets (R218), and what a field
beyond them reads in a longer frame is not stated: DESIGN CHOICE, the frame's own octets (log entry 162). -/
def frameOct (d : List Byte) (fill k : Nat) : Nat :=
  match d[k]? with
  | some b => b.toNat
  | none => (Config.freeValue (fill + k)).toNat % 256

/-- The field of w bits at bit offset o of the header at octet off (R220). -/
def hdrField (d : List Byte) (fill off o w : Nat) : Nat :=
  let first := off + o / 8
  let n := (o % 8 + w + 7) / 8
  let v := (List.range n).foldl (fun a k => a * 256 + frameOct d fill (first + k)) 0
  (v >>> (8 * n - o % 8 - w)) % 2 ^ w

/-- Place of an extract destination in the result (Tables 7.3, 7.5): octet, size, and the widths allowed. -/
def destSlot (c : Nat) : Option (Nat × Nat × Nat × Nat) :=
  match c with
  | 1 => some (20, 6, 1, 48) | 2 => some (26, 6, 1, 48) | 3 => some (32, 2, 1, 16) | 4 => some (34, 2, 1, 16)
  | 5 => some (36, 2, 1, 16) | 6 => some (38, 1, 1, 8) | 7 => some (39, 1, 1, 8) | 8 => some (40, 1, 1, 8) | 9 => some (41, 1, 1, 8)
  | 10 => some (42, 3, 1, 20) | 11 => some (48, 16, 128, 128) | 12 => some (48, 16, 32, 32) | 13 => some (64, 16, 128, 128)
  | 14 => some (64, 16, 32, 32) | 15 => some (80, 2, 1, 16) | 16 => some (82, 2, 1, 16) | 17 => some (84, 4, 1, 32)
  | _ => if 18 ≤ c ∧ c ≤ 25 then some (88 + 4 * (c - 18), 4, 1, 32) else none

/-- A field of the parse result (Table 7.5). -/
def resF (res off n : Nat) : Nat := fld 192 res off n

/-- FLAGS bit k of the result (Table 7.6). -/
def resFlag (res k : Nat) : Bool := bit (resF res 0 2) k

/-- The result with FLAGS bit k set. -/
def setFlag (res k : Nat) : Nat := setFld 192 res 0 2 (resF res 0 2 ||| 2 ^ k)

/-- The four extracts of a state record applied (R221). -/
def applyExtracts (d : List Byte) (fill st off res : Nat) : Nat :=
  (List.range 4).foldl (fun res k =>
    let e := fld 32 st (16 + 4 * k) 4
    let w := e / 256 % 256
    match destSlot (e % 256) with
    | some (o, n, _, _) =>
      if w = 0 then res
      else
        let v := hdrField d fill off (e / 65536) w
        setFld 192 res o n (if e % 256 = 12 ∨ e % 256 = 14 then v + 0xFFFF * 2 ^ 32 else v)
    | none => res) res

/-- A length conflict (Table 7.4): none, or one with the lengths it names, each as the end of the extent it would give: FRAME is
always open to be used, IP and UDP where named. -/
structure Conflict where
  named : Bool
  ip : Option Nat
  udp : Option Nat
deriving DecidableEq, Repr

/-- Where a parse stands. -/
structure ParseSt where
  off : Nat := 0
  state : Nat := 0
  start : Nat := 0
  ext : Nat
  src : Nat := 0
  count : Nat := 0
  res : Nat := 0
  steps : Nat := 0
  conflicts : Nat := 0
  trusted : Nat := 0
  drop : Bool := false
  host : Bool := false
deriving DecidableEq, Repr

/-- Lengths of Table 7.4 for the header at off of length len; answers a conflict, or the extent (start, end, source) after a pass. -/
def lengthCheck (d : List Byte) (fill pad chk len : Nat) (p : ParseSt) : Conflict ⊕ (Nat × Nat × Nat) :=
  let off := p.off
  let n := d.length
  let f := hdrField d fill off
  let extSrc : Conflict := { named := true, ip := if p.src = 1 then some p.ext else none, udp := if p.src = 2 then some p.ext else none }
  let ip := fun total =>
    if n < off + total ∨ off + total + pad < n then Sum.inl ⟨true, some (off + total), none⟩ else Sum.inr (off, off + total, 1)
  match chk with
  | 1 => if f 4 4 < 5 ∨ f 16 16 < f 4 4 * 4 then .inl ⟨false, none, none⟩ else ip (f 16 16)
  | 2 => ip (40 + f 32 16)
  | 3 => if p.ext < off + len then .inl extSrc else .inr (p.start, p.ext, p.src)
  | 4 => if p.ext < off + len then .inl extSrc else .inr (p.start, p.ext, p.src)
  | 5 =>
    let u := f 32 16
    if u < 8 ∨ off + u ≠ p.ext then .inl { extSrc with udp := some (off + u) } else .inr (p.start, p.ext, p.src)
  | 6 =>
    if f 96 4 < 5 then .inl ⟨false, none, none⟩
    else if p.ext < off + len then .inl extSrc else .inr (p.start, p.ext, p.src)
  | _ => .inr (p.start, p.ext, p.src)

/-- The first matching transition's next state, else DEFAULT-NEXT (R222). -/
def Mach.nextState (m : Mach) (bind st sel : Nat) : Nat :=
  let base := fld 32 st 12 2
  match (List.range (fld 32 st 11 1)).find? fun k =>
      let t := m.ent O.pbTrans bind (base + k)
      decide (sel &&& fld 12 t 4 4 = fld 12 t 0 4 &&& fld 12 t 4 4) with
  | some k => fld 12 (m.ent O.pbTrans bind (base + k)) 8 1
  | none => fld 32 st 14 1

/-- What a header checked under LCHK IPV4 or IPV6-FRAG shows of a fragment (R224): its offset, and the result with its flags. -/
def fragmentOf (d : List Byte) (fill off chk res : Nat) : Nat × Nat :=
  let fo := if chk = 1 then hdrField d fill off 51 13 else if chk = 4 then hdrField d fill off 16 13 else 0
  let more := if chk = 1 then hdrField d fill off 50 1 else if chk = 4 then hdrField d fill off 31 1 else 0
  let frag := decide (fo ≠ 0) || decide (more = 1)
  let res := if frag then setFlag res 6 else res
  (fo, if frag ∧ fo = 0 then setFlag res 5 else res)

/-- The header recorded, with its extracts, MARK and fragment flags (R221, R223, R224); answers the state after it and whether the
parse ends there. -/
def recordHdr (d : List Byte) (fill st len : Nat) (p : ParseSt) (start ext src : Nat) : ParseSt × Bool :=
  let ctrl := fld 32 st 1 1
  let chk := ctrl / 8 % 8
  let res := applyExtracts d fill st p.off p.res
  let res := setFld 192 (setFld 192 res (120 + p.count) 1 (fld 32 st 0 1)) (144 + 2 * p.count) 2 p.off
  let res := match ctrl % 8 with
    | 1 => setFlag (setFld 192 res 14 2 p.off) 8
    | 2 => setFlag (setFld 192 res 16 2 p.off) 7
    | 3 => setFlag res 4
    | _ => res
  let (fo, res) := fragmentOf d fill p.off chk res
  let res := setFld 192 res 12 2 (p.off + len)
  let start := if ctrl % 8 = 1 ∧ src = 0 then p.off else start
  ({ p with res := res, count := p.count + 1, start := start, ext := ext, src := src }, bit ctrl 6 || decide (fo ≠ 0))

/-- The header steps of R223 with the trust rules of R230, at most `fuel` of them; `bind` is the binding's instance 32r + k. Under HOST a conflict does
not end the parse: the header in conflict is not recorded (R223), and the parse runs on from it while it ends within the frame and it is no later
fragment (R224). -/
def Mach.parseSteps (m : Mach) (bind : Nat) (d : List Byte) (fill fuel : Nat) (p : ParseSt) : ParseSt :=
  match fuel with
  | 0 => p
  | g + 1 =>
    let st := m.ent O.pbStates bind p.state
    let n := d.length
    let len := fld 32 st 2 2 + hdrField d fill p.off (fld 32 st 4 2) (fld 32 st 6 1) <<< (fld 32 st 7 1 % 16)
    let p := { p with steps := p.steps + 1 }
    let truncate := fun (p : ParseSt) (k : Nat) => { p with res := setFlag (setFlag p.res 15) k }
    let goOn := fun (p : ParseSt) (start ext src : Nat) =>
      let (q, stop) := recordHdr d fill st len p start ext src
      if stop then q
      else
        let nx := m.nextState bind st (hdrField d fill p.off (fld 32 st 8 2) (fld 32 st 10 1))
        if nx = 0xFF then q
        else if q.count = 24 then truncate q 13
        else m.parseSteps bind d fill g { q with off := p.off + len, state := nx % 128 }
    let skip := fun (q : ParseSt) =>
      let nx := m.nextState bind st (hdrField d fill p.off (fld 32 st 8 2) (fld 32 st 10 1))
      let (fo, res) := fragmentOf d fill p.off (fld 32 st 1 1 / 8 % 8) q.res
      let q := { q with res := res }
      if bit (fld 32 st 1 1) 6 ∨ nx = 0xFF ∨ fo ≠ 0 then q else m.parseSteps bind d fill g { q with off := p.off + len, state := nx % 128 }
    let conflict := fun (x : Conflict) =>
      let p := { p with conflicts := p.conflicts + 1, res := setFlag p.res 12 }
      match m.rd O.pbLenAction bind with
      | 1 =>
        let want := m.rd O.pbLenSource bind
        let pick := if want = 1 then x.ip.map (·, 1) else if want = 2 then x.udp.map (·, 2) else none
        let (e, s) := pick.getD (n, 0)
        if n < e then { p with drop := true }
        else
          let p := { p with trusted := p.trusted + 1, res := setFlag p.res 11 }
          let start := if fld 32 st 1 1 / 8 % 8 = 1 ∨ fld 32 st 1 1 / 8 % 8 = 2 then p.off else p.start
          if !x.named ∨ e < p.off + len ∨ n < p.off + len then { p with ext := e, src := s }
          else if 512 < p.off + len then truncate { p with ext := e, src := s } 14
          else goOn p start e s
      | 2 =>
        if !m.puntOn then { p with drop := true }
        else if len = 0 ∨ n < p.off + len then { p with host := true }
        else if 512 < p.off + len then truncate { p with host := true } 14
        else skip { p with host := true }
      | _ => { p with drop := true }
    if len = 0 then conflict ⟨false, none, none⟩
    else if n < p.off + len then conflict ⟨true, none, none⟩
    else if 512 < p.off + len then truncate p 14
    else
      match lengthCheck d fill (m.rd O.pbPadMax bind) (fld 32 st 1 1 / 8 % 8) len p with
      | .inl x => conflict x
      | .inr (start, ext, src) => goOn p start ext src

/-- A frame parsed under a binding's program (R218, R232): the result without key flags, and the steps. Offsets not set are 0xFFFF. -/
def Mach.parse (m : Mach) (bind : Nat) (d : List Byte) (fill : Nat) : ParseSt :=
  let res0 := setFld 192 (setFld 192 (setFld 192 0 14 2 0xFFFF) 16 2 0xFFFF) 144 48 (2 ^ 384 - 1)
  m.parseSteps bind d fill 537 { ext := d.length, res := res0 }

/-! Keys and hashes (R233 to R236). -/

/-- A key of 48 octets under a profile and field mask, and whether it was swapped (R233 to R235). A fragment without L3-VALID has no stated octets 38 and
39 under ZERO-ALL: DESIGN CHOICE, they keep the ETHERTYPE of bit 4 (log entry 164). -/
def Mach.keyOf (m : Mach) (prof mask res tenant lif : Nat) : Nat × Bool :=
  let f := fun k => bit mask k
  let l3 := resFlag res 8
  let zeroPorts := resFlag res 6 && decide (m.rd O.kpFrag prof = 1)
  let proto := if f 0 && l3 then resF res 38 1 else 0
  let sa := if f 1 then (if l3 then resF res 48 16 else resF res 26 6) else 0
  let da := if f 2 then (if l3 then resF res 64 16 else resF res 20 6) else 0
  let sp := if f 3 && l3 && !zeroPorts then resF res 80 2 else 0
  let dp := if f 4 then (if l3 then (if zeroPorts then 0 else resF res 82 2) else resF res 36 2) else 0
  let tun := if f 5 then resF res 84 4 else 0
  let gen := if f 6 then resF res (88 + 4 * (m.rd O.kpGenSlot prof % 8)) 4 else if f 7 then lif else 0
  let swap := m.rdB O.kpSymmetric prof && decide (da * 65536 + dp < sa * 65536 + sp)
  let mk := fun sa da sp dp => pack [(2, tenant), (1, prof), (1, proto), (16, sa), (16, da), (2, sp), (2, dp), (4, tun), (4, gen)]
  (if swap then mk da sa dp sp else mk sa da sp dp, swap)

/-- The flow hash of a key (R236). -/
def Mach.flowHash (m : Mach) (key : Nat) : Nat :=
  let k := octets 48 key
  crc32c (m.rd O.flowSeed / 2 ^ 32) k * 2 ^ 32 + crc32 (m.rd O.flowSeed % 2 ^ 32) k

/-- The key profile of a tenant. -/
def Mach.tenProfile (m : Mach) (t : Nat) : Nat := m.ent O.tenKeyProfile 0 t % 64

end Sys2Proof.Machine
end

