-- ==== Sys2Proof/Machine/Reach.lean ====
section
/-! DEFINITION. What every stage of a reach shares: packets and channels, drops, punts, holds, pause, and the flow query
(spec 04 R125 to R129, 05 R175 to R177, 06 R203, 10 R331 to R341, 14 R445). -/

namespace Sys2Proof.Machine

/-! Packets, reaches, channels. -/

/-- A packet by its number. -/
def Mach.pkt (m : Mach) (p : Nat) : Option Pkt := mget none m.dp.pkts p

/-- The machine with a packet replaced or removed. -/
def Mach.setPkt (m : Mach) (p : Nat) (x : Option Pkt) : Mach := { m with dp.pkts := mset none m.dp.pkts p x }

/-- Reach r. -/
def Mach.rch (m : Mach) (r : Nat) : Rch := mget {} m.dp.rch r

/-- The machine with a reach replaced. -/
def Mach.setRch (m : Mach) (r : Nat) (x : Rch) : Mach := { m with dp.rch := mset {} m.dp.rch r x }

/-- Breakout port b. -/
def Mach.port (m : Mach) (b : Nat) : PortSt := mget {} m.dp.ports b

/-- The machine with a port replaced. -/
def Mach.setPort (m : Mach) (b : Nat) (x : PortSt) : Mach := { m with dp.ports := mset {} m.dp.ports b x }

/-- Basin b. -/
def Mach.basin (m : Mach) (b : Nat) : Bsn := mget {} m.dp.bsn b

/-- The machine with a basin replaced. -/
def Mach.setBasin (m : Mach) (b : Nat) (x : Bsn) : Mach := { m with dp.bsn := mset {} m.dp.bsn b x }

/-- The packets of a reach that a test holds of. -/
def Mach.pktsIn (m : Mach) (r : Nat) (f : Pkt → Bool) : List (Nat × Pkt) :=
  m.dp.pkts.filterMap fun p => match p.2 with
    | some x => if x.reach = r ∧ f x then some (p.1, x) else none
    | none => none

/-- Octets of a list of packets. -/
def Mach.octsOf (m : Mach) (l : List Nat) : Nat :=
  l.foldl (fun a p => match m.pkt p with | some x => a + x.data.length | none => a) 0

/-- Lane handles held in a reach (R331). -/
def Mach.handles (m : Mach) (r : Nat) : Nat := (m.pktsIn r fun x => x.lane.isSome).length

/-- Taper contexts that hold frames: in the parse, or parsed and without a slot of the match lanes yet (R218, R247). -/
def Mach.ctxBusy (m : Mach) (r : Nat) : Nat := (m.pktsIn r fun x => decide (x.stage = .ctx ∨ (x.stage = .parsed ∧ x.inCtx = true))).length

/-- Channel k of the pair of reaches i and e (R441). -/
def chanNum (i e k : Nat) : Nat := 32 * i + 4 * e + k

/-- The channel set a channel belongs to; none between reaches of one core die. -/
def chanSet (n : Nat) : Option Nat :=
  let i := n / 32 / 2
  let e := n / 4 % 8 / 2
  if i = e then none else some (chsetOf i e)

/-- A channel. -/
def Mach.chan (m : Mach) (n : Nat) : ChSt := mget {} m.dp.chans n

/-- The machine with a channel replaced. -/
def Mach.setChan (m : Mach) (n : Nat) (x : ChSt) : Mach := { m with dp.chans := mset {} m.dp.chans n x }

/-- Whether what stands on a channel moves: its set runs, or is relayed (R466, R595). -/
def Mach.chanOpen (m : Mach) (n : Nat) : Bool :=
  match chanSet n with
  | none => true
  | some k => m.running .chset k || decide (m.rd O.fltChState n = 2)

/-- Whether no channel and no relay joins two reaches: the set of their dies is isolated and not relayed (R595). -/
def Mach.cutOff (m : Mach) (i e : Nat) : Bool :=
  match chanSet (chanNum i e 0) with
  | none => false
  | some k => m.isolated .chset k && decide (m.rd O.fltChState (chanNum i e 0) ≠ 2)

/-- The channel used where channel k of a pair is named: the first that has not failed in the order k, k + 1, k + 2, k + 3 (R594). -/
def Mach.chanFor (m : Mach) (i e k : Nat) : Nat :=
  match [0, 1, 2, 3].find? fun j => decide (m.rd O.fltChState (chanNum i e ((k + j) % 4)) ≠ 1) with
  | some j => chanNum i e ((k + j) % 4)
  | none => chanNum i e (k % 4)

/-- A packet or event that newly meets a channel whose set does not run is counted in its FN-MET (R125). -/
def Mach.metChan (m : Mach) (n : Nat) : Mach :=
  match chanSet n with
  | some k => if m.running .chset k then m else m.met (fnNum .chset k)
  | none => m

/-- A packet towards a breakout port meets its port group, which counts it where it does not run (R125). -/
def Mach.metPort (m : Mach) (b : Nat) : Mach := if m.running .pgroup (b / 8) then m else m.met (fnNum .pgroup (b / 8))

/-- A message posted on a channel (R445). -/
def Mach.post (m : Mach) (i e k : Nat) (x : Msg) : Mach :=
  let n := m.chanFor i e k
  let h := m.chan n
  let m := m.setChan n { h with msgs := h.msgs ++ [x] }
  match x with
  | .query .. => m.metChan n
  | .event .. => m.metChan n
  | _ => m

/-- The first open channel of a list whose head message passes a test, with the message taken off it: it has been sent (R472). -/
def Mach.takeMsg (m : Mach) (chs : List Nat) (f : Msg → Bool) : Option (Msg × Mach) :=
  match chs with
  | [] => none
  | n :: r =>
    match (m.chan n).msgs with
    | x :: t => if m.chanOpen n && f x then some (x, (m.setChan n { m.chan n with msgs := t }).bump O.chMsgs n) else m.takeMsg r f
    | [] => m.takeMsg r f

/-- Channels that arrive at reach e. -/
def chansTo (e : Nat) : List Nat := (List.range 8).flatMap fun i => (List.range 4).map fun k => chanNum i e k

/-! Sharing the flow table (R278, R592, R593). -/

/-- Home basin of a flow hash (R277). -/
def Mach.homeBasin (m : Mach) (h : Nat) : Nat := m.ent O.basinMap 0 (h % 4096) % 16

/-- The basin that serves a share (R592). -/
def Mach.server (m : Mach) (b : Nat) : Nat := m.rd O.fltBasinServer b

/-- Whether a share has no server: the server is contained, or both copies are lost (R593, R599). -/
def Mach.noServer (m : Mach) (b : Nat) : Bool :=
  let s := m.server b
  (decide (s ≠ b) && decide ((m.cont (192 + 4 * s)).level ≠ 0)) || mget false m.flt.lostPair (primStack b % 4) ||
    (m.stackLost (primStack b) && m.stackLost (partner (primStack b)))

/-- Confluence channel of a flow hash (R237). -/
def flowChan (h : Nat) : Nat := h / 2 ^ 24 % 4

/-- A message of a packet to the basin that serves its home share (R334). -/
def Mach.toBasin (m : Mach) (x : Pkt) (msg : Msg) : Mach :=
  m.post x.reach (2 * (m.server (m.homeBasin x.hash) / 4)) (flowChan x.hash) msg

/-- TAG of a packet (Table 9.5); the packet's number serves as its handle (log entry 7). -/
def tagOf (r p : Nat) : Nat := r * 2 ^ 29 + p % 2 ^ 29

/-! RS objects that act while their function does not run (R122). -/

/-- The value of an RS object that acts on traffic: the written one while the function runs or still stops, else the one with which it last ran. -/
def Mach.rsActs (m : Mach) (f : Nat) (o : ObjDef) (i : Nat) : Nat :=
  if m.fst f = .running ∨ m.fst f = .stopping then m.rd o i else mget (o.dfltAt i) m.dp.rsIn (o.key i)

/-- RS objects taken into force when their function reaches RUNNING. -/
def Mach.rsTake (m : Mach) (l : List (ObjDef × Nat)) : Mach :=
  l.foldl (fun m p => { m with dp.rsIn := mset (p.1.dfltAt p.2) m.dp.rsIn (p.1.key p.2) (m.rd p.1 p.2) }) m

/-- RS-FLOW of a rule set as it acts (R250). -/
def Mach.rsFlowIn (m : Mach) (n : Nat) : Nat := m.rsActs (fnNum .ruleset n) O.rsFlow n

/-! What a port's wire carries (R520, R525). -/

/-- Whether a port's link state lets frames be started (Table 6.5): in RISING, where queued frames are sent, and in UP. -/
def Mach.linkSends (m : Mach) (b : Nat) : Bool := m.rd O.bpLinkState b = 2 || m.rd O.bpLinkState b = 3

/-- Wire octets of a frame of FRAME-LEN n that a port receives, whatever its MAC makes of it (R525). -/
def Mach.wireIn (m : Mach) (b n : Nat) : Mach :=
  let cb := m.cntPort b
  m.setPort cb { m.port cb with bwRx := (m.port cb).bwRx + n + 24 }

/-- Wire octets of a frame of FRAME-LEN n that a port sends (R525). -/
def Mach.wireOut (m : Mach) (b n : Nat) : Mach :=
  let cb := m.cntPort b
  m.setPort cb { m.port cb with bwTx := (m.port cb).bwTx + n + 24 }

/-- FRAME-LEN of an in-band Clelek frame of n octets: Ethernet header, the VLAN tag if it has one, and the padding of a short frame (R148). -/
def inbandLen (tagged : Bool) (n : Nat) : Nat := max 60 (14 + (if tagged then 4 else 0) + n)

/-- Source of an in-band frame: its port, whether it is tagged, and the sender's MAC address, to which the reply goes (R149). -/
def inbandSrc (b : Nat) (f : ClFrame) : Nat := ((if bit f.src 96 then 1024 else 0) + b) * 2 ^ 48 + f.src % 2 ^ 48

/-- A device frame that has left in band, in the counters of its port; one whose port starts no frames is not sent (Table 17.2, log entry 8). -/
def Mach.inbandCnt (m : Mach) (c : ModeCtl) (dest n : Nat) : Mach :=
  let b := dest / 2 ^ 64 % 1024
  let len := inbandLen (bit dest 74) n
  if m.linkSends b then (m.wireOut b len).frameCnt c b 9 len (bits dest 63 16) else m

/-- The device frames sent in band that have yet to be counted. -/
def Mach.inbandSent (m : Mach) (c : ModeCtl) : Mach :=
  m.clk.inbandTx.foldl (fun m p => m.inbandCnt c p.1 p.2) { m with clk.inbandTx := [] }

/-! Pause and PFC sent (R203). -/

/-- A pause frame sent: class k, or 8 for the port (R203, R520, R525). -/
def Mach.pauseOut (m : Mach) (c : ModeCtl) (b k quanta : Nat) : Mach := ((m.emit (.pause b k quanta)).portCnt c b 14).wireOut b 60

/-- Bring the XOFF of a breakout port and class into line with its ingress occupancy; in PAUSE mode the port's flag is bit 8. A port whose link
state starts no frame sends none (R198). -/
def Mach.fcCheck (m : Mach) (c : ModeCtl) (b cls : Nat) : Mach :=
  let mode := m.rd O.bpFcMode b
  if m.flexMember b then m
  else
    let hi := 1024 * m.rd O.bpXoff b
    let lo := 1024 * m.rd O.bpXon b
    let p := m.port b
    let send := fun (k : Nat) (on : Bool) =>
      let m := m.setPort b { p with xoff := if on then p.xoff ||| 2 ^ k else p.xoff - 2 ^ k, xoffAt := mset 0 p.xoffAt k (if on then m.ns else 0) }
      if m.linkSends b then m.pauseOut c b k (if on then m.rd O.bpPauseQuanta b else 0) else m
    match mode with
    | 1 =>
      let occ := (List.range 8).map fun k => m.ingressOcc b k
      if m.linkSends b && !bit p.xoff 8 && occ.any (fun o => decide (hi ≤ o)) then send 8 true
      else if bit p.xoff 8 && occ.all (fun o => decide (o < lo)) then send 8 false else m
    | 2 =>
      if !bit (m.rd O.bpPfcClasses b) cls then m
      else
        let o := m.ingressOcc b cls
        if m.linkSends b && !bit p.xoff cls && decide (hi ≤ o) then send cls true
        else if bit p.xoff cls && decide (o < lo) then send cls false else m
    | _ => m

/-- Every class of a port brought into line. -/
def Mach.fcAll (m : Mach) (c : ModeCtl) (b : Nat) : Mach := (List.range 8).foldl (fun m k => m.fcCheck c b k) m

/-! Dropping. -/

/-- The owner that a packet's cell is handed on or freed by: the VOQ set once it has it, hold while the packet is held, otherwise its ingress writer
(Table 13.3). -/
def Pkt.owner (x : Pkt) : Nat := if x.voqd then 17 else if x.stage = .held then 16 else inOwner x.bport

/-- A packet's cell freed by its owner, with the pause check that the fall in occupancy brings (R425, R427). -/
def Mach.freeCellOf (m : Mach) (c : ModeCtl) (x : Pkt) : Mach :=
  match x.cell with
  | none => m
  | some i => (m.cellFree c x.reach i x.owner).fcCheck c x.bport x.tc

/-- A packet's cell handed to another owner of its reach (R428). -/
def Mach.handTo (m : Mach) (c : ModeCtl) (x : Pkt) (dst : Nat) : Bool × Mach :=
  match x.cell with
  | some i => m.handOver c x.reach i x.owner dst
  | none => (true, m)

/-- A packet taken out of its ordering lane (R332). -/
def Mach.leaveLane (m : Mach) (p : Nat) (x : Pkt) : Mach :=
  match x.lane with
  | none => m
  | some l =>
    let k := 4096 * x.reach + l
    { m with dp.lanes := mset [] m.dp.lanes k ((mget [] m.dp.lanes k).filter (· ≠ p)) }

/-- A packet's result message, with NO-OP where it is dropped (R297, Table 9.6). -/
def Mach.postResult (m : Mach) (p : Nat) (x : Pkt) (noop : Bool) : Mach :=
  let flags := (if x.w.noCreate then 0x80 else 0) + (if noop then 0x40 else 0)
  m.toBasin x (.result (m.homeBasin x.hash) p (pack [(4, tagOf x.reach p), (4, x.w.dest), (1, x.w.cls), (1, flags), (6, 0)]))

/-- The time a frame has waited in the pre-parse FIFO counts it as delayed, once, as it leaves (R210). -/
def Mach.delayMark (m : Mach) (x : Pkt) : Mach :=
  if x.at_ + m.rd O.ppfDelayMark x.reach ≤ m.ns then m.bump O.ppcDelayed (8 * x.reach + x.tc) else m

/-- A frame lost from where it waits is counted as delayed if it waited long enough in the pre-parse FIFO. -/
def Mach.delayLost (m : Mach) (x : Pkt) : Mach := if x.stage = .fifo then m.delayMark x else m

/-- A packet gone: its cell freed, its lane left, and its basin told to apply nothing where its query has left (R332). -/
def Mach.forget (m : Mach) (c : ModeCtl) (p : Nat) (x : Pkt) : Mach :=
  let m := if x.query.isSome && !x.result then m.postResult p x true else m
  let r := m.rch x.reach
  let m := m.setRch x.reach { r with water := r.water.filter (· ≠ p), rel := r.rel.filter (· ≠ p), gpipe := r.gpipe.filter (· ≠ p) }
  (((m.leaveLane p x).freeCellOf c x).setPkt p none)

/-- A packet dropped because its cell's hand-over failed (R428): the failure has counted it under 0x42, and the cell stays allocated to its recorded owner. -/
def Mach.handFail (m : Mach) (c : ModeCtl) (p : Nat) (x : Pkt) : Mach := m.forget c p { x with cell := none }

/-- A packet dropped under a reason, counted against its ingress port and class (Table 17.3). -/
def Mach.drop (m : Mach) (c : ModeCtl) (p : Nat) (x : Pkt) (code : Nat) : Mach := (m.forget c p x).rsn c code x.bport x.w.tc

/-! Punting (R175, R177). -/

/-- A packet put in its class's punt queue; one that finds it full is dropped under 0x40. -/
def Mach.puntPut (m : Mach) (c : ModeCtl) (b tc : Nat) (x : HostPkt) : Mach :=
  let q := mget [] m.clk.puntQ tc
  if q.foldl (fun a y => a + y.data.length) 0 + x.data.length ≤ 262144 then
    { m with clk.puntQ := mset [] m.clk.puntQ tc (q ++ [x]) }
  else (m.bump O.hpPuntDrop tc).rsn c 0x40 b tc

/-- A packet's copy for the host under a reason and rule reference. -/
def Mach.puntOf (m : Mach) (c : ModeCtl) (x : Pkt) (reason ref : Nat) : Mach :=
  m.puntPut c x.bport x.w.tc
    { lif := x.lif, tc := x.w.tc, reason := reason, tenant := x.tenant, ruleRef := ref, ts := x.ts, tag := 0, pipeline := false, data := x.data }

/-- A packet punted and not forwarded, or dropped under a code while punt is off. -/
def Mach.punt (m : Mach) (c : ModeCtl) (p : Nat) (x : Pkt) (reason ref off : Nat) : Mach :=
  if m.puntOn then (m.puntOf c x reason ref).forget c p x else m.drop c p x off

/-! Stopped functions (R125 to R129). -/

/-- What a packet that meets a function finds. -/
inductive Meets where
  | run | hold | bypass | drop | faulted
deriving DecidableEq, Repr

/-- The disposition of a function for what newly meets it (R120, R121, R125). -/
def Mach.meets (m : Mach) (f : Nat) : Meets :=
  match m.fst f with
  | .running => .run
  | .faulted => .faulted
  | _ =>
    match (m.fn f).disp with
    | 0 => .hold
    | 1 => .bypass
    | _ => .drop

/-- Octets in a reach's hold buffer (R463): frames held before parsing, and the cells of owner 16. -/
def Mach.holdOcc (m : Mach) (r : Nat) : Nat :=
  (m.pktsIn r fun x => decide (x.stage = .held ∧ x.cell = none)).foldl (fun a p => a + p.2.data.length) 0 +
    (List.range 4).foldl (fun a k => a + m.ownerCells r k 16 * cellSize k) 0

/-- A packet that newly meets a function which does not run is counted in its FN-MET; one that the function has held already has been counted
(R125, R216). -/
def Mach.metBy (m : Mach) (x : Pkt) (f : Nat) : Mach := if x.helds.any (·.1 = f) then m else m.met f

/-- A packet put in the hold buffer for a function (R126, R127, R340): dropped under 0x13 outside LIT, LEAN and GUARD or when the buffer
is full. One held after its query left is PARKed. One that the function has held already goes on with the same hold: it is held once, its age runs
from the moment it met the function, and it is not shed (R129, R216). -/
def Mach.hold (m : Mach) (c : ModeCtl) (p : Nat) (x : Pkt) (f : Nat) : Mach :=
  let size := match x.cell with
    | some i => cellSize i.1
    | none => x.data.length
  if !c.mode.forwards then m.drop c p x 0x13
  else if !(x.helds.any (·.1 = f)) && decide (4194304 < m.holdOcc x.reach + size) then (m.drop c p x 0x13).bump O.holdFullDrop x.reach
  else
    let h := m.handTo c x 16
    let m := h.2
    if !h.1 then m.handFail c p x
    else
      let m := if x.query.isSome then m.toBasin x (.park (m.homeBasin x.hash) p) else m
      let met := (x.helds.find? (·.1 = f)).map (·.2)
      let y := { x with
        stage := .held, heldBy := f, heldAt := met.getD m.ns, released := false, parked := x.parked || x.query.isSome, query := none, inCtx := false
        helds := if met.isSome then x.helds else (f, m.ns) :: x.helds }
      let m := m.setPkt p (some y)
      let m := if met.isSome then m else m.bump O.holdAdmitted x.reach
      m.peak O.holdPeak x.reach (m.holdOcc x.reach)

/-- A function has reached RUNNING: its held packets are released in arrival order (R128, R216). -/
def Mach.release (m : Mach) (f : Nat) : Mach :=
  m.dp.pkts.foldl (fun m p =>
    match p.2 with
    | some x =>
      if x.stage = .held ∧ x.heldBy = f ∧ x.released = false then
        let m := (m.setPkt p.1 (some { x with released := true })).bump O.holdReleased x.reach
        if x.cell = none then
          let r := m.rch x.reach
          m.setRch x.reach { r with rel := r.rel ++ [p.1] }
        else m
      else m
    | none => m) m

/-! The flow query (R250, R296, R327). -/

/-- The query message of a packet (Table 9.5). -/
def queryMsg (p : Nat) (x : Pkt) : Nat :=
  let tcp := decide (resF x.res 38 1 = 6) && resFlag x.res 7
  pack [(48, x.key), (4, x.hash / 2 ^ 32), (4, tagOf x.reach p), (2, x.lif),
    (1, (if resFlag x.res 3 then 0x80 else 0) + (if tcp then 0x40 else 0)), (1, resF x.res 41 1), (2, x.data.length + 4), (2, 0)]

/-- The query decision when a packet's key is built, or when it is released after a PARK: sent, or withheld in the cases of R250, R593,
R601 and Table 4.6. -/
def Mach.query (m : Mach) (c : ModeCtl) (p : Nat) (x : Pkt) : Mach :=
  let go := { x with stage := .parsed, released := false }
  let b := m.homeBasin x.hash
  let f := fnNum .basin (m.server b)
  if resFlag x.res 15 then (m.setPkt p (some go)).rsn c 0x34 x.bport x.w.tc
  else if m.rsFlowIn (64 * x.reach + m.rd O.lifRuleset x.lif % 64) = 1 then m.setPkt p (some go)
  else if m.noServer b || m.cutOff x.reach (2 * (m.server b / 4)) then ((m.setPkt p (some go)).rsn c 0x34 x.bport x.w.tc).rsn c 0x80 x.bport x.w.tc
  else if (m.flt.handback.any fun x => x.1 = b) then (m.metBy x (fnNum .basin b)).hold c p x (fnNum .basin b)
  else
    match m.meets f with
    | .run => (m.setPkt p (some { go with query := some m.ns, parked := false })).toBasin go (.query b p (queryMsg p go))
    | .faulted => (m.met f).drop c p x 0x80
    | .hold => (m.metBy x f).hold c p x f
    | .bypass => ((m.met f).setPkt p (some go)).rsn c 0x34 x.bport x.w.tc
    | .drop => (m.met f).drop c p x 0x13

end Sys2Proof.Machine
end

