-- ==== Sys2Proof/Machine/Ingress.lean ====
section
/-! DEFINITION. From the port to the final stateless result: admission, contexts, parsing, rule passes, holds and verdicts
(spec 06 to 08, 10). -/

namespace Sys2Proof.Machine

/-! Admission (R207, R208, R212, R242). -/

/-- Whether the PCS of a port delivers frames: its group runs, every lane has CDR and marker lock, the lanes are deskewed, and no local fault is
present (R185). -/
def Mach.pcsDelivers (m : Mach) (b : Nat) : Bool :=
  m.running .pgroup (b / 8) && decide ((m.port b).defects &&& 0xB4 = 0)

/-- Whether the PCS corrupts the frames of a port: HI-SER is present (R185). -/
def Mach.corrupts (m : Mach) (b : Nat) : Bool := bit (m.port b).defects 6

/-- A frame that fails its FCS (R185, R520). -/
def Mach.fcsFail (m : Mach) (c : ModeCtl) (b : Nat) : Mach :=
  let m := m.portCnt c b 5
  let cb := m.cntPort b
  m.setPort cb { m.port cb with fcs := (m.port cb).fcs + 1 }

/-- A frame in a reach's FIFO: pre-parse or graph, admitted by its class, or shed under 0x12. Whether PPC-ADMITTED counts the frames of the graph FIFO is
not stated: DESIGN CHOICE, it counts both (log entry 163). -/
def Mach.letIn (m : Mach) (c : ModeCtl) (x : Pkt) : Mach :=
  let r := x.reach
  let n := x.data.length
  let p := m.dp.pktNext
  let q := m.rch r
  let add := fun (m : Mach) (x : Pkt) => { m.setPkt p (some x) with dp.pktNext := p + 1 }
  if m.rd O.lifBinding x.lif = 31 then
    let lim := if x.tc < 6 then 196608 else 262144
    if m.octsOf q.gfifo + n ≤ lim then
      add ((m.setRch r { q with gfifo := q.gfifo ++ [p] }).bump O.ppcAdmitted (8 * r + x.tc)) { x with stage := .graphFifo }
    else (m.bump O.gpfShed r).rsn c 0x12 x.bport x.tc
  else if m.octsOf q.fifo + n ≤ 1024 * m.rd O.ppcShedAt (8 * r + x.tc) then
    let m := add ((m.setRch r { q with fifo := q.fifo ++ [p] }).bump O.ppcAdmitted (8 * r + x.tc)) x
    m.peak O.ppfPeak r (m.octsOf (m.rch r).fifo)
  else (m.bump O.ppcShed (8 * r + x.tc)).rsn c 0x12 x.bport x.tc

/-- A frame at the entry of a reach on logical interface l. -/
def Mach.enter (m : Mach) (c : ModeCtl) (b l tc : Nat) (stamp : Int) (ts : Nat) (flexe : Bool) (d : List Byte) : Mach :=
  m.letIn c
    { reach := b / 128, bport := b, lif := l, tenant := m.rd O.lifTenant l, tc := tc, data := d, stamp := stamp, ts := ts, flexe := flexe, at_ := m.ns,
      stage := .fifo, w := { tc := tc } }

/-- A received pause frame acts on the paused classes of a port (R201, R202): opcode 1 pauses the port (bit 8), 0x0101 the enabled
classes named; a quantum is 512 bit times at the port's rate in Gbit/s. -/
def Mach.pauseIn (m : Mach) (c : ModeCtl) (b rate opcode enable : Nat) (quanta : List Nat) : Mach :=
  let m := m.portCnt c b 8
  let p := m.port b
  let until_ := fun (q : Nat) => if q = 0 then none else some (m.ns + (q * 512 + rate - 1) / rate)
  let mode := m.rd O.bpFcMode b
  if m.flexMember b then m
  else if mode = 1 ∧ opcode = 1 then m.setPort b { p with paused := mset none p.paused 8 (until_ (quanta.headD 0)) }
  else if mode = 2 ∧ opcode = 0x0101 then
    m.setPort b { p with
      paused := (List.range 8).foldl (fun a k =>
        if bit enable k && bit (m.rd O.bpPfcClasses b) k then mset none a k (until_ (quanta.getD k 0)) else a) p.paused }
  else m

/-- Rate of a breakout port in Gbit/s (Table 6.1); for a FlexE group the sum of its clients' slots at 5 Gbit/s (R191, R193). -/
def Mach.portRate (m : Mach) (b : Nat) : Nat :=
  let n := b / 8
  if m.rdB O.pgFlexe n ∧ b % 8 = 0 then
    let t := calTable (m.rd O.flxCalActive n)
    5 * ((List.range (m.flexSlots n)).filter fun k => decide (m.ent t n k < 64)).length
  else match m.rd O.pgMode n with | 0 => 1600 | 1 => 800 | 2 => 400 | 3 => 200 | _ => 100

/-- Whether the partner announces for a client, in some slot of the calendar in use, another client ID than FLX-CLIENT holds (R195). -/
def Mach.clientWrong (m : Mach) (g k : Nat) : Bool :=
  (m.clientSlots g k).any fun s => let x := mget 0 m.dp.flexIds (320 * g + s); decide (x ≠ 0 ∧ x ≠ m.entF O.flxClient g k 0 2 + 1)

/-- Correction of a port's timestamps in 2^-16 ns; the objects hold picoseconds (R505). -/
def corrOf (ps : Nat) : Int := sgn 32 ps * 65536 / 1000

/-- Whether a port's group takes in-band Clelek (INBAND-PORTS-LO and -HI). -/
def Mach.inbandPort (m : Mach) (b : Nat) : Bool :=
  if b / 8 < 64 then bit (m.rd O.inbandPortsLo) (b / 8) else bit (m.rd O.inbandPortsHi) (b / 8 - 64)

/-- INBAND-EN in force: INBAND-LOCK keeps it false (R147). -/
def Mach.inbandOn (m : Mach) : Bool := m.rdB O.inbandEn && !m.rdB O.inbandLock

/-- FRAME_RX: the MAC's checks, in-band and control frames, then logical interface, class and admission (R185, R201, R207, R208, R242,
R504, R520). The blocks of a client under FLX-CAL-MISMATCH are replaced by local fault; how many there are is a free value (R195, log entry 122). An in-band Clelek frame arrives by INBAND_CLELEK_RX and is not taken here (log entry 8). -/
def Mach.frameRx (m : Mach) (c : ModeCtl) (b client : Nat) (fcsOk overflow : Bool) (d : List Byte) : Mach :=
  let n := b / 8
  let cb := m.cntPort b
  let len := d.length + 4
  if !m.pcsDelivers b then m
  else if m.flexMember b && decide (client < 64) && m.clientWrong n client then (m.bumpF O.flxClient n client 4 4 (m.freeVal 32)).freed
  else if overflow then ((m.wireIn b d.length).rsn c 0x12 cb 0).faultAt c (288 + n) 0x01 (b % 8)
  else if len < 64 then (m.wireIn b d.length).portCnt c b 6
  else if 16384 < len then (m.wireIn b d.length).portCnt c b 7
  else if !fcsOk || m.corrupts b then (m.wireIn b d.length).fcsFail c b
  else
    let et := oct d (if oct d 12 2 = 0x8100 then 16 else 12) 2
    if et = 0x88B5 ∧ m.inbandOn ∧ m.inbandPort b then m
    else
      let m := (m.wireIn b d.length).portFrame c b 0 d
      if oct d 12 2 = 0x8808 then
        m.pauseIn c b (m.portRate b) (oct d 14 2) (oct d 16 2)
          (if oct d 14 2 = 1 then [oct d 16 2] else (List.range 8).map fun k => oct d (18 + 2 * k) 2)
      else
        match m.lifOf b client d with
        | none => (m.bump O.lifMiss n).rsn c 0x20 cb 0
        | some l =>
          let corr := corrOf (m.rd O.tsRxCorr b)
          m.enter c cb l (m.tcOf l d) (m.com.frc + corr) (t96Of (m.adj + corr)) (m.flexMember b) d

/-! Context assignment (R209, R213 to R216, R424). -/

/-- Function number of binding k of reach r. -/
def bindFn (r k : Nat) : Nat := fnNum .binding (32 * r + k)

/-- A frame takes a context (taper or graph by the program it meets) after its cell has been allocated; tenant and route domain are those of this
moment (R244). -/
def Mach.intoCtx (m : Mach) (c : ModeCtl) (p : Nat) (x : Pkt) (prog : Nat) : Mach :=
  let n := x.data.length + 4
  if n ≤ 16384 ∧ !m.quotaOk x.bport x.tc n then (m.drop c p x 0x40).bump O.bufrQuotaRefused x.reach
  else
    match m.cellAlloc x.reach n ⟨inOwner x.bport, x.bport, x.tc⟩ with
    | (none, m) => m.drop c p x 0x41
    | (some i, m) =>
      let t := m.rd O.lifTenant x.lif
      let y := { x with
        cell := some i, prog := prog, stage := if prog = 31 then .graph else .ctx, tenant := t, domain := m.ent O.tenDomain 0 t % 4096
        released := false, inCtx := decide (prog ≠ 31) }
      let m := m.setPkt p (some y)
      let m := if prog = 31 then m.setRch x.reach { m.rch x.reach with gpipe := (m.rch x.reach).gpipe ++ [p] } else m
      (if prog = 31 then m else m.peak O.ctxPeak x.reach (m.ctxBusy x.reach)).fcCheck c x.bport x.tc

/-- The frames of the FIFOs, and those released from hold, whose binding runs at the entry to EBB: they run to completion (R92). -/
def Mach.admitFifo (m : Mach) : Mach :=
  m.dp.pkts.foldl (fun m p =>
    match p.2 with
    | some x =>
      if (x.stage = .fifo ∨ x.stage = .graphFifo ∨ (x.stage = .held ∧ x.released = true)) ∧ m.fst (bindFn x.reach (m.rd O.lifBinding x.lif % 32)) = .running then
        m.setPkt p.1 (some { x with ebb := true })
      else m
    | none => m) m

/-- Whether a frame was admitted before EBB and its binding still stops (R92). -/
def Mach.stillAdmitted (m : Mach) (c : ModeCtl) (x : Pkt) (f : Nat) : Bool := x.ebb && decide (c.mode = .ebb ∧ m.fst f = .stopping)

/-- The program that parses a frame which takes a context now: its binding's, or that of the fallback (R215); none where it takes no context. -/
def Mach.progFor (m : Mach) (c : ModeCtl) (x : Pkt) : Option Nat :=
  let k := m.rd O.lifBinding x.lif % 32
  let f := bindFn x.reach k
  let g := (m.fn f).fallback % 32
  if m.stillAdmitted c x f then some k
  else
    match m.meets f with
    | .run => some k
    | .bypass => if m.running .binding (32 * x.reach + g) then some g else none
    | _ => none

/-- The function that holds an earlier frame of the same logical interface before its parse, behind which a frame joins the hold buffer: order
is kept across a change of LIF-BINDING but for one between tapers and the graph parser (R214, R216). -/
def Mach.behindHeld (m : Mach) (p : Nat) (x : Pkt) (k : Nat) : Option Nat :=
  ((m.dp.pkts.find? fun q => match q.2 with
    | some y => decide (q.1 < p ∧ y.reach = x.reach ∧ y.lif = x.lif ∧ y.stage = .held ∧ y.cell = none ∧ y.released = false ∧
        (y.heldBy = bindFn x.reach 31 ↔ k = 31))
    | none => false).bind (·.2)).map (·.heldBy)

/-- A frame meets its binding (R215): a context, its disposition, or 0x80 while the binding is FAULTED. -/
def Mach.meetBinding (m : Mach) (c : ModeCtl) (p : Nat) (x : Pkt) : Mach :=
  let k := m.rd O.lifBinding x.lif % 32
  let f := bindFn x.reach k
  let x := { x with binding := k }
  let go := fun (m : Mach) (prog : Nat) =>
    match m.behindHeld p x k with
    | some g => if c.mode.forwards then m.hold c p x g else m.intoCtx c p x prog
    | none => m.intoCtx c p x prog
  if m.stillAdmitted c x f then go m k
  else
    match m.meets f with
    | .run => go m k
    | .faulted => (m.met f).drop c p x 0x80
    | .hold => (m.metBy x f).hold c p x f
    | .bypass =>
      let g := (m.fn f).fallback % 32
      if m.running .binding (32 * x.reach + g) then go (m.met f) g else (m.met f).drop c p x 0x13
    | .drop => (m.met f).drop c p x 0x13

/-- Whether a released frame can be taken now by the tapers, or by the graph parser (R216, R226): an earlier frame of its interface that another function
still holds keeps it in the hold buffer, where it stays with its age and is not shed. -/
def Mach.relReady (m : Mach) (c : ModeCtl) (graph : Bool) (p : Nat) : Bool :=
  match m.pkt p with
  | some x => decide ((m.progFor c x = some 31) = (graph = true)) && (m.behindHeld p x (m.rd O.lifBinding x.lif % 32)).isNone
  | none => !graph

/-- The oldest released frame that can be taken (R216). -/
def Mach.relNext (m : Mach) (c : ModeCtl) (r : Nat) (graph : Bool) : Option Nat := ((m.rch r).rel.filter (m.relReady c graph)).min?

/-- CONTEXT_ASSIGN: with a context free, the oldest released frame that the graph parser does not take, else the head of the pre-parse FIFO. -/
def Mach.contextAssign (m : Mach) (c : ModeCtl) (r : Nat) : Mach :=
  let q := m.rch r
  if 768 ≤ m.ctxBusy r then m
  else
    match m.relNext c r false with
    | some p =>
      (match m.pkt p with
       | some x => (m.setRch r { q with rel := q.rel.filter (· ≠ p) }).meetBinding c p x
       | none => m.setRch r { q with rel := q.rel.filter (· ≠ p) })
    | none =>
      match q.fifo with
      | p :: t =>
        (match m.pkt p with
         | some x => ((m.setRch r { q with fifo := t }).delayMark x).meetBinding c p x
         | none => m.setRch r { q with fifo := t })
      | [] => m

/-- GRAPH_PARSE_START (R226, R128): the oldest released frame for the graph parser, else the head of the graph FIFO, meets its binding. A frame that a
taper is to parse (R215) waits while every taper context is busy. The pipeline holds one frame in each of its 24 stages, and while its results leave
without waiting, those of the 8 cycles of delivery too: DEDUCED from 104 cycles at one frame in 4 (log entry 165). -/
def Mach.graphStart (m : Mach) (c : ModeCtl) (r : Nat) : Mach :=
  let q := m.rch r
  if (if 131072 ≤ m.handles r then 24 else 26) ≤ q.gpipe.length then m
  else match m.relNext c r true with
  | some p =>
    (match m.pkt p with
     | some x => (m.setRch r { q with rel := q.rel.filter (· ≠ p) }).meetBinding c p x
     | none => m)
  | none =>
    match q.gfifo with
    | p :: t =>
      (match m.pkt p with
       | some x =>
         if 768 ≤ m.ctxBusy r ∧ m.progFor c x ≠ some 31 ∧ m.progFor c x ≠ none then m
         else (m.setRch r { q with gfifo := t }).meetBinding c p x
       | none => m.setRch r { q with gfifo := t })
    | [] => m

/-! The end of a parse (R218, R226 to R238, R331, R507). -/

/-- Offset of a PTP message in a frame and whether it is one of version 2 (R507); a later fragment of an IPv4 packet has no UDP header (R224). -/
def ptpAt (d : List Byte) : Option Nat :=
  let o := etherOff d
  let at_ :=
    if oct d o 2 = 0x88F7 then some (o + 2)
    else if oct d o 2 = 0x0800 ∧ oct d (o + 11) 1 = 17 ∧ oct d (o + 8) 2 % 2 ^ 13 = 0 then some (o + 2 + oct d (o + 2) 1 % 16 * 4)
    else if oct d o 2 = 0x86DD ∧ oct d (o + 8) 1 = 17 then some (o + 42) else none
  match at_ with
  | none => none
  | some a =>
    let a' := if oct d o 2 = 0x88F7 then some a else if oct d (a + 2) 2 = 319 ∨ oct d (a + 2) 2 = 320 then some (a + 8) else none
    a'.bind fun a => if oct d (a + 1) 1 % 16 = 2 ∧ a + 34 ≤ d.length then some a else none

/-- The PTP message type of a parsed packet that carries one. -/
def ptpKind (x : Pkt) : Option Nat :=
  if resFlag x.res 15 || resFlag x.res 12 || x.flexe then none else (ptpAt x.data).map fun a => oct x.data a 1 % 16

/-- Whether the packet is punted at the end of the parse: a PTP message of an interface in BC (Table 16.2). -/
def Mach.ptpPunts (m : Mach) (x : Pkt) : Bool := (ptpKind x).isSome && decide (m.rd O.tsPtpMode x.lif = 3)

/-- Whether the packet is a peer delay message of an interface in TC-P2P, which is punted and not forwarded (Table 16.2). It passes through the
rule stage as R29 says of every such packet, and is punted with RULE-REF 0 where a HOST destination would be, under the same code while punt is
off: DESIGN CHOICE (log entry 136). -/
def Mach.pdelayPunt (m : Mach) (x : Pkt) : Bool :=
  (match ptpKind x with | some k => k = 2 || k = 3 || k = 10 | none => false) && decide (m.rd O.tsPtpMode x.lif = 2)

/-- The packet with its result vector, key and hashes (R232 to R237). -/
def Mach.parsed (m : Mach) (x : Pkt) (s : ParseSt) : Pkt :=
  let r := setFld 192 s.res 2 1 s.count
  let r := setFld 192 (setFld 192 (setFld 192 (setFld 192 r 3 1 x.binding) 4 2 x.lif) 6 2 x.tenant) 8 1 x.tc
  let r := setFld 192 r 10 2 x.data.length
  let r := if resFlag r 8 ∨ s.src ≠ 0 then setFld 192 r 18 2 (s.ext - s.start) else r
  let r := if x.prog = 31 then setFlag r 10 else r
  let r := if x.prog ≠ x.binding then setFlag r 9 else r
  let r := setFld 192 r 9 1 (if s.host then 0x11 else if resFlag r 15 then 0x10 else 0)
  let prof := m.tenProfile x.tenant
  let k := m.keyOf prof (m.rd O.kpFields prof) r x.tenant x.lif
  let r := if k.2 then setFlag r 3 else r
  let sk := (m.keyOf prof (m.rd O.kpSpread prof) r x.tenant x.lif).1
  { x with
    res := r, key := k.1, hash := m.flowHash k.1, spread := crc32c (m.rd O.spreadSeed) (octets 48 sk),
    lane := some (m.flowHash k.1 / 4096 % 4096), w := { tc := x.tc, set := m.rd O.lifRuleset x.lif % 64 } }

/-- A frame's parse ends: dropped, punted, or on with a handle and a place in its ordering lane, and its flow query decided. With no free
handle it stays where it is (R331). -/
def Mach.parseEnd (m : Mach) (c : ModeCtl) (p : Nat) (x : Pkt) : Mach :=
  let bind := 32 * x.reach + x.prog
  let s := m.parse bind x.data (m.com.free + 1)
  let y := m.parsed x s
  let dropped := s.drop || (s.host && !m.puntOn)
  let trunc := resFlag y.res 15
  if 131072 ≤ m.handles x.reach ∧ !dropped then m
  else
    let m := { m with com.free := m.com.free + 65536 }
    let m := ((m.bump O.pbPackets bind).bump O.pbSteps bind s.steps).bump O.pbLenConflict bind s.conflicts
    let m := m.bump O.pbLenTrusted bind s.trusted
    let m := if trunc then m.bump O.pbTruncated bind else m
    let z := { y with lane := none }
    if dropped then m.drop c p z 0x11
    else if s.host then (m.bump O.pbPunted bind).punt c p z 0x11 0 0x11
    else if trunc ∧ (m.rd O.pbDepthAction bind = 1 ∨ (m.rd O.pbDepthAction bind = 2 ∧ !m.puntOn)) then m.drop c p z 0x10
    else if trunc ∧ m.rd O.pbDepthAction bind = 2 then (m.bump O.pbPunted bind).punt c p z 0x10 0 0x10
    else if m.ptpPunts y then m.punt c p z 0 0 0x20
    else
      let k := 4096 * x.reach + y.lane.getD 0
      let m := { m with dp.lanes := mset [] m.dp.lanes k (mget [] m.dp.lanes k ++ [p]) }
      let y := { y with pdelay := m.pdelayPunt y }
      let m := m.setPkt p (some y)
      (m.peak O.laneHandlesPeak x.reach (m.handles x.reach)).query c p y

/-- PARSE_COMPLETE: a taper's frame. -/
def Mach.parseComplete (m : Mach) (c : ModeCtl) (r p : Nat) : Mach :=
  match m.pkt p with
  | some x => if x.reach = r ∧ x.stage = .ctx then m.parseEnd c p x else m
  | none => m

/-- GRAPH_PARSE_COMPLETE: the frame that the graph parser took first (R226). -/
def Mach.graphComplete (m : Mach) (c : ModeCtl) (r : Nat) : Mach :=
  match (m.rch r).gpipe with
  | p :: _ =>
    (match m.pkt p with
     | some x =>
       let z := m.parseEnd c p x
       if (z.pkt p).any fun y => decide (y.stage = .graph) then z
       else z.setRch r { z.rch r with gpipe := (z.rch r).gpipe.filter (· ≠ p) }
     | none => m.setRch r { m.rch r with gpipe := (m.rch r).gpipe.filter (· ≠ p) })
  | [] => m

/-- The geometry of indirection table k lands; its three objects are checked together (R264). -/
def Mach.indLand (m : Mach) (c : ModeCtl) (k : Nat) : Mach :=
  let b := (m.pendOf O.indBase k).getD (m.rd O.indBase k)
  let s := (m.pendOf O.indSize k).getD (m.rd O.indSize k)
  if b + s ≤ 1048576 then ((m.land c O.indBase k).land c O.indSize k).land c O.indRot k
  else
    let bad := [O.indBase, O.indSize].filter fun o => (m.pendOf o k).isSome
    let m := bad.foldl (fun m o => (m.setPend o k none).note c 2 0xFFFF (o.key k) Status.range.code 0) m
    m.land c O.indRot k

/-- A pending key profile of a tenant lands. -/
def Mach.tenLand (m : Mach) (t : Nat) : Mach :=
  match m.pendEnt O.tenKeyProfile 0 t with
  | some v => (m.setPendEnt O.tenKeyProfile 0 t none).setEnt O.tenKeyProfile 0 t v
  | none => m

/-- Profiles, seed and indirection geometry that are pending land together on all reaches. -/
def Mach.keyLand (m : Mach) (c : ModeCtl) : Mach :=
  let m := m.land c O.spreadSeed 0
  let m := (List.range 64).foldl (fun m k => [O.kpFields, O.kpGenSlot, O.kpSpread, O.kpSymmetric, O.kpFrag].foldl (fun m o => m.land c o k) m) m
  let m := (List.range 4096).foldl (fun m t => m.tenLand t) m
  (List.range 512).foldl (fun m k => m.indLand c k) m

/-- KEY_EPOCH (R238, R264): FRC is a whole multiple of 100 µs, and what is pending lands. -/
def Mach.keyEpoch (m : Mach) (c : ModeCtl) : Mach :=
  let m := m.reach ((m.ns + 99999) / 100000 * 100000)
  if m.com.pend = [] then m else m.keyLand c

/-! Rule passes (R244 to R272). -/

/-- The action list a number names in a reach (R259). -/
def Mach.actList (m : Mach) (r n : Nat) : Nat :=
  if n < 4096 then m.ent O.actCommon r n else m.ent O.actPrivate (64 * r + (n - 4096) / 448) ((n - 4096) % 448)

/-- What a pass has decided so far. -/
structure PassSt where
  w : Work
  deny : Bool := false
  next : Option Nat := none
deriving DecidableEq, Repr

/-- One action of Table 8.7; answers whether the list ends. -/
def runAction (s : PassSt) (act param ref : Nat) : PassSt × Bool :=
  let a := fld 8 act 1 1
  let b := fld 8 act 2 2
  let x := fld 8 act 4 4
  match fld 8 act 0 1 with
  | 0x01 =>
    let d := if bit a 0 then param else x
    if destOk d then ({ s with w := { s.w with dest := d, ref := ref } }, false) else ({ s with deny := true }, true)
  | 0x02 => ({ s with deny := true }, true)
  | 0x03 => ({ s with w := { s.w with tc := a % 8 } }, false)
  | 0x04 => ({ s with w := { s.w with dscp := some (a % 64) } }, false)
  | 0x05 => ({ s with w := { s.w with cls := b % 256, noCreate := bit a 0 } }, false)
  | 0x06 => ({ s with w := { s.w with copy := some ref } }, false)
  | 0x07 => ({ s with w := { s.w with mirror := some (a % 8, x) } }, false)
  | 0x08 => ({ s with w := { s.w with pol := some b } }, false)
  | 0x09 => ({ s with w := { s.w with tag := b } }, false)
  | 0x0A => ({ s with next := some (a % 64) }, false)
  | _ => (s, true)

/-- The actions of a list from index k on (R260). -/
def runList (list param ref : Nat) (s : PassSt) (k fuel : Nat) : PassSt :=
  match fuel with
  | 0 => s
  | f + 1 =>
    let r := runAction s (fld 64 list (8 * k) 8) param ref
    if r.2 then r.1 else runList list param ref r.1 (k + 1) f

/-- RULE-REF of a list (Table 5.11). -/
def ruleRef (r set list : Nat) : Nat := r * 2 ^ 24 + set % 256 * 2 ^ 16 + list % 2 ^ 16

/-- A named list of a rule set run on a pass that has not been denied. -/
def Mach.runNamed (m : Mach) (r set list param : Nat) (s : PassSt) : PassSt :=
  if s.deny then s else runList (m.actList r list) param (ruleRef r set list) s 0 8

/-- Listed entries of a table's instance, as index and value. -/
def Mach.entries (m : Mach) (o : ObjDef) (i : Nat) : List (Nat × Nat) :=
  m.com.tabs.filterMap fun p => if o.ekey i 0 ≤ p.1 ∧ p.1 < o.ekey i 0 + 2 ^ 32 then some (p.1 - o.ekey i 0, p.2) else none

/-- Whether a route entry covers an address in a domain (R254). -/
def routeCovers (e dom addr : Nat) : Bool :=
  let pl := fld 32 e 1 1
  bit (fld 32 e 0 1) 7 && fld 32 e 2 2 % 4096 = dom && decide (pl ≤ 128) && fld 32 e 4 16 / 2 ^ (128 - pl) = addr / 2 ^ (128 - pl)

/-- The route lookup: the covering entry with the longest PLEN (R254). -/
def Mach.routeFor (m : Mach) (dom addr : Nat) : Option Nat :=
  (((m.entries O.rtTable 0).filter fun p => routeCovers p.2 dom addr).foldl (fun best p =>
    match best with
    | some (_, e) => if fld 32 e 1 1 < fld 32 p.2 1 1 then some p else best
    | none => some p) none).map (·.1)

/-- The eight entry indices of a key in an exact table (R256). -/
def Mach.exactSlots (m : Mach) (r x key : Nat) : List Nat :=
  let base := m.rd O.exmBase (16 * r + x)
  let n := m.rd O.exmSize (16 * r + x) / 4
  let k := octets 48 key
  let at_ := fun h => (List.range 4).map fun j => base + 4 * (h % n) + j
  at_ (crc32c 0 k) ++ at_ (crc32 0 k)

/-- The exact lookup: the valid entry that holds the key (R256). -/
def Mach.exactFor (m : Mach) (r x : Nat) (p : Pkt) : Option Nat :=
  let prof := m.rd O.exmProfile (16 * r + x) % 64
  let key := (m.keyOf prof (m.rd O.kpFields prof) p.res p.tenant p.lif).1
  (m.exactSlots r x key).find? fun i =>
    let e := m.ent O.exmMem r i
    bit (fld 64 e 0 1) 7 && decide (fld 64 e 8 48 = key)

/-- A word of the ternary key (R257). -/
def ternWord (p : Pkt) (code route param : Nat) (exact hit : Bool) : Nat :=
  if code < 48 then resF p.res (4 * code) 4
  else if code = 48 then route
  else if code = 49 then param
  else if code = 50 then
    p.w.pass % 4 * 2 ^ 30 + (if exact then 2 ^ 29 else 0) + (if hit then 2 ^ 28 else 0) + (if p.w.restarted then 2 ^ 27 else 0) + p.w.tag
  else 0

/-- The ternary lookup: the lowest matching valid entry of the rule set's region (R257). -/
def Mach.ternFor (m : Mach) (r rs key : Nat) : Option Nat :=
  let lo := m.rd O.rsTcamBase rs
  let hi := lo + m.rd O.rsTcamCount rs
  ((m.entries O.tcam r).find? fun p =>
    decide (lo ≤ p.1 ∧ p.1 < hi) && bit (fld 176 p.2 0 1) 7 && decide (key &&& fld 176 p.2 88 80 = fld 176 p.2 8 80 &&& fld 176 p.2 88 80)).map (·.1)

/-- One more hit counted in an entry. -/
def Mach.hit (m : Mach) (o : ObjDef) (i : Nat) (idx : Option Nat) (off : Nat) : Mach :=
  match idx with
  | some k => m.bumpF o i k off 8
  | none => m

/-- Step 1 of a pass under rule set rs of the packet's reach: route and exact lookup (R245). -/
def Mach.passLook (m : Mach) (x : Pkt) (rs : Nat) : PassLook :=
  let r := x.reach
  let miss := m.rd O.rsRouteMiss rs
  let route := if m.rdB O.rsRoute rs && resFlag x.res 8 then m.routeFor x.domain (resF x.res 64 16) else none
  let ex := if m.rd O.rsExact rs < 16 then m.exactFor r (m.rd O.rsExact rs) x else none
  { route := route
    ex := ex
    dest := if m.rdB O.rsRoute rs then (match route with | some i => m.entF O.rtTable 0 i 20 4 | none => miss)
      else if x.w.pass = 0 then miss else x.w.dest
    ref := if m.rdB O.rsRoute rs ∨ x.w.pass = 0 then 0 else x.w.ref
    param := match ex with | some i => m.entF O.exmMem r i 4 4 | none => 0
    exList := match ex with | some i => m.entF O.exmMem r i 2 2 | none => 0 }

/-- Steps 2 and 3 of a pass (R245) after what step 1 found, or the fallback list alone under BYPASS (R267). What FROM-PARAM finds where no entry hit is not
stated: DESIGN CHOICE, a PARAM of 0 (log entry 167). -/
def Mach.passRun (m : Mach) (x : Pkt) : PassSt × Mach :=
  let r := x.reach
  let rs := 64 * r + x.w.set
  let s0 : PassSt := { w := x.w }
  match x.look with
  | none =>
    let w := if x.w.pass = 0 then { x.w with dest := 0, ref := 0 } else x.w
    (m.runNamed r x.w.set ((m.fn (fnNum .ruleset rs)).fallback % 4096) 0 { s0 with w := w }, m)
  | some l =>
    let key := (List.range 20).foldl (fun a k =>
      a * 2 ^ 32 + ternWord x (fld 20 (m.rd O.rsTkSelect rs) k 1) l.dest l.param l.ex.isSome l.route.isSome) 0
    let tern := m.ternFor r rs key
    let s := { s0 with w := { x.w with dest := l.dest, ref := l.ref } }
    let s := if l.ex.isSome then m.runNamed r x.w.set l.exList l.param s else s
    let s := match tern with
      | some i => m.runNamed r x.w.set (m.entF O.tcam r i 2 2) (m.entF O.tcam r i 4 4) s
      | none => m.runNamed r x.w.set (m.rd O.rsDefaultList rs) 0 s
    (s, m.hit O.tcam r tern 168)

/-- Whether a packet finds a slot of the match lanes: packets that have re-entered take slots ahead of newly parsed ones (R247). -/
def Mach.laneFree (m : Mach) (x : Pkt) : Bool :=
  x.again || (m.pktsIn x.reach fun y => decide (y.stage = .parsed ∧ y.again = true)).isEmpty

/-- PASS_START (R245, R247, R267, R269): the packet takes a slot, leaves its context and meets the rule set of its pass; step 1 runs. -/
def Mach.passStart (m : Mach) (c : ModeCtl) (r p : Nat) : Mach :=
  match m.pkt p with
  | none => m
  | some x =>
    if x.reach ≠ r ∨ x.stage ≠ .parsed ∨ !m.laneFree x then m
    else
      let set := if x.w.pass = 0 then m.rd O.lifRuleset x.lif % 64 else x.w.set
      let rs := 64 * r + set
      let f := fnNum .ruleset rs
      let go := fun (look : Option PassLook) (gen : Nat) (m : Mach) =>
        (m.setPkt p (some { x with
          stage := .pass, inCtx := false, again := false, look := look
          w := { x.w with set := set, bypass := look.isNone, gens := x.w.gens ++ [(rs, gen)] } })).bump O.passes r
      let y := { x with w := { x.w with set := set } }
      match m.meets f with
      | .run =>
        let l := m.passLook x rs
        (((go (some l) (m.rd O.rsGen rs) m).bump O.rsPasses rs).hit O.rtTable 0 l.route 24).hit O.exmMem r l.ex 56
      | .faulted => (m.met f).drop c p x 0x80
      | .hold => (m.metBy x f).hold c p y f
      | .bypass => go none 0 (m.met f)
      | .drop => (m.met f).drop c p x 0x13

/-- A SPREAD destination resolved through its indirection table (R263). -/
def Mach.resolve (m : Mach) (r dest spread : Nat) : Nat :=
  if dest / 2 ^ 28 = 2 then
    let t := 64 * r + dest % 64
    m.ent O.indMem r (m.rd O.indBase t + ror32 spread (m.rd O.indRot t) % m.rd O.indSize t)
  else dest

/-- PASS_END (R245, R252, R261, R263, R265, R266). -/
def Mach.passEnd (m : Mach) (c : ModeCtl) (r p : Nat) : Mach :=
  match m.pkt p with
  | none => m
  | some x =>
    if x.reach ≠ r ∨ x.stage ≠ .pass then m
    else
      let (s, m) := m.passRun x
      let x := { x with w := s.w }
      if s.deny then m.drop c p x 0x20
      else
        match s.next with
        | some n =>
          if m.rd O.bwPassMax r ≤ x.w.pass then (m.drop c p x 0x22).bump O.bwPassLimit r
          else if 4096 ≤ (m.rch r).water.length then (m.drop c p x 0x22).bump O.bwFullDrop r
          else
            let q := m.rch r
            (m.setRch r { q with water := q.water ++ [p] }).setPkt p (some { x with stage := .water, w := { x.w with pass := x.w.pass + 1, set := n } })
        | none =>
          let dest := if x.pdelay then 3 * 2 ^ 28 else m.resolve r x.w.dest x.spread
          let x := { x with stage := .ready, w := { x.w with dest := dest, ref := if x.pdelay then 0 else x.w.ref } }
          if dest / 2 ^ 28 = 0 ∨ (dest / 2 ^ 28 = 3 ∧ !m.puntOn ∧ x.query = none) then m.drop c p x 0x20
          else if dest / 2 ^ 28 = 5 ∧ x.query = none then (m.drop c p x 0x20).bump O.backendNoFlow r
          else if x.query.isSome then (m.postResult p x false).setPkt p (some { x with result := true })
          else m.setPkt p (some x)

/-- Whether every generation a packet has recorded still stands (R270). -/
def Mach.gensOk (m : Mach) (x : Pkt) : Bool :=
  x.w.gens.all fun g =>
    if g.2 = 0 then decide (m.fst (fnNum .ruleset g.1) ≠ .running) else decide (m.rd O.rsGen g.1 = g.2)

/-- A packet re-enters: its generations are compared, and on a mismatch it restarts or is dropped (R270, R271). -/
def Mach.reenter (m : Mach) (c : ModeCtl) (p : Nat) (x : Pkt) : Mach :=
  if m.gensOk x then m.setPkt p (some { x with stage := .parsed, again := true })
  else if x.w.restarted then (m.drop c p x 0x21).bump O.genDrop x.reach
  else
    let w : Work := { tc := x.tc, set := m.rd O.lifRuleset x.lif % 64, restarted := true }
    (m.setPkt p (some { x with stage := .parsed, again := true, w := w })).bump O.genRestart x.reach

/-- BACKWATER_REENTRY (R248, R265, R267, R270, R340): the packet at the head of the backwater, or one released from hold after parsing, whose query is
sent again where a PARK withdrew it. -/
def Mach.backwaterReentry (m : Mach) (c : ModeCtl) (r p : Nat) : Mach :=
  match m.pkt p with
  | none => m
  | some x =>
    if x.reach ≠ r then m
    else if x.stage = .water then
      let q := m.rch r
      if q.water.head? ≠ some p then m else (m.setRch r { q with water := q.water.filter (· ≠ p) }).reenter c p x
    else if x.stage = .held ∧ x.released = true ∧ x.cell.isSome then
      let h := m.handTo c x (inOwner x.bport)
      let m := h.2
      if !h.1 then m.handFail c p x else
      let basinHeld := decide (0x420 ≤ x.heldBy ∧ x.heldBy < 0x430)
      let y := { x with stage := .parsed, released := false }
      let m := m.setPkt p (some y)
      let m := if basinHeld || x.parked then m.query c p y else m
      match m.pkt p with
      | some z => if z.stage = .parsed then m.reenter c p z else m
      | none => m
    else m

/-- HOLD_AGE_EXPIRY (R127): a packet held, or released and still waiting for a context, longer than its FN-HOLD-AGE. -/
def Mach.holdAge (m : Mach) (c : ModeCtl) (r p : Nat) : Mach :=
  match m.pkt p with
  | none => m
  | some x =>
    if x.reach = r ∧ x.stage = .held then
      let m := m.reach (x.heldAt + 1000 * (m.fn x.heldBy).holdAge)
      (m.drop c p x 0x13).bump O.holdAgeDrop r
    else m

/-! Verdicts (R299, R300, R341). -/

/-- A verdict flag (Table 9.7). -/
def vFlag (v k : Nat) : Bool := bit (fld 32 v 4 1) k

/-- A verdict joined to a packet's stateless result (Table 9.8); a FLOWLESS packet that goes on is counted under 0x34 and its REASON (R521). -/
def Mach.join (m : Mach) (c : ModeCtl) (p : Nat) (x : Pkt) (v : Nat) : Mach :=
  let reason := fld 32 v 5 1
  if vFlag v 5 then m.drop c p x reason
  else
    if x.w.dest / 2 ^ 28 = 5 ∧ (!vFlag v 4 ∨ vFlag v 1) then (m.drop c p x 0x20).bump O.bsnBackendUnpinned (m.homeBasin x.hash)
    else
      let w := if vFlag v 4 ∧ x.pdelay = false then { x.w with dest := fld 32 v 8 4 } else x.w
      let w := if vFlag v 2 ∧ fld 32 v 7 1 ≠ 0xFF then { w with dscp := some (fld 32 v 7 1) } else w
      if w.dest / 2 ^ 28 = 3 ∧ !m.puntOn then m.drop c p x 0x20
      else
        let m := if vFlag v 1 then m.rsn c 0x34 x.bport x.w.tc else m
        let m := if vFlag v 1 ∧ reason ≠ 0 then m.rsn c reason x.bport x.w.tc else m
        m.setPkt p (some { x with verdict := some v, w := w })

/-- VERDICT_ARRIVAL (R299, R341): the packet's verdict at the head of its channel; one no longer waited for is discarded. -/
def Mach.verdictArrival (m : Mach) (c : ModeCtl) (r p : Nat) : Mach :=
  match m.takeMsg (chansTo r) (fun x => match x with | .verdict q _ => decide (q = p) | _ => false) with
  | some (.verdict _ v, m) =>
    (match m.pkt p with
     | some x => if x.reach = r ∧ x.stage = .ready ∧ x.query.isSome ∧ x.verdict = none then m.join c p x v else m
     | none => m)
  | _ => m

/-- VERDICT_WAIT_LANE (R341): a lane head whose verdict has not come in VERDICT-WAIT-MAX of its latest query. -/
def Mach.verdictWaitLane (m : Mach) (c : ModeCtl) (r lane : Nat) : Mach :=
  match mget [] m.dp.lanes (4096 * r + lane) with
  | [] => m
  | p :: _ =>
    match m.pkt p with
    | none => m
    | some x =>
      match x.query, x.verdict with
      | some t, none =>
        let m := m.reach (t + 1000 * m.rd O.verdictWaitMax)
        ((m.drop c p x 0x80).bump O.laneVerdictLate r).faultAt c (192 + 4 * m.homeBasin x.hash) 0x09 r
      | _, _ => m

end Sys2Proof.Machine
end

