-- ==== Sys2Proof/Machine/Hbm.lean ====
section
/-! DEFINITION. HBM addressing, request queues and self-refresh (spec 12): what requesters use; the completions are in HbmRun. -/

namespace Sys2Proof.Machine

/-- Where a line lies under a mapping order: pseudo-channel in the stack, column, bank and row (Table 12.2). -/
def mapLine (order l : Nat) : Nat × Nat × Nat × Nat :=
  let row := l / 2 ^ 14 % 2 ^ 14
  match order with
  | 0 => (l % 64, l / 2 ^ 6 % 16, l / 2 ^ 10 % 16, row)
  | 1 => (l / 8 % 64, l / 2 ^ 9 % 2 * 8 + l % 8, l / 2 ^ 10 % 16, row)
  | _ => (l / 2 ^ 8 % 64, l % 16, l / 16 % 16, row)

/-- Where a line lies under the order in force; pool lines keep the BANK order (R429). -/
def Mach.lineAt (m : Mach) (l : Nat) : Nat × Nat × Nat × Nat :=
  mapLine (if 138412032 ≤ l ∧ l < 188743680 then 2 else m.rd O.hbmMapOrder) l

/-- The bank of a line. -/
def Mach.bankOf (m : Mach) (l : Nat) : Nat := (m.lineAt l).2.2.1

/-- The pseudo-channel of a line of a stack (R394). -/
def Mach.pcOf (m : Mach) (s l : Nat) : Nat := 64 * s + (m.lineAt l).1

/-- Buckets of a share before growth (R279). -/
def Mach.nb (m : Mach) : Nat := 2 ^ (m.rd O.flwSizeLog2 - 6)

/-- Buckets that a share fills of its window: as it grows, those whose split has begun besides (R284, R392). -/
def Mach.buckets (m : Mach) (b : Nat) : Nat := m.nb + if m.dp.growing then m.rd O.bsnSplit b + ofB (mget false m.dp.splits b) else 0

/-- First line of a bucket of a share, in its primary window (copy 0) or the mirror (copy 1): the stack and the line (R391, R392). -/
def bucketLine (b copy j : Nat) : Nat × Nat :=
  let w := b % 4 / 2
  if copy = 0 then (primStack b, w * 2 ^ 25 + 8 * j) else (partner (primStack b), (2 + w) * 2 ^ 25 + 8 * j)

/-- The line of the partner that mirrors a mirrored line (R390 to R392). -/
def partnerLine (l : Nat) : Nat :=
  if l < 2 ^ 26 then l + 2 ^ 26 else if l < 2 ^ 27 then l - 2 ^ 26 else if l < 2 ^ 27 + 2 ^ 21 then l + 2 ^ 21 else l - 2 ^ 21

/-- A pseudo-channel. -/
def Mach.pc (m : Mach) (p : Nat) : Pc := mget {} m.dp.pcs p

/-- The machine with a pseudo-channel replaced. -/
def Mach.setPc (m : Mach) (p : Nat) (x : Pc) : Mach := { m with dp.pcs := mset {} m.dp.pcs p x }

/-- The channel of a pseudo-channel, 32 to a stack (R389). -/
def pcChan (p : Nat) : Nat := p / 2

/-- A channel. -/
def Mach.hchan (m : Mach) (k : Nat) : HCh := mget {} m.dp.hch k

/-- The machine with a channel replaced. -/
def Mach.setHchan (m : Mach) (k : Nat) (x : HCh) : Mach := { m with dp.hch := mset {} m.dp.hch k x }

/-- Whether a channel has passed the commit point of a self-refresh entry: 40 ns after it began (Table 12.4). -/
def Mach.srCommitted (m : Mach) (k : Nat) : Bool :=
  let h := m.hchan k
  decide (h.sr = 2) || (decide (h.sr = 1) && decide (h.srAt + 40 ≤ m.ns))

/-- A channel put into self-refresh at once, its commit point counted unless it is there (R406, R417). -/
def Mach.srEnter (m : Mach) (k : Nat) : Mach :=
  let h := m.hchan k
  m.setHchan k { h with sr := 2, srAt := m.ns, emptyAt := m.ns, entries := if h.sr = 2 then h.entries else h.entries + 1 }

/-- PC-SR-ENTRIES: the commit points a channel has passed, that of an idle entry in progress among them (R403, Table 12.6). -/
def Mach.srEntries (m : Mach) (k : Nat) : Nat :=
  let h := m.hchan k
  (h.entries + if h.sr = 1 ∧ m.srCommitted k then 1 else 0) % 2 ^ 64

/-- Whether a request enters only below HBM-BULK-LIMIT (R398): a TRACE or BULK one. -/
def HReq.bulk (x : HReq) : Bool := decide (x.cls = .trace ∨ x.cls = .bulk)

/-- The requests at the head of a queue that stand in the crossing to the PHY: up to 8, with up to 8 read bursts on their way back (Table 2.1); `n` and `r`
count those before. -/
def crossing : List HReq → Nat → Nat → Nat
  | [], _, _ => 0
  | x :: t, n, r =>
    let b := if x.write then 0 else x.lines
    if n < 8 ∧ r + b ≤ 8 then crossing t (n + 1) (r + b) + 1 else 0

/-- Entries that a pseudo-channel's queue holds: the requests that have not crossed to the PHY (R47, R397). -/
def Pc.held (x : Pc) : Nat := x.q.length - crossing x.q 0 0

/-- Whether a pseudo-channel's queue takes one more request of its class (R398). -/
def Mach.pcRoom (m : Mach) (p : Nat) (bulk : Bool) : Bool :=
  let n := (m.pc p).held
  decide (n < 128) && (!bulk || decide (n < m.rd O.hbmBulkLimit))

/-- A request that reaches a channel before the commit point of a self-refresh entry cancels it (R404); one after it waits for the exit (R405). -/
def Mach.pcWake (m : Mach) (p : Nat) : Mach :=
  let k := pcChan p
  let h := m.hchan k
  if h.sr = 0 then m
  else if m.srCommitted k then m.bump O.pcSrWaits p
  else (m.setHchan k { h with sr := 0, emptyAt := m.ns }).bump O.pcSrCancels p

/-- A request entered in a queue (R397). -/
def Mach.pcEnter (m : Mach) (p : Nat) (x : HReq) : Mach :=
  let q := m.pc p
  let q := { q with q := q.q ++ [x] }
  (m.setPc p q).peak O.pcQueuePeak p q.held

/-- A request left to wait at its requester, counted where its queue is full (R398). -/
def Mach.pcWait (m : Mach) (p : Nat) (x : HReq) (full : Bool) : Mach :=
  let q := m.pc p
  let m := m.setPc p { q with wait := q.wait ++ [x] }
  if full then m.bump O.pcQfullWaits p else m

/-- The requests of one access, which enter their queues together: where one of them finds no entry the whole access waits (R398, R414). -/
def Mach.pcPushAll (m : Mach) (l : List (Nat × HReq)) : Mach :=
  let n := m.dp.accNext + 1
  let l := l.map fun y => (y.1, { y.2 with acc := n })
  let m := l.foldl (fun m y => m.pcWake y.1) (if l.isEmpty then m else { m with dp.accNext := n })
  if l.all fun y => m.pcRoom y.1 y.2.bulk then l.foldl (fun m y => m.pcEnter y.1 y.2) m
  else l.foldl (fun n y => n.pcWait y.1 y.2 (!m.pcRoom y.1 y.2.bulk)) m

/-- A request for one pseudo-channel. -/
def Mach.pcPush (m : Mach) (p : Nat) (x : HReq) : Mach := m.pcPushAll [(p, x)]

/-- The requester of a request, as the arbiter of its queue tells them apart (R398): a basin by its lookup or its share, and the others. -/
def HReq.asker (x : HReq) : Nat :=
  match x.look, x.wb with
  | some (v, _), _ => v
  | none, some (g, _, _) => g / 2 ^ 24
  | none, none => 16 + x.who % 16

/-- Whether two requests belong to one access: for a write, its other lines and its copy (R414). -/
def HReq.same (x y : HReq) : Bool := decide (x.acc = y.acc)

/-- The pseudo-channels at which the access of a waiting request waits as a whole. -/
def Mach.wholeAt (m : Mach) (x : HReq) : List Nat := (m.dp.pcs.filter fun k => k.2.wait.any x.same).map (·.1)

/-- The request of the access of x that waits at pseudo-channel k entered in its queue. -/
def Mach.pcLeave (m : Mach) (x : HReq) (k : Nat) : Mach :=
  let q := m.pc k
  match q.wait.find? x.same with
  | some y => (m.setPc k { q with wait := q.wait.erase y, rot := x.asker }).pcEnter k y
  | none => m

/-- The waiting request that enters next: of those that can enter whole, requesters take turns in rotating order (R398). -/
def Mach.pcNext (m : Mach) (p : Nat) : Option HReq :=
  let q := m.pc p
  let ready := q.wait.filter fun x => (m.wholeAt x).all fun k => m.pcRoom k x.bulk
  (List.range 32).findSome? fun k => ready.find? fun x => decide (x.asker = (q.rot + 1 + k) % 32)

/-- Requests that wait at their requesters enter a queue while it has room (R398). -/
def Mach.pcAdmitN (m : Mach) (p : Nat) : Nat → Mach
  | 0 => m
  | n + 1 =>
    match m.pcNext p with
    | some x => ((m.wholeAt x).foldl (fun m k => m.pcLeave x k) m).pcAdmitN p n
    | none => m

/-- Requests that wait at a pseudo-channel enter as far as there is room. -/
def Mach.pcAdmit (m : Mach) (p : Nat) : Mach := m.pcAdmitN p (m.pc p).wait.length

/-- The pseudo-channels that a run of lines of a stack lies on, each with the first line it holds there and how many (R394). -/
def Mach.pcRuns (m : Mach) (s line n : Nat) : List (Nat × Nat × Nat) :=
  (List.range n).foldl (fun acc k =>
    let p := m.pcOf s (line + k)
    if acc.any fun a => decide (a.1 = p) then acc.map fun a => if a.1 = p then (p, a.2.1, a.2.2 + 1) else a
    else acc ++ [(p, line + k, 1)]) []

/-- The requests of a run of lines, each with its pseudo-channel. -/
def Mach.runReqs (m : Mach) (s line n : Nat) (x : HReq) : List (Nat × HReq) :=
  (m.pcRuns s line n).map fun r => (r.1, { x with line := r.2.1, lines := r.2.2 })

/-- A read of a flow or endpoint line by a basin or its mills. -/
def flowRead (opn : Bool) (look : Option (Nat × Nat)) : HReq :=
  { write := false, line := 0, lines := 0, cls := .flow, opn := opn, look := look, wb := none, who := 0 }

/-- Reads of a run of lines for an in-flight entry: how many requests were made, and the machine. -/
def Mach.readLines (m : Mach) (s line n : Nat) (look : Nat × Nat) (opn : Bool) : Nat × Mach :=
  let l := m.runReqs s line n (flowRead opn (some look))
  (l.length, l.foldl (fun m y => m.pcPush y.1 y.2) m)

/-- The copies of a share that writes go to: those whose stack is not lost (R414, R415). -/
def Mach.copiesOf (m : Mach) (b : Nat) : List Nat := [0, 1].filter fun k => !m.stackLost (bucketLine b k 0).1

/-- Whether a stack serves reads: it is in service, and rebuilt (R415). -/
def Mach.readServes (m : Mach) (s : Nat) : Bool := !m.stackLost s && !m.stackStale s

/-- Whether reads of the mirrored lines of stack s go to it: while it serves reads, and where neither copy does, while it alone is in service; a STALE stack
holds them until its rebuild (R415). -/
def Mach.readsHere (m : Mach) (s : Nat) : Bool := m.readServes s || (!m.readServes (partner s) && !m.stackLost s)

/-- The copy reads use (R415). -/
def Mach.readCopy (m : Mach) (b : Nat) : Nat := if m.readsHere (primStack b) then 0 else 1

/-- Reads of mirrored lines that nothing waits for, as sweeps and creations make them (R399): of the copy that reads use, if it is in service. -/
def Mach.readMirrored (m : Mach) (s line n : Nat) (opn : Bool) : Mach :=
  let at_ := if m.readsHere s then (s, line) else (partner s, partnerLine line)
  if m.stackLost at_.1 then m else (m.runReqs at_.1 at_.2 n (flowRead opn none)).foldl (fun m y => m.pcPush y.1 y.2) m

/-- Slot of the device of slot j of share b as the model keys it: shares lie 2^24 slots apart. -/
def slotKey (b j : Nat) : Nat := b * 2 ^ 24 + j

/-- A write-back to a stack under rebuild may meet the block being copied, which where the copy stands decides (a free value, log entry 60): it is then
issued behind the rebuild write and counted in FLT-REBUILD-HOLDS (R598). -/
def Mach.rebuildHold (m : Mach) (b : Nat) : Mach :=
  ((m.copiesOf b).map fun k => (bucketLine b k 0).1).foldl (fun m s =>
    if !m.stackStale s then m else if m.freeVal 1 = 1 then m.freed.bump O.fltRebuildHolds s else m.freed) m

/-- A write-back of a slot's two lines to every copy in service (R294, R414): how many requests were made, and the machine. -/
def Mach.writeSlot (m : Mach) (g rec_ : Nat) : Nat × Mach :=
  let b := g / 2 ^ 24
  let j := g % 2 ^ 24
  let m := { m with dp.wbq := mset none m.dp.wbq g (some rec_) }
  let l := (m.copiesOf b).flatMap fun copy =>
    let (s, base) := bucketLine b copy (j / 4)
    let ph := m.pcOf s (base + j % 4)
    let pt := m.pcOf s (base + 4 + j % 4)
    let req := fun (line lines : Nat) =>
      ({ write := true, line := line, lines := lines, cls := .flow, opn := false, look := none, wb := some (g, copy, rec_), who := 0 } : HReq)
    if ph = pt then [(ph, req (base + j % 4) 2)] else [(ph, req (base + j % 4) 1), (pt, req (base + 4 + j % 4) 1)]
  (l.length, (m.rebuildHold b).pcPushAll l)

/-- The channel of a pseudo-channel that has just lost a request notes when it became empty (R403). -/
def Mach.emptyNote (m : Mach) (p : Nat) : Mach :=
  let k := pcChan p
  if (m.pc (2 * k)).q.isEmpty && (m.pc (2 * k + 1)).q.isEmpty then m.setHchan k { m.hchan k with emptyAt := m.ns } else m

/-- Queued write-backs of the slots that a test picks leave their queues: what is written after them stands (R284, R325). Requests that wait enter, and a
channel left empty is so from now on (R398, R403). -/
def Mach.dropWrites (m : Mach) (f : Nat → Bool) : Mach :=
  let keep := fun (q : HReq) => match q.wb with | some (g, _, _) => !f g | none => true
  let hit := (m.dp.pcs.filter fun p => !(p.2.q ++ p.2.wait).all keep).map (·.1)
  let m := { m with
    dp.wbq := m.dp.wbq.filter fun p => !f p.1
    dp.pcs := m.dp.pcs.filterMap fun p =>
      let x := { p.2 with q := p.2.q.filter keep, wait := p.2.wait.filter keep }
      if x = {} then none else some (p.1, x) }
  hit.foldl (fun m p => (m.pcAdmit p).emptyNote p) m

/-- A slot's record as HBM holds it once every write queued before has completed (R294, R397); a withdrawn slot holds none (R409). -/
def Mach.hbmSlot (m : Mach) (g : Nat) : Nat :=
  if mget false m.dp.gone g then 0
  else
    match mget none m.dp.wbq g with
    | some r => r
    | none => mget 0 m.dp.hbm (m.readCopy (g / 2 ^ 24) * 2 ^ 32 + g)

end Sys2Proof.Machine
end

