-- ==== Sys2Proof/Machine/Record.lean ====
section
/-! DEFINITION. The flow record (Tables 9.2 and 9.3): fields, connection, filter, meter, expiry, versions and the pair's keys. -/

namespace Sys2Proof.Machine

/-- A field of a record. -/
def rf (r off n : Nat) : Nat := fld 128 r off n

/-- A record with a field replaced. -/
def rset (r off n v : Nat) : Nat := setFld 128 r off n v

/-- A bit of an octet of a record. -/
def rbit (r off k : Nat) : Bool := bit (rf r off 1) k

/-- Bits hi to lo of an octet of a record. -/
def rbits (r off hi lo : Nat) : Nat := bits (rf r off 1) hi lo

/-- A record with bits hi to lo of an octet replaced. -/
def rsetBits (r off hi lo v : Nat) : Nat :=
  rset r off 1 (rf r off 1 - rbits r off hi lo * 2 ^ lo + v % 2 ^ (hi + 1 - lo) * 2 ^ lo)

/-- KEY of a record. -/
def rKey (r : Nat) : Nat := rf r 0 48

/-- VALID. -/
def rValid (r : Nat) : Bool := rbit r 48 7

/-- Tenant of a key (octets 0 and 1, Table 7.7). -/
def keyTenant (key : Nat) : Nat := fld 48 key 0 2

/-- VERSION raised by a change (R289). -/
def rBumpVersion (r : Nat) : Nat := let v := rf r 52 2; rset r 52 2 (if v = 0xFFFF then 1 else v + 1)

/-- A record changed so that VERSION rises, where it differs at all (R289). -/
def rChange (old new : Nat) : Nat := if new = old then old else rBumpVersion new

/-! Connection (R304). -/

/-- Connection states. -/
inductive Conn where
  | opening | established | closing | closed
deriving DecidableEq, Repr

/-- The connection of a CONN octet. -/
def connOf (conn : Nat) : Conn :=
  let a := bits conn 7 6
  let b := bits conn 5 4
  if bit conn 3 || (a = 3 && b = 3) then .closed
  else if a = 3 || b = 3 then .closing
  else if a ≠ 0 && b ≠ 0 && (a = 2 || b = 2) then .established
  else .opening

/-- The half update of Table 9.10 on a CONN octet. -/
def connStep (conn : Nat) (fwd : Bool) (flags : Nat) : Nat :=
  let fin := bit flags 0
  let syn := bit flags 1
  let rst := bit flags 2
  let ack := bit flags 4
  let half := fun (c : Nat) => if fwd then bits c 7 6 else bits c 5 4
  let put := fun (c h : Nat) => if fwd then c - bits c 7 6 * 64 + h * 64 else c - bits c 5 4 * 16 + h * 16
  if rst then conn ||| 8
  else if syn && !ack && !fin then
    let c := if connOf conn = .closed then conn % 8 else conn
    if half c = 0 then put c 1 else c
  else if syn && ack && !fin then (if half conn = 0 then put conn 1 else conn)
  else if fin then put conn 3
  else if half conn = 0 ∨ half conn = 1 then put conn 2 else conn

/-- Whether FILTER drops a packet (R305), judged on the connection before the packet's own update. -/
def filterDrops (r connBefore : Nat) (tcp : Bool) (flags : Nat) : Bool :=
  match rbits r 50 1 0 with
  | 1 => rbit r 48 4 && decide (connOf connBefore = .closed) && !(tcp && bit flags 1 && !bit flags 4)
  | 2 => true
  | _ => false

/-! Meter (R306, R307). -/

/-- The meter clock in 64 ns units, modulo 2^32 (R307). -/
def Mach.meterClock (m : Mach) : Nat := m.flowNs / 64 % 2 ^ 32

/-- FLW-CLOCK (R318). -/
def Mach.flwClockMs (m : Mach) : Nat := m.flowNs / 1000000 % 2 ^ 32

/-- FLW-CLOCK-S (R318). -/
def Mach.flwClockSec (m : Mach) : Nat := m.flowNs / 1000000000 % 2 ^ 32

/-- A difference of two 32-bit counts. -/
def diff32 (a b : Nat) : Nat := (a + 2 ^ 32 - b) % 2 ^ 32

/-- The buckets of a record filled under its profile (R307, Table 11.6). -/
def Mach.tokensFill (m : Mach) (r : Nat) : Nat :=
  let e := m.ent O.mtrProfile 0 (rf r 88 2 % 4096)
  rset (rset (rset r 100 4 (1024 * fld 16 e 12 2)) 104 4 (1024 * fld 16 e 14 2)) 96 4 m.meterClock

/-- Full buckets of a metered record under its profile (R307, R310); a record without METER has none. -/
def Mach.tokensFull (m : Mach) (r : Nat) : Nat := if rbits r 48 3 3 = 0 then r else m.tokensFill r

/-- Octets that a rate in Mbit/s adds in d units of 64 ns. -/
def earned (d mbps : Nat) : Nat := d * 64 * mbps / 8000

/-- Tokens brought up to the present (R306, R307): filled; or cut to the burst sizes of the profile as it stands, and then earned. -/
def Mach.tokensNow (m : Mach) (r : Nat) : Nat :=
  let e := m.ent O.mtrProfile 0 (rf r 88 2 % 4096)
  let d := diff32 m.meterClock (rf r 96 4)
  if 2 ^ 31 ≤ d ∨ 120000 ≤ diff32 m.flwClockMs (rf r 60 4) then m.tokensFull r
  else
    let cbs := 1024 * fld 16 e 12 2
    let ebs := 1024 * fld 16 e 14 2
    let c := min (rf r 100 4) cbs + earned d (fld 16 e 4 4)
    let held := min (rf r 104 4) ebs
    let x := if fld 16 e 0 1 = 1 then held + (c - cbs) else held + earned d (fld 16 e 8 4)
    rset (rset (rset r 100 4 (min c cbs)) 104 4 (min x ebs)) 96 4 m.meterClock

/-- A packet of n octets metered (R306): colour, and the record with tokens and COLOUR. -/
def Mach.meter (m : Mach) (r n : Nat) : Nat × Nat :=
  let kind := m.entF O.mtrProfile 0 (rf r 88 2 % 4096) 0 1
  let r := m.tokensNow r
  let c := rf r 100 4
  let x := rf r 104 4
  let (col, c, x) :=
    match kind with
    | 1 => if n ≤ c then (0, c - n, x) else if n ≤ x then (1, c, x - n) else (2, c, x)
    | 2 => if x < n then (2, c, x) else if c < n then (1, c, x - n) else (0, c - n, x - n)
    | _ => (0, c, x)
  (col, rsetBits (rset (rset r 100 4 c) 104 4 x) 51 7 6 col)

/-- DSCP a profile writes for a colour; 0xFF none (Table 9.11). -/
def Mach.meterDscp (m : Mach) (r col : Nat) : Nat :=
  let e := m.ent O.mtrProfile 0 (rf r 88 2 % 4096)
  match col with
  | 1 => fld 16 e 2 1
  | 2 => fld 16 e 3 1
  | _ => 0xFF

/-- A packet of n octets counted forward or reverse, and LAST-SEEN (R290, R301). -/
def Mach.rCount (m : Mach) (r n : Nat) (fwd : Bool) : Nat :=
  let r := if fwd then rset (rset r 64 5 (rf r 64 5 + 1)) 69 7 (rf r 69 7 + n) else rset (rset r 76 5 (rf r 76 5 + 1)) 81 7 (rf r 81 7 + n)
  rset r 60 4 m.flwClockMs

/-! Expiry (R318). -/

/-- Why a record is expired at this moment, as flowEndReason (R527); none while it is not. -/
def Mach.expired (m : Mach) (r : Nat) : Option Nat :=
  if rbit r 48 6 then none
  else
    let e := m.ent O.flwClass 0 (rf r 49 1)
    let idle := if fld 32 e 8 4 = 0 then m.rd O.flwAgeIdle else fld 32 e 8 4
    let (t, why) :=
      if !rbit r 48 4 then (idle, 1)
      else match connOf (rf r 50 1) with
        | .opening => (fld 32 e 16 4, 1)
        | .closing => (fld 32 e 20 4, 1)
        | .closed => (fld 32 e 24 4, 3)
        | .established => (idle, 1)
    if t ≤ diff32 m.flwClockMs (rf r 60 4) then some why
    else if fld 32 e 12 4 ≠ 0 ∧ fld 32 e 12 4 ≤ diff32 m.flwClockSec (rf r 56 4) then some 2 else none

/-! Pairs (R291, Table 9.4). -/

/-- The tuple of a record's forward packets: source address and port, destination address and port. -/
def rTuple (r : Nat) : (Nat × Nat) × (Nat × Nat) :=
  let k := rKey r
  let a := (fld 48 k 4 16, fld 48 k 36 2)
  let b := (fld 48 k 20 16, fld 48 k 38 2)
  if rbit r 48 5 then (b, a) else (a, b)

/-- A key with the tenant, profile, protocol, TUNNEL-ID and GEN-OR-LIF of another and a tuple, in canonical order where the profile asks
for it, and whether that swapped it (R235, R291, R314). -/
def Mach.pairKeyOf (m : Mach) (like_ : Nat) (s d : Nat × Nat) : Nat × Bool :=
  let swap := m.rdB O.kpSymmetric (fld 48 like_ 2 1 % 64) && decide (d.1 * 65536 + d.2 < s.1 * 65536 + s.2)
  let (s, d) := if swap then (d, s) else (s, d)
  (pack [(4, fld 48 like_ 0 4), (16, s.1), (16, d.1), (2, s.2), (2, d.2), (8, fld 48 like_ 40 8)], swap)

/-- The key of a record's partner, and whether canonical order swapped it (Table 9.4): the reverse of the translated tuple. -/
def Mach.partnerKey (m : Mach) (r : Nat) : Nat × Bool :=
  let x := (rf r 112 16, rf r 94 2)
  let t := rTuple r
  match rbits r 51 5 4 with
  | 1 => m.pairKeyOf (rKey r) t.2 x
  | _ => m.pairKeyOf (rKey r) x t.1

/-- Whether a record is PAIRED. -/
def rPaired (r : Nat) : Bool := rbit r 48 0

/-- Whether a record is the link of its pair. -/
def rLink (r : Nat) : Bool := rbit r 51 3

/-- The pool index and port that a record's pair holds; none where it holds no pool port (R371). -/
def rPoolPort (r : Nat) : Option (Nat × Nat) :=
  if !rPaired r then none
  else if !rLink r && rbits r 51 5 4 = 1 then some (rf r 90 3, rf r 94 2)
  else if rLink r && rbits r 51 5 4 = 2 then some (rf r 90 3, (rTuple r).2.2)
  else none

end Sys2Proof.Machine
end

