-- ==== Sys2Proof/Machine/Flare.lean ====
section
/-! DEFINITION. Flare records and export buffers (R378, R526 to R528, R532): what mills and egress reaches append. Collectors are in
Telemetry. -/

namespace Sys2Proof.Machine

/-- Adjusted time in ms, for observationTimeMilliseconds (Table 17.7). -/
def Mach.adjMs (m : Mach) : Nat := (m.adj / 65536).toNat / 1000000

/-- Whether a key holds IPv4-mapped addresses (R527). -/
def keyV4 (key : Nat) : Bool := decide (fld 48 key 4 16 / 2 ^ 32 = 0xFFFF) && decide (fld 48 key 20 16 / 2 ^ 32 = 0xFFFF)

/-- Template ID of a record of template k (R527). -/
def Mach.flowTid (m : Mach) (k : Nat) (v4 : Bool) : Nat := 256 + 4 * k + 2 * (m.entF O.flTemplate 0 k 4 1 % 2) + ofB v4

/-- Length and value of field k of a flow record (Table 17.6); `why` is flowEndReason. Source and destination are those of forward packets. -/
def Mach.flowField (m : Mach) (r why : Nat) (v4 : Bool) (k : Nat) : Nat × Nat :=
  let t := rTuple r
  let al := if v4 then 4 else 16
  let nat := rbits r 51 5 4
  let x := (rf r 112 16, rf r 94 2)
  let (ps, pd) := match nat with | 1 => (x, t.2) | 2 => (t.1, x) | _ => (((0, 0) : Nat × Nat), ((0, 0) : Nat × Nat))
  match k with
  | 0 => (al, t.1.1)
  | 1 => (al, t.2.1)
  | 2 => (1, fld 48 (rKey r) 3 1)
  | 3 => (2, t.1.2)
  | 4 => (2, t.2.2)
  | 5 => (8, rf r 64 5)
  | 6 => (8, rf r 69 7)
  | 7 => (8, rf r 76 5)
  | 8 => (8, rf r 81 7)
  | 9 => (4, (m.adjMs - 1000 * diff32 m.flwClockSec (rf r 56 4)) / 1000)
  | 10 => (4, (m.adjMs - diff32 m.flwClockMs (rf r 60 4)) / 1000)
  | 11 => (1, why)
  | 12 => (2 * al + 4, pack [(al, ps.1), (al, pd.1), (2, ps.2), (2, pd.2)])
  | 13 => (4, rf r 54 2 % 2 ^ 13)
  | 14 => (2, keyTenant (rKey r))
  | 15 => (1, rf r 49 1)
  | 16 => (1, rf r 50 1)
  | 17 => (1, rbits r 51 7 6)
  | _ => (4, rf r 90 3)

/-- The octets of a flow record under template k (R527). -/
def Mach.flowData (m : Mach) (k r why : Nat) : List Byte :=
  let mask := m.entF O.flTemplate 0 k 0 4
  let v4 := keyV4 (rKey r)
  (List.range 19).flatMap fun j => if bit mask j then let f := m.flowField r why v4 j; octets f.1 f.2 else []

/-! Export buffers. -/

/-- Records lost before any queue (R532): by no buffer 0, refused 1, poisoned 2, discarded 3. -/
def Mach.flLose (m : Mach) (cause n : Nat) : Mach :=
  match cause with
  | 0 => m.bump O.flLossNobuf 0 n
  | 1 => m.bump O.flLossRefused 0 n
  | 2 => m.bump O.flLossPoison 0 n
  | _ => m.bump O.flLossDiscard 0 n

/-- A collector. -/
def Mach.col (m : Mach) (k : Nat) : Col := mget {} m.dp.cols k

/-- The machine with a collector replaced. -/
def Mach.setCol (m : Mach) (k : Nat) (x : Col) : Mach := { m with dp.cols := mset {} m.dp.cols k x }

/-- Whether a collector takes a buffer: enabled, with a kind that the buffer holds (R531). -/
def Mach.colTakes (m : Mach) (k : Nat) (x : Xb) : Bool :=
  m.rdB O.flColEn k && x.recs.any fun r => bit (m.rd O.flColKinds k) r.kind

/-- The buffers in a collector's queue. -/
def Mach.colBufs (m : Mach) (k : Nat) : List Xb := (m.col k).q.filterMap (·.2.xb?)

/-- The buffers in the collectors' queues, once for each queue. -/
def Mach.queuedBufs (m : Mach) : List Xb := [0, 1, 2, 3].flatMap fun k => m.colBufs k

/-- Buffers taken out of every collector's queue. -/
def Mach.unqueue (m : Mach) (f : Xb → Bool) : Mach :=
  [0, 1, 2, 3].foldl (fun m k => m.setCol k { m.col k with q := (m.col k).q.filter fun q => !(q.2.xb?.any f) }) m

/-- Whether two queues hold the same buffer handed over. -/
def Xb.same (x y : Xb) : Bool := decide (x.basin = y.basin ∧ x.buf = y.buf ∧ x.at_ = y.at_)

/-- Each buffer of a list once, with the records that every queue is done with. -/
def oneEach (l : List Xb) : List Xb :=
  (List.range l.length).filterMap fun i =>
    match l[i]? with
    | some x => if (l.take i).any x.same then none else some { x with done := (l.filter x.same).foldl (fun a y => min a y.done) x.done }
    | none => none

/-- The records still unsent in buffers, each counted once (R532). -/
def unsent (l : List Xb) : Nat := (oneEach l).foldl (fun a x => a + (x.recs.length - x.done)) 0

/-- Free a buffer in its basin's name once no queue holds it (R430, R531). -/
def Mach.bufDone (m : Mach) (c : ModeCtl) (x : Xb) : Mach :=
  if m.queuedBufs.any x.same then m else m.hpoolFree c x.basin x.buf.1 x.buf.2

/-- The records of a buffer that a collector takes and that it is not done with, each with its place: its kinds act from the next message (R529). -/
def Mach.colLeft (m : Mach) (k : Nat) (x : Xb) : List (Nat × FlRec) :=
  (x.recs.mapIdx fun i r => (i, r)).filter fun p => decide (x.done ≤ p.1) && bit (m.rd O.flColKinds k) p.2.kind

/-- A closed buffer handed to the exporter of its die: it joins the queue of every collector that takes it, or is dropped there (R526,
R531). -/
def Mach.handBuf (m : Mach) (c : ModeCtl) (b : Nat) : Mach :=
  match mget none m.dp.xbuf b with
  | none => m
  | some x =>
    let m := { m with dp.xbuf := mset none m.dp.xbuf b none }
    let m := [0, 1, 2, 3].foldl (fun m k =>
      if !m.colTakes k x then m
      else
        let q := m.col k
        if (m.colBufs k).length < m.rd O.flColQueue k then m.setCol k { q with q := q.q ++ [(b / 4, .buf x)] }
        else
          let n := (m.colLeft k x).length
          (m.setCol k { q with losses := q.losses + n }).bump O.flColLostRate k n) m
    m.bufDone c x

/-- A collector's queue dropped (R531, R533): the records of its buffers count as lost with the collector down. -/
def Mach.colDrop (m : Mach) (c : ModeCtl) (k : Nat) : Mach :=
  let q := m.col k
  let l := m.colBufs k
  let n := l.foldl (fun a x => a + (m.colLeft k x).length) 0
  let m := (m.setCol k { q with q := [], losses := q.losses + n }).bump O.flColLostDown k n
  l.foldl (fun m x => m.bufDone c x) m

/-- The end of EBB at its limit (R533): open buffers are closed, and every queued buffer is dropped. -/
def Mach.flareDown (m : Mach) (c : ModeCtl) : Mach :=
  let m := m.dp.xbuf.foldl (fun m p => m.handBuf c p.1) m
  [0, 1, 2, 3].foldl (fun m k => m.colDrop c k) m

/-- A buffer for basin b, where the mode lets one be taken (Table 13.5): the wait for a pool's empty stock ends with the refill it waits for (R431). -/
def Mach.takeBuf (m : Mach) (c : ModeCtl) (b : Nat) (bitmap : Bool) : Option (Nat × Nat) × Mach :=
  if !m.mayTake c bitmap then (none, m) else
  match m.hpoolAlloc c b bitmap with
  | (.got p i, m) => (some (p, i), m)
  | (.refused, m) => (none, m)
  | (.wait p, m) =>
    match (m.hpoolRefill p).hpoolTake c b p with
    | (.got p i, m) => (some (p, i), m)
    | (_, m) => (none, m)

/-- What an append writes: the head of the buffer with its record count, and the record with its prefix (R526). -/
def Mach.appendWrite (m : Mach) (b : Nat) (x : Xb) (r : FlRec) : Mach :=
  let m := m.bufWrite (some b) x.buf 0 (octets 4 (b * 2 ^ 24) ++ octets 4 (x.recs.length + 1) ++ octets 8 x.at_)
  m.bufWrite (some b) x.buf x.octs (octets 2 r.tid ++ octets 2 r.data.length ++ r.data)

/-- A record appended to the open export buffer of basin b (R378, R526): a full buffer is closed first, and with no buffer the record is
lost. Nothing is appended outside LIT, LEAN, GUARD and EBB (R533). -/
def Mach.flAppend (m : Mach) (c : ModeCtl) (b : Nat) (r : FlRec) : Mach :=
  if !(c.mode.forwards || c.mode = .ebb) then m
  else
    let n := r.data.length + 4
    let m := match mget none m.dp.xbuf b with
      | some x => if 4096 < x.octs + n then m.handBuf c b else m
      | none => m
    match mget none m.dp.xbuf b with
    | some x =>
      let m := m.appendWrite b x r
      { m with dp.xbuf := mset none m.dp.xbuf b (some { x with recs := x.recs ++ [r], octs := x.octs + n }) }
    | none =>
      match m.takeBuf c b false with
      | (some buf, m) =>
        let x : Xb := { basin := b, buf := buf, recs := [], octs := 16, at_ := m.ns }
        let m := m.appendWrite b x r
        { m with dp.xbuf := mset none m.dp.xbuf b (some { x with recs := [r], octs := 16 + n }) }
      | (none, m) => m.flLose 0 1

/-- A FINAL or ACTIVE record of a flow under template k (R320, R377, R527). -/
def Mach.flFlow (m : Mach) (c : ModeCtl) (b k r why : Nat) (active : Bool) : Mach :=
  m.flAppend c b { kind := ofB active, tid := m.flowTid (k % 16) (keyV4 (rKey r)), data := m.flowData (k % 16) r why }

/-- A REFUSAL record of a refused key (Table 17.7). -/
def Mach.flRefusal (m : Mach) (c : ModeCtl) (b key reason : Nat) : Mach :=
  m.flAppend c b
    { kind := 2, tid := 320,
      data := octets 49 (pack [(8, m.adjMs), (16, fld 48 key 4 16), (16, fld 48 key 20 16), (1, fld 48 key 3 1), (2, fld 48 key 36 2), (2, fld 48 key 38 2),
        (2, keyTenant key), (1, reason), (1, b)]) }

/-- FL_BUFFER_FLUSH_AGE (R526): the open buffer of basin b is handed over FL-FLUSH-AGE after its first append. -/
def Mach.flushAge (m : Mach) (c : ModeCtl) (b : Nat) : Mach :=
  match mget none m.dp.xbuf b with
  | some x => (m.reach (x.at_ + 1000000 * m.rd O.flFlushAge)).handBuf c b
  | none => m

end Sys2Proof.Machine
end

