-- ==== Sys2Proof/Machine/Eddy.lean ====
section
/-! DEFINITION. Where records live: candidate buckets, slots, the eddy with its write-backs, placement and relocation (R278 to R286,
R292 to R294, R345, R650). A slot is keyed by share and place (slotKey); the eddy that serves a share is its server's. -/

namespace Sys2Proof.Machine

/-! Buckets and slots. -/

/-- Share of a key (R277, R592). -/
def Mach.shareOf (m : Mach) (key : Nat) : Nat := m.homeBasin (m.flowHash key)

/-- h = H[63:32] of a key (R281). -/
def Mach.hOf (m : Mach) (key : Nat) : Nat := m.flowHash key / 2 ^ 32

/-- A candidate bucket of h in share b (R281), recomputed with 2nb below the split pointer (R285). -/
def Mach.cand (m : Mach) (b h : Nat) (second : Bool) : Nat :=
  let at_ := fun n => if second then (h % n) ^^^ ((ror32 h 16 ||| 1) % n) else h % n
  let c := at_ m.nb
  if c < m.rd O.bsnSplit b then at_ (2 * m.nb) else c

/-- Number of a device slot as the host counts it (R280). -/
def Mach.devSlot (m : Mach) (g : Nat) : Nat := g / 2 ^ 24 * 2 ^ (m.rd O.flwSizeLog2 - 4) + g % 2 ^ 24

/-! Eddy ways. -/

/-- Whether bucket j of share b is being split, or is the new half of one that is (R286, R338). -/
def Mach.beingSplit (m : Mach) (b j : Nat) : Bool :=
  mget false m.dp.splits b && decide (j = m.rd O.bsnSplit b ∨ j = m.rd O.bsnSplit b + m.nb)

/-- Way key of way w for h in the eddy of basin v (R292). -/
def wayKey (v h w : Nat) : Nat := 131072 * v + 16 * (h % 8192) + w

/-- A way. -/
def Mach.way (m : Mach) (k : Nat) : Option Way := mget none m.dp.eddy k

/-- The machine with a way replaced. -/
def Mach.setWay (m : Mach) (k : Nat) (w : Option Way) : Mach := { m with dp.eddy := mset none m.dp.eddy k w }

/-- The way that holds a key's record. -/
def Mach.wayByKey (m : Mach) (v h key : Nat) : Option (Nat × Way) :=
  (List.range 16).findSome? fun w =>
    match m.way (wayKey v h w) with
    | some x => if rValid x.rec_ && decide (rKey x.rec_ = key) then some (wayKey v h w, x) else none
    | none => none

/-- The way that holds a slot. -/
def Mach.wayBySlot (m : Mach) (g : Nat) : Option (Nat × Way) :=
  m.dp.eddy.findSome? fun p => match p.2 with
    | some x => if x.slot = g then some (p.1, x) else none
    | none => none

/-- A slot as it stands: its eddy copy, or what HBM holds (R321). -/
def Mach.slotRec (m : Mach) (g : Nat) : Nat :=
  match m.wayBySlot g with
  | some (_, w) => w.rec_
  | none => m.hbmSlot g

/-- Whether a slot can take a record: it holds none and is not withdrawn (R283, R409). -/
def Mach.slotFree (m : Mach) (g : Nat) : Bool := !rValid (m.slotRec g) && !mget false m.dp.gone g

/-- The slot of a bucket that holds a key. -/
def Mach.slotIn (m : Mach) (b j key : Nat) : Option Nat :=
  (List.range 4).findSome? fun k =>
    let g := slotKey b (4 * j + k)
    let r := m.slotRec g
    if rValid r && decide (rKey r = key) && !mget false m.dp.gone g then some g else none

/-- The record of a key as the device holds it now: eddy, then b1, then b2 (R282). -/
def Mach.findRec (m : Mach) (key : Nat) : Option (Nat × Nat) :=
  let b := m.shareOf key
  let h := m.hOf key
  match m.wayByKey (m.server b) h key with
  | some (_, w) => some (w.slot, w.rec_)
  | none =>
    match m.slotIn b (m.cand b h false) key with
    | some g => some (g, m.slotRec g)
    | none => (m.slotIn b (m.cand b h true) key).map fun g => (g, m.slotRec g)

/-! Write-backs (R294, R345, R398, R650). -/

/-- Slots of HBM, other than g, in which a copy in service or any write on its way still shows a key as valid (R650). -/
def Mach.olderSlots (m : Mach) (key g : Nat) : List Nat :=
  let shows := fun (g' r : Nat) => decide (g' ≠ g) && rValid r && decide (rKey r = key) && !mget false m.dp.gone g'
  let inHbm := m.dp.hbm.filterMap fun p =>
    let g' := p.1 % 2 ^ 32
    if shows g' p.2 && (m.copiesOf (g' / 2 ^ 24)).contains (p.1 / 2 ^ 32) then some g' else none
  let onWay := m.dp.wbq.filterMap fun p => match p.2 with
    | some r => if shows p.1 r then some p.1 else none
    | none => none
  let issued := m.dp.pcs.flatMap fun p => (p.2.q ++ p.2.wait).filterMap fun q => match q.wb with
    | some (g', _, r) => if shows g' r then some g' else none
    | none => none
  (inHbm ++ onWay ++ issued).eraseDups

/-- Issue a write-back of a slot's present content (R294). -/
def Mach.writeBack (m : Mach) (g : Nat) : Mach :=
  match m.wayBySlot g with
  | some (k, w) =>
    let (n, m) := m.writeSlot g w.rec_
    if n = 0 then m else m.setWay k (some { w with wb := n, wbRec := w.rec_, dirtyAt := m.ns })
  | none => (m.writeSlot g (m.slotRec g)).2

/-- The write-back that clears a slot in which HBM still shows a key (R650): of the slot itself where the eddy holds it cleared; where it holds another
record by now, or none, the slot is written empty first, so that no write-back waits for itself through a ring of moves. -/
def Mach.writeClear (m : Mach) (o : Nat) : Mach :=
  match m.wayBySlot o with
  | some (_, w) => if w.rec_ = 0 then m.writeBack o else (m.writeSlot o 0).2
  | none => (m.writeSlot o 0).2

/-- Whether the write last issued of a slot leaves a key in it; none issued counts as that. -/
def Mach.stillShows (m : Mach) (o key : Nat) : Bool :=
  match mget none m.dp.wbq o with
  | some r => rValid r && decide (rKey r = key)
  | none => true

/-- The write-back of a record's slot, held while an older slot of its key is still to be cleared, whose write-back goes first (R650);
answers whether the slot's own write-back was issued. -/
def Mach.writeBackOrdered (m : Mach) (g : Nat) : Bool × Mach :=
  let r := m.slotRec g
  match if rValid r then m.olderSlots (rKey r) g else [] with
  | [] => (true, m.writeBack g)
  | olds => (false, (olds.filter fun o => m.stillShows o (rKey r)).foldl (fun m o => m.writeClear o) m)

/-- Pseudo-channels that a slot's write-back uses. -/
def Mach.slotPcs (m : Mach) (g : Nat) : List Nat :=
  (m.copiesOf (g / 2 ^ 24)).flatMap fun copy =>
    let (s, base) := bucketLine (g / 2 ^ 24) copy (g % 2 ^ 24 / 4)
    let k := g % 4
    [m.pcOf s (base + k), m.pcOf s (base + 4 + k)]

/-- Whether a write-back of a slot waits at its requester (R398). -/
def Mach.wbWaits (m : Mach) (g : Nat) : Bool :=
  m.dp.pcs.any fun p => p.2.wait.any fun q => match q.wb with | some (g', _, _) => decide (g' = g) | none => false

/-- Whether an in-flight entry pins a way (R292): one on its record's key. -/
def Mach.pinned (m : Mach) (v : Nat) (w : Way) : Bool :=
  rValid w.rec_ && (m.basin v).ift.any fun p => match p.2 with | some x => decide (x.key = rKey w.rec_) | none => false

/-- Whether a way holds nothing that is still to be queued: it is clean, or its write-back is queued, or one can be queued now (R294, R398, R650). -/
def Mach.wayDone (m : Mach) (w : Way) : Bool :=
  !w.dirty || (decide (w.wb ≠ 0) && decide (w.wbRec = w.rec_) && !m.wbWaits w.slot) ||
    ((!rValid w.rec_ || (m.olderSlots (rKey w.rec_) w.slot).isEmpty) && (m.slotPcs w.slot).all fun p => m.pcRoom p false)

/-- Whether a way can be reused: not pinned, and its write-back done, queued, or to be queued now (R293, R294). -/
def Mach.wayAvail (m : Mach) (v : Nat) (w : Way) : Bool := !m.pinned v w && m.wayDone w

/-- A way of the set for a new record (R293): an empty one, or the least recently used that can be reused, written back if dirty. -/
def Mach.takeWay (m : Mach) (v h : Nat) : Option (Nat × Mach) :=
  match (List.range 16).find? fun w => (m.way (wayKey v h w)).isNone with
  | some w => some (wayKey v h w, m)
  | none =>
    let ok := (List.range 16).filterMap fun w => match m.way (wayKey v h w) with
      | some x => if m.wayAvail v x then some (wayKey v h w, x) else none
      | none => none
    match ok.foldl (fun best p => match best with
        | some (k, x) => if p.2.used < x.used then some p else some (k, x)
        | none => some p) (none : Option (Nat × Way)) with
    | none => none
    | some (k, x) =>
      let m := if x.dirty ∧ ¬(x.wb ≠ 0 ∧ x.wbRec = x.rec_) then (m.writeSlot x.slot x.rec_).2.bump O.eddyEvictDirty v else m
      some (k, m.setWay k none)

/-- A way that another of its slot replaces leaves the eddy, written back first where it is dirty; none while its write-back cannot be queued (R294, R650). -/
def Mach.replaceWay (m : Mach) (g : Nat) : Option Mach :=
  match m.wayBySlot g with
  | some (k, w) =>
    if m.wayDone w then some ((if w.dirty ∧ ¬(w.wb ≠ 0 ∧ w.wbRec = w.rec_) then (m.writeSlot g w.rec_).2 else m).setWay k none) else none
  | none => some m

/-- A record placed in the eddy of basin v at a slot; an older way of that slot gives way to it. None where every way is pinned, or the older way's write-back
is still to be queued. -/
def Mach.place (m : Mach) (v g h rec_ : Nat) (dirty : Bool) : Option Mach :=
  (m.replaceWay g).bind fun m => (m.takeWay v h).map fun x =>
    let n := x.2.dp.eddyUse + 1
    { x.2.setWay x.1 (some ⟨g, rec_, dirty, m.ns, n, 0, 0⟩) with dp.eddyUse := n }

/-- Change the record that a way holds. -/
def Mach.setRec (m : Mach) (k : Nat) (w : Way) (rec_ : Nat) : Mach :=
  let n := m.dp.eddyUse + 1
  let at_ := if w.dirty then w.dirtyAt else m.ns
  { m.setWay k (some { w with rec_ := rec_, dirty := true, dirtyAt := at_, used := n }) with dp.eddyUse := n }

/-- WRITE_BACK_AGE (R294): slot j of share b, dirty for FLW-WB-AGE, is written back and stays. -/
def Mach.writeBackAge (m : Mach) (b j : Nat) : Mach :=
  let g := slotKey b j
  match m.wayBySlot g with
  | some (_, w) =>
    if w.dirty ∧ ¬(w.wb ≠ 0 ∧ w.wbRec = w.rec_) then
      let m := m.reach (w.dirtyAt + 1000 * m.rd O.flwWbAge)
      let (issued, m) := m.writeBackOrdered g
      if issued then m.bump O.eddyWbAged (m.server b) else m
    else m
  | none => m

/-! Placement and relocation (R283). -/

/-- The lowest free slot of a bucket. -/
def Mach.freeIn (m : Mach) (b j : Nat) : Option Nat :=
  (List.range 4).findSome? fun k => if m.slotFree (slotKey b (4 * j + k)) then some (slotKey b (4 * j + k)) else none

/-- The other candidate bucket of a record that sits in bucket j. -/
def Mach.otherBucket (m : Mach) (b j rec_ : Nat) : Nat :=
  let h := m.hOf (rKey rec_)
  let b1 := m.cand b h false
  if j = b1 then m.cand b h true else b1

/-- A chain of at most `depth` moves that frees a slot of bucket j: the slot from which its last record moves, which is moved first. A record in a
withdrawn slot is not moved. -/
def Mach.relocChain (m : Mach) (b j depth : Nat) (seen : List Nat) : Option Nat :=
  match depth with
  | 0 => none
  | d + 1 =>
    (List.range 4).findSome? fun k =>
      let g := slotKey b (4 * j + k)
      let r := m.slotRec g
      if !rValid r || mget false m.dp.gone g then none
      else
        let o := m.otherBucket b j r
        if seen.contains o then none
        else if (m.freeIn b o).isSome then some g
        else m.relocChain b o d (o :: seen)

/-- The record that is moved first of a shortest chain of at most FLW-RELOC-MAX moves for a new record with candidates b1 and b2, by its slot. -/
def Mach.relocFirst (m : Mach) (b b1 b2 : Nat) : Option Nat :=
  (List.range (m.rd O.flwRelocMax)).findSome? fun d =>
    match m.relocChain b b1 (d + 1) [b1, b2] with
    | some g => some g
    | none => m.relocChain b b2 (d + 1) [b1, b2]

/-- One move of a record to a free slot: the older slot is cleared (R283, R650). None where no way is free. -/
def Mach.moveRec (m : Mach) (g g' : Nat) : Option Mach :=
  let v := m.server (g / 2 ^ 24)
  let r := m.slotRec g
  let h := m.hOf (rKey r)
  match m.place v g' h r true with
  | none => none
  | some m =>
    match m.wayBySlot g with
    | some (k, w) => some (m.setRec k w 0)
    | none => m.place v g h 0 true

/-- The move of a key's record to the lowest free slot of its other candidate bucket, once its chain is clear: whether it was made, and the machine;
none where no way is free. No record is moved into a bucket that is being split (R286). -/
def Mach.relocMove (m : Mach) (key : Nat) : Option (Bool × Mach) :=
  match m.findRec key with
  | none => some (false, m)
  | some (g, r) =>
    let b := g / 2 ^ 24
    let o := m.otherBucket b (g % 2 ^ 24 / 4) r
    match if m.beingSplit b o then none else m.freeIn b o with
    | none => some (false, m)
    | some g' => (m.moveRec g g').map fun m => (true, m)

/-- The slot a new record of share b takes: the lowest free one of b1 or b2 (R283). -/
def Mach.slotFor (m : Mach) (b h : Nat) : Option Nat :=
  match m.freeIn b (m.cand b h false) with
  | some g => some g
  | none => m.freeIn b (m.cand b h true)

end Sys2Proof.Machine
end

