-- ==== Sys2Proof/Machine/Events.lean ====
section
/-! DEFINITION. Events of the sluices (Tables 11.2 to 11.4), how they are posted, and the scheduling trace (R386, R387). -/

namespace Sys2Proof.Machine

/-! Heads. -/

/-- An event from its fields. -/
def mkEv (kind flags src domain arg body sender : Nat) : Ev :=
  { head := pack [(1, kind), (1, flags), (1, src), (1, 0), (4, domain), (8, arg)], body := body, sender := sender }

/-- A field of an event's head (Table 11.3). -/
def Ev.f (e : Ev) (off n : Nat) : Nat := fld 16 e.head off n

/-- KIND of an event. -/
def Ev.kind (e : Ev) : Nat := e.f 0 1

/-- A flag of EFLAGS: 7 RESERVED, 6 PREEMPTIBLE, 5 STARTED, 4 TARGET-LINK, 3 LINK-FAILED. -/
def Ev.flag (e : Ev) (k : Nat) : Bool := bit (e.f 1 1) k

/-- An event with a flag of EFLAGS set. -/
def Ev.set (e : Ev) (k : Nat) : Ev :=
  { e with
    head := setFld 16 e.head 1 1 (e.f 1 1 ||| 2 ^ k) }

/-- An event with RESERVED clear. -/
def Ev.general (e : Ev) : Ev :=
  { e with
    head := setFld 16 e.head 1 1 (e.f 1 1 % 128) }

/-- ARG of an event. -/
def Ev.arg (e : Ev) : Nat := e.f 8 8

/-- Class of a kind (Table 11.2): 0 FLOW, 1 AGE, 2 EXPORT, 3 MAINT. -/
def evClass (kind : Nat) : Nat := match kind with | 7 => 1 | 8 => 2 | 9 => 3 | 10 => 3 | _ => 0

/-- Kinds that may use the reserved space (R361). -/
def evReserved (kind : Nat) : Bool := kind = 2 || kind = 3 || kind = 4 || kind = 6

/-- Kinds that take an in-flight entry when dispatched (R335, R360). -/
def evRecord (kind : Nat) : Bool := kind = 1 || kind = 2 || kind = 3 || kind = 4 || kind = 7

/-- DOMAIN of a record's hash. -/
def domRecord (h : Nat) : Nat := h % 2 ^ 30

/-- DOMAIN of a pool. -/
def domPool (e : Nat) : Nat := 2 ^ 30 + e % 2 ^ 24

/-- DOMAIN of a pair of basins. -/
def domPair (src dst : Nat) : Nat := 2 * 2 ^ 30 + src * 16 + dst

/-- DOMAIN NONE. -/
def domNone : Nat := 3 * 2 ^ 30

/-! Sluices. -/

/-- Sluice v. -/
def Mach.slu (m : Mach) (v : Nat) : Slu := mget {} m.dp.slu v

/-- The machine with a sluice replaced. -/
def Mach.setSlu (m : Mach) (v : Nat) (x : Slu) : Mach := { m with dp.slu := mset {} m.dp.slu v x }

/-- An event sent to the sluice of a basin: at once on its own basin, else as a message on one channel of the pair of dies, so that
events between two sluices arrive in the order posted (R360, R445). -/
def Mach.postEv (m : Mach) (v tgt : Nat) (e : Ev) : Mach :=
  if v = tgt then
    let s := m.slu v
    m.setSlu v { s with inbox := s.inbox ++ [e] }
  else m.post (2 * (v / 4)) (2 * (tgt / 4)) (tgt % 4) (.event tgt e)

/-- A context. -/
def Mach.ctx (m : Mach) (v k : Nat) : Option Ctx := mget none (m.slu v).ctxs k

/-- The machine with a context replaced. -/
def Mach.setCtx (m : Mach) (v k : Nat) (x : Option Ctx) : Mach :=
  let s := m.slu v
  m.setSlu v { s with ctxs := mset none s.ctxs k x }

/-- An event posted by a sluice's context, which waits at the post until the event has met its list (R361); `by_` is none where no context posts. -/
def Mach.postBy (m : Mach) (by_ : Option (Nat × Nat)) (v tgt : Nat) (e : Ev) : Mach :=
  let m := match by_ with
    | some (w, k) => (match m.ctx w k with
      | some x => m.setCtx w k (some { x with posts := x.posts + 1 })
      | none => m)
    | none => m
  m.postEv v tgt { e with by_ := by_ }

/-- The sluice that serves a key's home basin. -/
def Mach.sluiceOf (m : Mach) (key : Nat) : Nat := m.server (m.shareOf key)

/-- The sluice where pool e is homed (R368, R592). -/
def Mach.poolHome (m : Mach) (e : Nat) : Nat := m.server (e % 16)

/-! The scheduling trace. -/

/-- Line of the primary stack of basin v that holds trace record i (R391). -/
def trcLine (v i : Nat) : Nat := 188743680 + v % 4 / 2 * 2 ^ 20 + i / 2

/-- Pseudo-channel of a trace record's line (R391, R394). -/
def Mach.trcPc (m : Mach) (v i : Nat) : Nat := m.pcOf (primStack v) (trcLine v i)

/-- Entry i of a trace written, by a TRACE request of its line (R386, R396). -/
def Mach.trcStore (m : Mach) (v i rec_ : Nat) : Mach :=
  (m.setEnt O.trace v i rec_).pcPush (m.trcPc v i)
    { write := true, line := trcLine v i, lines := 1, cls := .trace, opn := false, look := none, wb := none, who := 4 }

/-- One trace record written at TRC-NEXT, with its SEQ; ONE-SHOT and a fired trigger end the trace (R387). -/
def Mach.trcPut (m : Mach) (v rec_ : Nat) : Mach :=
  let i := m.rd O.trcNext v
  let s := m.slu v
  let m := m.trcStore v i (setFld 32 rec_ 0 4 s.trcSeq)
  let m := m.wr O.trcNext v ((i + 1) % 2097152)
  let s := { s with trcSeq := (s.trcSeq + 1) % 2 ^ 32, trcWrote := s.trcWrote + 1 }
  let st := m.rd O.trcState v
  if m.rd O.trcMode v = 2 ∧ 2097152 ≤ s.trcWrote then (m.setSlu v s).wr O.trcState v 3
  else if st = 2 then (if s.trcLeft ≤ 1 then (m.setSlu v { s with trcLeft := 0 }).wr O.trcState v 3 else m.setSlu v { s with trcLeft := s.trcLeft - 1 })
  else if m.rd O.trcMode v = 3 ∧ fld 32 rec_ 12 1 = m.rd O.trcTrigger v / 256 ∧ fld 32 rec_ 22 1 = m.rd O.trcTrigger v % 256 then
    let t := setFld 32 (setFld 32 rec_ 12 1 7) 0 4 s.trcSeq
    let j := m.rd O.trcNext v
    let m := if bit (m.rd O.trcWhat v) 7 then (m.trcStore v j t).wr O.trcNext v ((j + 1) % 2097152) else m
    (m.setSlu v { s with trcSeq := (s.trcSeq + 1) % 2 ^ 32, trcLeft := m.rd O.trcAfter v }).wr O.trcState v 2
  else m.setSlu v s

/-- Whether a trace writes: RUNNING or TRIGGERED, in a mode other than OFF (R387). -/
def Mach.trcOn (m : Mach) (v : Nat) : Bool := decide (m.rd O.trcState v = 1 ∨ m.rd O.trcState v = 2) && decide (m.rd O.trcMode v ≠ 0)

/-- Trace records leave their queue while their pseudo-channel takes trace writes, none where the stack is lost; the one at the head waits, counted once
(R386, R398). Those queued when the trace stops are not written (R387). -/
def Mach.trcDrain (m : Mach) (v fuel : Nat) : Mach :=
  match fuel with
  | 0 => m
  | f + 1 =>
    match (m.slu v).trcQ with
    | [] => m
    | r :: t =>
      let s := m.slu v
      let p := m.trcPc v (m.rd O.trcNext v)
      if !m.trcOn v then m.setSlu v { s with trcQ := [], trcWait := false }
      else if m.stackLost (primStack v) then m
      else if m.pcRoom p true then ((m.setSlu v { s with trcQ := t, trcWait := false }).trcPut v r).trcDrain v f
      else if s.trcWait then m
      else (m.setSlu v { s with trcWait := true }).bump O.pcQfullWaits p

/-- A decision of the sluice traced (Table 11.7): what, event, context and reason. A record that finds the queue full is dropped, and the
next is preceded by a GAP record. -/
def Mach.trc (m : Mach) (v what : Nat) (e : Ev) (ctx reason : Nat) : Mach :=
  let m := m.trcDrain v 257
  if !m.trcOn v || !bit (m.rd O.trcWhat v) what || !bit (m.rd O.trcKinds v) e.kind then m
  else
    let mk := fun what reason ref =>
      pack [(4, 0), (8, m.ns), (1, what), (1, e.kind), (1, evClass e.kind), (1, ctx), (4, e.f 4 4), (2, e.steps), (1, reason), (1, e.f 2 1 % 16), (8, ref)]
    let s := m.slu v
    let gap := if s.trcGap ≠ 0 ∧ bit (m.rd O.trcWhat v) 6 then [mk 6 0 s.trcGap] else []
    if 256 ≤ s.trcQ.length + gap.length then (m.setSlu v { s with trcGap := s.trcGap + 1 }).bump O.trcLost v
    else
      (m.setSlu v { s with trcQ := s.trcQ ++ gap ++ [mk what reason e.arg], trcGap := 0 }).trcDrain v 257

/-- TRC_ARM (R387). -/
def Mach.trcArm (m : Mach) (v : Nat) : Mach :=
  let s := m.slu v
  let m := m.setSlu v { s with trcWrote := 0, trcLeft := 0, trcGap := 0, trcQ := [], trcWait := false }
  (((m.wr O.trcNext v 0).wr O.trcLost v 0).wr O.trcState v (if m.rd O.trcMode v = 0 then 0 else 1)).st .ok

end Sys2Proof.Machine
end

