-- ==== Sys2Proof/Machine/Flow.lean ====
section
/-! DEFINITION. The basin: in-flight entries and chains (R335 to R342), the operation on a found record (R303 to R308), the creation
limits (R309, R346 to R352), deletion (R320), verdicts (R298) and host requests (R322 to R324). -/

namespace Sys2Proof.Machine

/-! In-flight entries. -/

/-- The entries of a basin. -/
def Mach.ifts (m : Mach) (v : Nat) : List (Nat × Ift) :=
  (m.basin v).ift.filterMap fun p => match p.2 with | some x => some (p.1, x) | none => none

/-- An entry. -/
def Mach.ift (m : Mach) (v e : Nat) : Option Ift := mget none (m.basin v).ift e

/-- The machine with an entry replaced. -/
def Mach.setIft (m : Mach) (v e : Nat) (x : Option Ift) : Mach :=
  let b := m.basin v
  m.setBasin v { b with ift := mset none b.ift e x }

/-- Whether an entry heads its chain (R337). -/
def Mach.isHead (m : Mach) (v : Nat) (x : Ift) : Bool := (m.ifts v).all fun p => decide (p.2.key ≠ x.key ∨ x.seq ≤ p.2.seq)

/-- IFT-CREATING. -/
def Mach.iftCreating (m : Mach) (v : Nat) : Nat := ((m.ifts v).filter fun p => p.2.creating).length

/-- A free entry for an operation: a packet uses the first 3,840 only (R335). -/
def Mach.freeEntry (m : Mach) (v : Nat) (packet : Bool) : Option Nat :=
  let t := (m.basin v).ift
  match (List.range 3840).find? fun k => (mget none t k).isNone with
  | some k => some k
  | none => if packet then none else ((List.range 256).map (· + 3840)).find? fun k => (mget none t k).isNone

/-- Whether an operation serves a packet. -/
def IOp.isPacket : IOp → Bool
  | .packet _ => true
  | _ => false

/-- Whether a basin's STOP waits for an operation: a packet's or a mill event's (R327). -/
def IOp.drains : IOp → Bool
  | .packet _ => true
  | .mill _ => true
  | _ => false

/-- Whether an operation acts on a key, and so makes the lookup of R282 at the head of its chain; the others act on a slot (R338). -/
def IOp.looks : IOp → Bool
  | .read _ => false
  | .move _ _ => false
  | _ => true

/-- The bucket of share b that is being split (R338): one whose split has begun, whether or not its event is in execution now, or whose SPLIT at basin v is. -/
def Mach.splitting (m : Mach) (v b : Nat) : Option Nat :=
  if mget false m.dp.splits b then some (m.rd O.bsnSplit b)
  else (m.slu v).ctxs.findSome? fun p => match p.2 with
    | some x => if x.ev.kind = 10 ∧ x.ev.sender % 16 = b ∧ m.dp.growing then some (x.ev.arg / 2 ^ 32) else none
    | none => none

/-- Whether a lookup must wait for a split (R338): a candidate of its key is the bucket being split, or that bucket's new half. -/
def Mach.guarded338 (m : Mach) (v key hash : Nat) : Bool :=
  let b := m.shareOf key
  match m.splitting v b with
  | some p => [m.cand b hash false, m.cand b hash true].any fun j => decide (j = p ∨ j = p + m.nb)
  | none => false

/-- An entry counted once as waiting in its chain, or for a split (R337, R338). -/
def Mach.chainWait (m : Mach) (v e : Nat) (x : Ift) : Mach :=
  if x.behind then m else (m.setIft v e (some { x with behind := true })).bump O.iftChainWaits v

/-- Begin the lookup of an operation's key (R282): the eddy, else the heads of b1, unless a split is to end first (R338). -/
def Mach.startLookup (m : Mach) (c : ModeCtl) (v e : Nat) (x : Ift) : Mach :=
  match m.wayByKey v x.hash x.key with
  | some _ => (m.setIft v e (some { x with look := .found })).bump O.eddyHits v
  | none =>
    if m.guarded338 v x.key x.hash then m.chainWait v e x
    else
      let m := (m.bump O.eddyMisses v).pulse c (192 + 4 * v) 0x12 0
      let b := m.shareOf x.key
      let copy := m.readCopy b
      let (s, line) := bucketLine b copy (m.cand b x.hash false)
      let (n, m) := m.readLines s line 4 (v, x.seq) true
      m.setIft v e (some { x with look := .heads false, reads := n })

/-- An operation received (R336, R337): it takes entry e; the first of a chain looks its key up, a later one that is no packet's waits from here on. -/
def Mach.receive (m : Mach) (c : ModeCtl) (v e : Nat) (w : Arrival) : Mach :=
  let b := m.basin v
  let first := (m.ifts v).all fun p => decide (p.2.key ≠ w.key)
  let x : Ift := { op := w.op, key := w.key, hash := m.hOf w.key, q := w.q, at_ := m.ns, seq := b.seq, look := .idle, reads := 0, result := none,
                   creating := false, behind := false, wayWait := false, joined := false }
  let m := (m.setBasin v { b with seq := b.seq + 1 }).setIft v e (some x)
  let m := m.peak O.iftPeak v (m.ifts v).length
  if first then (if w.op.looks then m.startLookup c v e x else m)
  else if w.op.isPacket then m
  else m.chainWait v e x

/-- Entrance waits served as entries free (R336): the older head takes one of the first 3,840; a reserved one goes to the second queue. -/
def Mach.admitWait (m : Mach) (c : ModeCtl) (v : Nat) : Mach :=
  let b := m.basin v
  let pickPkt := match b.inPkt, b.inOther with
    | p :: _, o :: _ => decide (p.arr < o.arr)
    | _ :: _, [] => true
    | [], _ => false
  match m.freeEntry v true with
  | some e =>
    (match pickPkt, b.inPkt, b.inOther with
     | true, p :: r, _ => (m.setBasin v { b with inPkt := r }).receive c v e p
     | false, _, o :: r => (m.setBasin v { b with inOther := r }).receive c v e o
     | _, _, _ => m)
  | none =>
    match b.inOther, m.freeEntry v false with
    | o :: r, some e => (m.setBasin v { b with inOther := r }).receive c v e o
    | _, _ => m

/-- A host or mill operation at the entrance: received, or waiting and counted once (R336, R367). Answers its entry. -/
def Mach.enterOther (m : Mach) (c : ModeCtl) (v : Nat) (op : IOp) (key : Nat) : Option Nat × Mach :=
  let b := m.basin v
  let w : Arrival := { op := op, key := key, q := 0, arr := b.seq }
  match (if b.inOther.isEmpty then m.freeEntry v false else none) with
  | some e => (some e, m.receive c v e w)
  | none => (none, (m.setBasin v { b with inOther := b.inOther ++ [w], seq := b.seq + 1 }).bump O.iftFullWaits v)

/-- Operations that head their chains and have not begun their lookups begin them: a split has ended (R338). -/
def Mach.lookupsGo (m : Mach) (c : ModeCtl) (v : Nat) : Mach :=
  (m.ifts v).foldl (fun m p => if p.2.op.looks && p.2.look == Look.idle && m.isHead v p.2 then m.startLookup c v p.1 p.2 else m) m

/-- The entry next in a chain at its head (R337): it uses the record that the chain holds in the eddy; where the record is not there and the entry before
has not found it absent, it makes its own lookup. -/
def Mach.headNow (m : Mach) (c : ModeCtl) (v e : Nat) (y : Ift) (known : Bool) : Mach :=
  if !y.op.looks then m
  else if (m.wayByKey v y.hash y.key).isSome then m.setIft v e (some { y with look := .found })
  else if known && (m.findRec y.key).isNone then m.setIft v e (some { y with look := .absent })
  else m.startLookup c v e y

/-- An entry released (R339): the next of its chain goes on with what is known of the record, and a waiting operation is received. Every packet that waited
for a creation which made its record is applied to it as one that joined (Table 10.2). -/
def Mach.freeIft (m : Mach) (c : ModeCtl) (v e : Nat) : Mach :=
  match m.ift v e with
  | none => m
  | some x =>
    let m := m.setIft v e none
    let later := (m.ifts v).filter fun p => decide (p.2.key = x.key)
    let m := if x.creating && (m.wayByKey v x.hash x.key).isSome then
        later.foldl (fun m p => m.setIft v p.1 (some { p.2 with joined := p.2.op.isPacket })) m else m
    let next := later.foldl (fun best p => match best with
      | some (k, y) => if p.2.seq < y.seq then some p else some (k, y)
      | none => some p) (none : Option (Nat × Ift))
    let m := match next with
      | some (k, _) => (match m.ift v k with
        | some y => m.headNow c v k y (x.look == Look.found || x.look == Look.absent)
        | none => m)
      | none => m
    m.admitWait c v

/-- QUERY_RECEIPT (R334, R336): a waiting operation is received, else the query at the head of a channel from reach src. A query that finds no
entry waits, counted once, and holds back those behind it on its channel, whichever basin of the die they are for. -/
def Mach.queryReceipt (m : Mach) (c : ModeCtl) (v src : Nat) : Mach :=
  let m := m.admitWait c v
  if 8 ≤ src then m
  else
    let b := m.basin v
    let chs := (List.range 4).map fun k => chanNum src (2 * (v / 4)) k
    let die := (List.range 4).flatMap fun k => (m.basin (v / 4 * 4 + k)).inPkt
    let held := fun (q : Nat) => die.any fun w => decide (fld 64 w.q 52 4 / 2 ^ 29 = src) && decide (flowChan (m.flowHash w.key) = flowChan (m.flowHash (fld 64 q 0 48)))
    match m.takeMsg chs fun x => match x with | .query b' _ q => decide (m.server b' = v) && !held q | _ => false with
    | some (.query _ p q, m) =>
      if m.fst (fnNum .basin v) = .faulted then m
      else
        let w : Arrival := { op := .packet p, key := fld 64 q 0 48, q := q, arr := b.seq }
        (match (if b.inPkt.isEmpty then m.freeEntry v true else none) with
         | some e => m.receive c v e w
         | none => (m.setBasin v { b with inPkt := b.inPkt ++ [w], seq := b.seq + 1 }).bump O.iftFullWaits v)
    | _ => m

/-- The lookup of an entry goes on once its reads are done (R282, R293, R338): the next bucket, the tail, or the record into the eddy. -/
def Mach.bucketRead (m : Mach) (v e : Nat) : Mach :=
  match m.ift v e with
  | none => m
  | some x =>
    if x.reads ≠ 0 then m
    else
      let b := m.shareOf x.key
      let read := fun (m : Mach) (line n : Nat) (opn : Bool) (look : Look) =>
        let s := (bucketLine b (m.readCopy b) 0).1
        let (k, m) := m.readLines s line n (v, x.seq) opn
        m.setIft v e (some { x with look := look, reads := k })
      match x.look with
      | .heads second =>
        let j := m.cand b x.hash second
        (match m.slotIn b j x.key with
         | some g => read m ((bucketLine b (m.readCopy b) j).2 + 4 + g % 4) 1 false (.tail g)
         | none =>
           if second then m.setIft v e (some { x with look := .absent })
           else read m (bucketLine b (m.readCopy b) (m.cand b x.hash true)).2 4 true (.heads true))
      | .tail g =>
        let r := m.slotRec g
        if !rValid r || decide (rKey r ≠ x.key) then m.setIft v e (some { x with look := .absent })
        else if (m.wayByKey v x.hash x.key).isSome then m.setIft v e (some { x with look := .found })
        else
          (match m.place v g x.hash r false with
           | some m => m.setIft v e (some { x with look := .found })
           | none => if x.wayWait then m else (m.setIft v e (some { x with wayWait := true })).bump O.iftWayWaits v)
      | _ => m

/-! Counts of records (R320, R348). -/

/-- A tenant's record count at a share changed by one. -/
def Mach.tenCount (m : Mach) (key : Nat) (up : Bool) : Mach :=
  let i := 16 * keyTenant key + m.shareOf key
  let n := m.ent O.tenFlowCount 0 i
  m.setEnt O.tenFlowCount 0 i (if up then n + 1 else n - 1)

/-- ACTIVE of an endpoint entry changed by one (Table 9.13). -/
def Mach.epActive (m : Mach) (e : Nat) (up : Bool) : Mach :=
  if e = 0xFFFFFF then m
  else if up then m.bumpF O.epTable 0 e 44 4
  else m.setEnt O.epTable 0 e (setFld 64 (m.ent O.epTable 0 e) 44 4 (m.entF O.epTable 0 e 44 4 - 1))

/-- A record has been made (R320's converse): BSN-CREATED, the share's and the tenant's counts, ACTIVE. -/
def Mach.recMade (m : Mach) (c : ModeCtl) (v rec_ : Nat) : Mach :=
  let b := m.shareOf (rKey rec_)
  let m := ((m.bump O.bsnCreated v).bump O.bsnRecords b).pulse c (192 + 4 * v) 0x13 0
  (m.tenCount (rKey rec_) true).epActive (rf rec_ 90 3) true

/-- The pair that the record of a key belongs to (Table 10.2). -/
def Mach.pairOf (m : Mach) (key : Nat) : Nat := mget 0 m.dp.pairIds key

/-- The record of a key made part of a pair. -/
def Mach.setPair (m : Mach) (key id : Nat) : Mach := { m with dp.pairIds := mset 0 m.dp.pairIds key id }

/-- A new paired record begins a pair of its own. -/
def Mach.newPair (m : Mach) (rec_ : Nat) : Mach :=
  if rPaired rec_ then
    let n := m.dp.pairNext + 1
    ({ m with dp.pairNext := n }).setPair (rKey rec_) n
  else m

/-! Deletion (R320, R371). -/

/-- PAIR-DELETE for a record's partner (R371 step 1), with the pool and port to be released where `port` says so (R409). -/
def Mach.postPairDelete (m : Mach) (v rec_ : Nat) (port : Bool) (by_ : Option (Nat × Nat) := none) : Mach :=
  let pk := (m.partnerKey rec_).1
  let t := m.sluiceOf pk
  let arg := match (if port then rPoolPort rec_ else none) with | some (e, p) => pack [(3, e), (2, p), (3, 0)] | none => pack [(3, 0xFFFFFF), (5, 0)]
  m.postBy by_ v t (mkEv 4 (if rLink rec_ then 0 else 16) v (domPair v t) arg pk rec_)

/-- What a record's deletion does besides clearing its slot (R320): the FINAL record, counts lowered and the partner told, by the context that deletes it. -/
def Mach.delNotes (m : Mach) (c : ModeCtl) (v rec_ why : Nat) (partner final : Bool) (by_ : Option (Nat × Nat) := none) : Mach :=
  let m := if rbit rec_ 48 1 && final then m.flFlow c v (m.rd O.flFlowTemplate) rec_ why false else m
  let m := ((m.epActive (rf rec_ 90 3) false).tenCount (rKey rec_) false).setPair (rKey rec_) 0
  let m := (m.bump O.bsnDeleted v).lower O.bsnRecords (m.shareOf (rKey rec_))
  if partner && rPaired rec_ then m.postPairDelete v rec_ true by_ else m

/-- The record of way k deleted (R320): VALID is cleared in the eddy copy, which is written back in its turn. -/
def Mach.delRec (m : Mach) (c : ModeCtl) (v k : Nat) (w : Way) (why : Nat) (partner final : Bool) (by_ : Option (Nat × Nat) := none) : Mach :=
  (m.setRec k w 0).delNotes c v w.rec_ why partner final by_

/-- An expired record deleted, counted by its cause (R318, R320). -/
def Mach.ageOut (m : Mach) (c : ModeCtl) (v k : Nat) (w : Way) (why : Nat) (by_ : Option (Nat × Nat) := none) : Mach :=
  (m.delRec c v k w why true true by_).bump (if why = 2 then O.bsnAgedAbs else O.bsnAgedIdle) v

/-! Verdicts (R298). -/

/-- A verdict from its fields (Table 9.7). -/
def verdict (tag flags reason vmisc dscp dest port addr : Nat) : Nat :=
  pack [(4, tag), (1, flags), (1, reason), (1, vmisc), (1, dscp), (4, dest), (2, port), (2, 0), (16, addr)]

/-- A verdict sent to its packet's reach. -/
def Mach.sendVerdict (m : Mach) (v : Nat) (x : Ift) (w : Nat) : Mach :=
  match x.op with
  | .packet p => m.post (2 * (v / 4)) (fld 64 x.q 52 4 / 2 ^ 29) (flowChan (m.flowHash x.key)) (.verdict p w)
  | _ => m

/-- TAG of an entry's query. -/
def Ift.tag (x : Ift) : Nat := fld 64 x.q 52 4

/-- A verdict with flags and reason only. -/
def Ift.plain (x : Ift) (flags reason : Nat) : Nat := verdict x.tag flags reason 0 0xFF 0 0 0

/-- The verdict of a record for a packet (Tables 9.7 and 9.8): drop reason, colour where metered, pin, and rewrite of forward packets. -/
def Mach.recVerdict (m : Mach) (x : Ift) (r drop : Nat) (fwd : Bool) (col : Option Nat) (extra : Nat) : Nat :=
  let flags := 0x80 + extra + (if drop ≠ 0 then 0x20 else 0) + (if rbit r 48 2 then 0x10 else 0) +
    (if rbits r 51 5 4 ≠ 0 && fwd then 8 else 0) + (if col.isSome then 4 else 0)
  let rw := rbits r 51 5 4 ≠ 0 && fwd
  verdict x.tag flags drop (col.getD 0 * 64 + (if rw then rbits r 51 5 4 * 16 else 0)) (match col with | some k => m.meterDscp r k | none => 0xFF)
    (if rbit r 48 2 then rf r 108 4 else 0) (if rw then rf r 94 2 else 0) (if rw then rf r 112 16 else 0)

/-! The operation on a found record (R303). -/

/-- Whether a packet is forward for a record (R288). -/
def isFwd (x : Ift) (r : Nat) : Bool := decide (bit (fld 64 x.q 58 1) 7 = rbit r 48 5)

/-- PAIR-NOTE after a change of a paired record's FWD-HALF or RST (R308). -/
def Mach.pairNote (m : Mach) (v old new : Nat) : Mach :=
  if rPaired new && (rbits old 50 7 6 != rbits new 50 7 6 || rbit old 50 3 != rbit new 50 3) then
    let pk := (m.partnerKey new).1
    let t := m.sluiceOf pk
    m.postEv v t { mkEv 3 0 v (domPair v t) ((rbits new 50 7 6 * 2 + ofB (rbit new 50 3)) * 2 ^ 61) pk new with pair := m.pairOf (rKey new) }
  else m

/-- A packet's meter, count and verdict on a record whose CONN stands (steps 4 and 5 of R303): the record and the verdict. -/
def Mach.passRecord (m : Mach) (x : Ift) (r : Nat) (drop : Bool) (extra : Nat) : Nat × Nat :=
  let fwd := isFwd x r
  let n := fld 64 x.q 60 2
  let (col, r) := if drop || !rbit r 48 3 then (none, r) else let y := m.meter r n; (some y.1, y.2)
  let red := decide (col = some 2) && decide (m.entF O.mtrProfile 0 (rf r 88 2 % 4096) 1 1 = 0)
  let reason := if drop then 0x20 else if red then 0x61 else 0
  (m.rCount r n fwd, m.recVerdict x r reason fwd col extra)

/-- A packet operation on a found record (R303). -/
def Mach.applyFound (m : Mach) (c : ModeCtl) (v e : Nat) (x : Ift) (k : Nat) (w : Way) : Mach :=
  let r := w.rec_
  let tcp := bit (fld 64 x.q 58 1) 6
  let flags := fld 64 x.q 59 1
  let conn := rf r 50 1
  let r1 := if tcp && rbit r 48 4 then rset r 50 1 (connStep conn (isFwd x r) flags) else r
  let r1 := rChange r r1
  let (r2, ver) := m.passRecord x r1 (filterDrops r conn tcp flags) 0
  let m := (m.setRec k w r2).pairNote v r r2
  let m := if x.joined then m.bump O.createJoined v else m
  (m.sendVerdict v x ver).freeIft c v e

/-! Creation (R309, R346 to R352). -/

/-- m_b: the entries of BASIN-MAP that name a basin (R347). -/
def Mach.mapCount (m : Mach) (b : Nat) : Nat := ((List.range 4096).filter fun i => decide (m.ent O.basinMap 0 i % 16 = b)).length

/-- Whether the tenant allowance refuses a creation (R346, R347). -/
def Mach.allowRefuses (m : Mach) (v key : Nat) : Bool :=
  let t := keyTenant key
  let b := m.shareOf key
  let q := m.ent O.tenFlowQuota 0 t
  decide (q ≠ 0) && decide ((q * m.mapCount b + 4095) / 4096 ≤ m.ent O.tenFlowCount 0 (16 * t + b) + mget 0 (m.basin v).pendCreate (16 * t + b))

/-- Whether a group's mills are halved (R384). -/
def Mach.millHalf (m : Mach) (c : ModeCtl) : Bool := m.rdB O.leanMillHalf && decide (c.mode = .lean) && decide (c.trans ≠ some .toLit)

/-- CRB-EFFECTIVE (R349); a mill group whose tiles have not been measured yet limits nothing. -/
def Mach.crbEffective (m : Mach) (c : ModeCtl) (v : Nat) : Nat :=
  let g := if m.millHalf c then 8 else 16
  let cyc := if g = 8 then m.rd O.tilePaceEq (256 + 2 * v) else max (m.rd O.tilePaceEq (256 + 2 * v)) (m.rd O.tilePaceEq (257 + 2 * v))
  let r := m.rd O.crbRate v
  if cyc = 0 then min r (62500000 * g / 16) else min r (62500000 * 370 * g / (cyc * 16))

/-- Tokens of a basin's budget now, in units of 10^-9 (R349). -/
def Mach.crbTok (m : Mach) (c : ModeCtl) (v : Nat) : Nat :=
  let b := m.basin v
  min (m.rd O.crbBurst v * 1000000000) (b.tok + m.crbEffective c v * (m.ns - b.tokAt))

/-- Every budget brought up to now at its present rate, before the rate changes (R349). -/
def Mach.crbSettle (m : Mach) (c : ModeCtl) : Mach :=
  (List.range 16).foldl (fun m v => if (m.basin v).tokAt = m.ns then m else m.setBasin v { m.basin v with tok := m.crbTok c v, tokAt := m.ns }) m

/-- TEN-REFUSED raised for a reason (Table 10.4). -/
def Mach.tenRefused (m : Mach) (key reason : Nat) : Mach :=
  match reason with
  | 0x30 => m.bumpF O.tenRefused 0 (keyTenant key) 0 8
  | 0x31 => m.bumpF O.tenRefused 0 (keyTenant key) 8 8
  | 0x32 => m.bumpF O.tenRefused 0 (keyTenant key) 16 8
  | 0x33 => m.bumpF O.tenRefused 0 (keyTenant key) 24 8
  | 0x41 => m.bumpF O.tenRefused 0 (keyTenant key) 32 8
  | _ => m

/-- A creation refused (R309, R350, R352): the flow class by which it was decided (R316) says DROP or FLOWLESS; the entry is released. -/
def Mach.refuseCreate (m : Mach) (c : ModeCtl) (v e : Nat) (x : Ift) (reason : Nat) : Mach :=
  let drop := bit (fld 32 x.cls 0 1) 4
  let m := m.tenRefused x.key reason
  let m := if m.rdB O.refuseFlare v then
      m.postEv v v (mkEv 8 0x40 v domNone (pack [(1, 1), (1, reason), (2, keyTenant x.key), (4, 0xFFFFFFFF)]) x.key 0) else m
  (m.sendVerdict v x (x.plain (if drop then 0x20 else 0x02) reason)).freeIft c v e

/-- A packet operation on an absent key (R309): FLOWLESS, refused by a limit in the order of R346, or a CREATE event posted. -/
def Mach.applyAbsent (m : Mach) (c : ModeCtl) (v e : Nat) (x : Ift) : Mach :=
  let res := x.result.getD 0
  let cls := m.ent O.flwClass 0 (fld 16 res 8 1)
  let x := { x with cls := cls }
  let t := 16 * keyTenant x.key + m.shareOf x.key
  if bit (fld 16 res 9 1) 7 || !bit (fld 32 cls 0 1) 7 then (m.sendVerdict v x (x.plain 0x02 0)).freeIft c v e
  else if m.allowRefuses v x.key then (m.bump O.refuseQuota v).refuseCreate c v e x 0x30
  else if m.crbTok c v < 1000000000 then (m.bump O.refuseBudget v).refuseCreate c v e x 0x31
  else if m.rd O.iftCreateMax ≤ m.iftCreating v then (m.bump O.refuseInflight v).refuseCreate c v e x 0x32
  else
    let b := m.basin v
    let m := m.setBasin v { b with
      tok := m.crbTok c v - 1000000000, tokAt := m.ns, pendCreate := mset 0 b.pendCreate t (mget 0 b.pendCreate t + 1) }
    let m := m.setIft v e (some { x with creating := true })
    m.postEv v v (mkEv 1 0 v (domRecord x.hash) (e * 2 ^ 32) 0 x.seq)

/-- A pending creation settled (R348). -/
def Mach.pendDone (m : Mach) (v key : Nat) : Mach :=
  let t := 16 * keyTenant key + m.shareOf key
  let b := m.basin v
  m.setBasin v { b with pendCreate := mset 0 b.pendCreate t (mget 0 b.pendCreate t - 1) }

/-! Host requests (R322 to R324). -/

/-- Where a session's request entry is kept: the table's entries follow one another by session. -/
def reqIdx (ses i : Nat) : Nat := 256 * ses + i

/-- A session's request entry. -/
def Mach.reqEnt (m : Mach) (ses i : Nat) : Nat := m.ent O.flwReq 0 (reqIdx ses i)

/-- A request entry completed with its result, slot and record. -/
def Mach.reqDone (m : Mach) (ses i result : Nat) (slot rec_ : Option Nat) : Mach :=
  let q := m.reqEnt ses i
  let q := setFld 192 q 1 1 result
  let q := setFld 192 q 8 4 (match slot with | some g => m.devSlot g | none => 0xFFFFFFFF)
  let q := match rec_ with | some r => setFld 192 q 64 128 r | none => q
  m.setEnt O.flwReq 0 (reqIdx ses i) q

/-- A record without the fields that leave VERSION alone (R289). -/
def sansFree (r : Nat) : Nat := rsetBits (rset (rset (rset (rset r 52 2 0) 60 4 0) 64 24 0) 96 12 0) 51 7 6 0

/-- The masked groups of an UPDATE written into a record (Table 9.14). -/
def updateRec (r src mask : Nat) : Nat :=
  let cp := fun (r off n : Nat) => rset r off n (rf src off n)
  let cpBit := fun (r off k : Nat) => rsetBits r off k k (rbits src off k k)
  let r := if bit mask 0 then cp (cpBit (cpBit (cpBit (cpBit r 48 6) 48 4) 48 3) 48 1) 49 1 else r
  let r := if bit mask 1 then cp r 50 1 else r
  let r := if bit mask 2 then cp r 64 24 else r
  let r := if bit mask 3 then cp (cp r 88 2) 100 8 else r
  let r := if bit mask 4 then cp (cpBit r 48 2) 108 4 else r
  if bit mask 5 then cp (cp (rsetBits r 51 5 4 (rbits src 51 5 4)) 94 2) 112 16 else r

/-! Placing a new record (R283, R293, R338). -/

/-- An operation waits for an eddy way, counted once (R342). -/
def Mach.wayWaits (m : Mach) (v e : Nat) (x : Ift) : Mach :=
  if x.wayWait then m else (m.setIft v e (some { x with wayWait := true })).bump O.iftWayWaits v

/-- An entry's operation waits for an eddy way, counted once. -/
def Mach.entWaits (m : Mach) (v e : Nat) : Mach :=
  match m.ift v e with
  | some x => m.wayWaits v e x
  | none => m

/-- What placing a new record found: its slot, no chain of moves that frees one, or a wait for a chain, an entry or a way. -/
inductive Placed where
  | at_ (g : Nat) (m : Mach)
  | full (m : Mach)
  | wait (m : Mach)
deriving DecidableEq, Repr

/-- The in-flight entry of the relocation move that an entry's operation makes (R335). -/
def Mach.mover (m : Mach) (v : Nat) (op : IOp) : Option (Nat × Ift) := (m.ifts v).find? fun p => decide (p.2.op = op)

/-- Whether an operation waits at a basin's entrance. -/
def Mach.atDoor (m : Mach) (v : Nat) (op : IOp) : Bool := (m.basin v).inOther.any fun w => decide (w.op = op)

/-- A relocation move made for the operation of entry e counted (R283, Table 11.2). -/
def Mach.moved (m : Mach) (v e b : Nat) : Mach :=
  let m := match m.ift v e with
    | some x => m.setIft v e (some { x with moves := x.moves + 1 })
    | none => m
  m.bump O.bsnRelocations b

/-- Relocation moves made for the operation of entry e. -/
def Mach.movesOf (m : Mach) (v e : Nat) : Nat := match m.ift v e with | some x => x.moves | none => 0

/-- A new record of share b placed for the operation of entry e (R283): in the lowest free slot of b1 or b2, or in one that relocation frees. Each move
takes an in-flight entry in the chain of the key it moves (R335, R338), and is made at that chain's head. It waits while a candidate bucket is being
split: DEDUCED, the split moves what the bucket holds, so nothing is put into it meanwhile (R286, log entry 168). -/
def Mach.placeRun (m : Mach) (c : ModeCtl) (v e b rec_ fuel : Nat) : Placed :=
  match fuel with
  | 0 => .wait m
  | f + 1 =>
    let h := m.hOf (rKey rec_)
    let op := IOp.move false e
    match m.mover v op with
    | some (k, y) =>
      if !m.isHead v y then .wait m
      else
        (match m.relocMove y.key with
         | none => .wait (m.wayWaits v k y)
         | some (true, m) => ((m.moved v e b).freeIft c v k).placeRun c v e b rec_ f
         | some (false, m) => (m.freeIft c v k).placeRun c v e b rec_ f)
    | none =>
      if m.atDoor v op || m.guarded338 v (rKey rec_) h then .wait m
      else
        match m.slotFor b h with
        | some g => (match m.place v g h rec_ true with
          | some m => .at_ g m
          | none => .wait (m.entWaits v e))
        | none =>
          match m.relocFirst b (m.cand b h false) (m.cand b h true) with
          | none => .full m
          | some g => (m.enterOther c v op (rKey (m.slotRec g))).2.placeRun c v e b rec_ f

/-- A new record placed, with as many moves as FLW-RELOC-MAX allows a chain. -/
def Mach.placeNew (m : Mach) (c : ModeCtl) (v e rec_ : Nat) : Placed :=
  m.placeRun c v e (m.shareOf (rKey rec_)) rec_ (2 * m.rd O.flwRelocMax + 3)

/-! Host operations (Table 9.15). -/

/-- A host operation of entry e on a key, found in a way or absent at this moment, which is not expired (R323, Table 9.15): whether it is done, or waits
to place its record. -/
def Mach.hostOn (m : Mach) (c : ModeCtl) (v e ses i : Nat) (found : Option (Nat × Way)) : Bool × Mach :=
  let q := m.reqEnt ses i
  let key := fld 192 q 16 48
  let src := fld 192 q 64 128
  match fld 192 q 0 1, found with
  | 1, some (_, w) => (true, m.reqDone ses i 1 (some w.slot) (some w.rec_))
  | 1, none => (true, m.reqDone ses i 2 none none)
  | 2, found =>
    if rPaired src || rLink src || decide (rKey src ≠ key) then (true, m.reqDone ses i 6 none none)
    else
      (match found with
       | some (_, w) => (true, m.reqDone ses i 3 (some w.slot) none)
       | none =>
         let r := rsetBits (rsetBits src 48 7 7 1) 48 5 5 0
         let r := rset (rset (rset r 52 2 1) 56 4 m.flwClockSec) 60 4 m.flwClockMs
         match m.placeNew c v e r with
         | .at_ g m => (true, (m.recMade c v r).reqDone ses i 1 (some g) (some r))
         | .full m => (true, m.reqDone ses i 4 none none)
         | .wait m => (false, m))
  | 3, some (k, w) =>
    if bit (fld 192 q 2 2) 5 && rPaired w.rec_ then (true, m.reqDone ses i 6 none none)
    else if fld 192 q 4 2 ≠ 0 ∧ fld 192 q 4 2 ≠ rf w.rec_ 52 2 then (true, m.reqDone ses i 5 none none)
    else
      let r1 := updateRec w.rec_ src (fld 192 q 2 2)
      let r2 := if sansFree r1 = sansFree w.rec_ then r1 else rBumpVersion r1
      (true, ((m.setRec k w r2).pairNote v w.rec_ r2).reqDone ses i 1 (some w.slot) (some r2))
  | 3, none => (true, m.reqDone ses i 2 none none)
  | 4, some (k, w) => (true, (m.delRec c v k w 4 true true).reqDone ses i 1 (some w.slot) (some w.rec_))
  | 4, none => (true, m.reqDone ses i 2 none none)
  | _, _ => (true, m)

/-- A host operation applied at the head of its chain: a record found expired is deleted first (R343). -/
def Mach.hostOp (m : Mach) (c : ModeCtl) (v e : Nat) (x : Ift) (ses i : Nat) : Bool × Mach :=
  match m.wayByKey v x.hash x.key with
  | none => m.hostOn c v e ses i none
  | some (k, w) =>
    match m.expired w.rec_ with
    | none => m.hostOn c v e ses i (some (k, w))
    | some why => (m.ageOut c v k w why).hostOn c v e ses i none

/-- Whether a chain's head has found its record, or found it absent, and stands in the eddy with it (R282, R337). -/
def Ift.looked (x : Ift) : Bool := x.look == Look.found || x.look == Look.absent

/-- A host entry at the head of its chain, once its lookup is done: applied and released, or waiting to place its record. -/
def Mach.hostApply (m : Mach) (c : ModeCtl) (v e : Nat) (x : Ift) (ses i : Nat) : Mach :=
  if !x.looked then m
  else
    match m.hostOp c v e x ses i with
    | (true, m) => m.freeIft c v e
    | (false, m) => m

/-- Whether a basin serves a host operation on a key now (R324): RUNNING or STOPPED; in STOPPING, one that packet and mill operations received after it wait
for, which are to complete (R327). -/
def Mach.hostServes (m : Mach) (v key : Nat) : Bool :=
  decide (m.fst (fnNum .basin v) = .running ∨ m.fst (fnNum .basin v) = .stopped) ||
    (decide (m.fst (fnNum .basin v) = .stopping) && (m.ifts v).any fun p => decide (p.2.key = key) && p.2.op.drains)

/-- Whether a basin serves record operations: those of its mills while it runs, or completes what it had admitted (R120, R324). -/
def Mach.millServes (m : Mach) (v : Nat) : Bool := decide (m.fst (fnNum .basin v) = .running ∨ m.fst (fnNum .basin v) = .stopping)

/-- The operation of a request entry started (R322): it takes an in-flight entry and, at the head of its chain, is applied at once. -/
def Mach.hostStart (m : Mach) (c : ModeCtl) (ses i : Nat) : Mach :=
  let key := fld 192 (m.reqEnt ses i) 16 48
  let v := m.server (m.shareOf key)
  match m.enterOther c v (.host ses i) key with
  | (some e, m) => (match m.ift v e with
    | some x => if m.isHead v x && m.hostServes v key then m.hostApply c v e x ses i else m
    | none => m)
  | (none, m) => m

/-- Whether the operation of a request entry has started and not ended. -/
def Mach.reqBusy (m : Mach) (ses i : Nat) : Bool :=
  (List.range 16).any fun v =>
    ((m.ifts v).any fun p => decide (p.2.op = .host ses i)) || ((m.basin v).inOther.any fun a => decide (a.op = .host ses i))

/-- FLW_REQ_LOOKUP and its fellows: entry i of a session's window, with that OP, no result yet and not begun, is started, unless records
are refused for the mode or its basin has failed (R96, R322, R324). -/
def Mach.hostReq (m : Mach) (c : ModeCtl) (ses i op : Nat) : Mach :=
  let q := m.reqEnt ses i
  if fld 192 q 0 1 ≠ op ∨ fld 192 q 1 1 ≠ 0 || m.reqBusy ses i then m
  else if recRefused c O.flwReq then m.st .mode
  else if m.fst (fnNum .basin (m.server (m.shareOf (fld 192 q 16 48)))) = .faulted then m.st .functionFaulted
  else (m.hostStart c ses i).st .ok

/-! The rows of an entry. -/

/-- OPERATION_APPLY (R303, R309, R337, R343): the operation of an entry that heads its chain, once its lookup and its result are there. -/
def Mach.operationApply (m : Mach) (c : ModeCtl) (v e : Nat) : Mach :=
  match m.ift v e with
  | none => m
  | some x =>
    if !m.isHead v x then m
    else
      match x.op with
      | .mill _ => m
      | .read _ => m
      | .move _ _ => m
      | .host ses i => if m.hostServes v x.key then m.hostApply c v e x ses i else m
      | .packet _ =>
        match x.result with
        | none => m
        | some res =>
          if x.creating then m
          else if bit (fld 16 res 9 1) 6 then (m.sendVerdict v x (x.plain 0 0)).freeIft c v e
          else
            match x.look with
            | .found =>
              (match m.wayByKey v x.hash x.key with
               | some (k, w) =>
                 (match m.expired w.rec_ with
                  | some why =>
                    let m := m.ageOut c v k w why
                    let m := m.setIft v e (some { x with look := .absent })
                    m.applyAbsent c v e { x with look := .absent }
                  | none => m.applyFound c v e x k w)
               | none => m.applyAbsent c v e { x with look := .absent })
            | .absent => m.applyAbsent c v e x
            | _ => m

/-- RESULT_ARRIVAL (R297, R337): the result at the head of a channel for entry e's packet; one whose packet no entry serves is discarded. -/
def Mach.resultArrival (m : Mach) (v e : Nat) : Mach :=
  let chs := (List.range 8).flatMap fun i => (List.range 4).map fun k => chanNum i (2 * (v / 4)) k
  let pktOf := fun (x : Ift) => match x.op with | .packet p => some p | _ => none
  let mine := fun (p : Nat) => match m.ift v e with | some x => decide (pktOf x = some p) | none => false
  let known := fun (p : Nat) => (m.ifts v).any (fun y => decide (pktOf y.2 = some p)) || (m.basin v).inPkt.any fun w => decide (w.op = .packet p)
  match m.takeMsg chs fun x => match x with | .result b' p _ => decide (m.server b' = v) && (mine p || !known p) | _ => false with
  | some (.result _ p r, m) =>
    (match m.ift v e with
     | some x =>
       if pktOf x = some p ∧ x.result = none then
         let m := m.setIft v e (some { x with result := some r })
         if m.isHead v x || x.behind then m else (m.setIft v e (some { x with result := some r, behind := true })).bump O.iftChainWaits v
       else m
     | none => m)
  | _ => m

/-- PARK_ARRIVAL (R340): the PARK at the head of a channel releases its packet's entry unapplied, or withdraws its waiting query. -/
def Mach.parkArrival (m : Mach) (c : ModeCtl) (v e : Nat) : Mach :=
  let chs := (List.range 8).flatMap fun i => (List.range 4).map fun k => chanNum i (2 * (v / 4)) k
  let mine := fun (p : Nat) => match m.ift v e with | some x => decide (x.op = .packet p) | none => false
  let held := fun (p : Nat) => (m.ifts v).any fun y => decide (y.2.op = .packet p)
  match m.takeMsg chs fun x => match x with | .park b' p => decide (m.server b' = v) && (mine p || !held p) | _ => false with
  | some (.park _ p, m) =>
    let m := m.bump O.iftParks v
    if mine p then m.freeIft c v e
    else
      let b := m.basin v
      m.setBasin v { b with inPkt := b.inPkt.filter fun w => decide (w.op ≠ .packet p) }
  | _ => m

/-- VERDICT_WAIT_BASIN (R341): an entry without its result VERDICT-WAIT-MAX after its query is released unapplied, and so is one whose CREATE event is lost
(R385), whose pending creation ends. -/
def Mach.verdictWaitBasin (m : Mach) (c : ModeCtl) (v e : Nat) : Mach :=
  match m.ift v e with
  | some x =>
    if x.op.isPacket && (x.result.isNone || x.lost) then
      let m := m.reach (x.at_ + 1000 * m.rd O.verdictWaitMax)
      ((if x.lost then m.pendDone v x.key else m).freeIft c v e).bump O.iftOrphans v
    else m
  | none => m

end Sys2Proof.Machine
end

