-- ==== Sys2Proof/Machine/Sluice.lean ====
section
/-! DEFINITION. Sluices and mills (spec 11): ready lists, dispatch, contexts, and the built-in work of every event kind with its
epilogue. -/

namespace Sys2Proof.Machine

/-! Contexts. -/

/-- The contexts of a sluice that hold events. -/
def Slu.busy (s : Slu) : List (Nat × Ctx) := s.ctxs.filterMap fun p => match p.2 with | some x => some (p.1, x) | none => none

/-- Contexts kept for a class (R365). -/
def ctxReserve (half : Bool) (cls : Nat) : Nat :=
  let n := match cls with | 0 => 32 | 1 => 16 | 2 => 8 | _ => 4
  if half then n / 2 else n

/-- Whether a class has a free context, and whether it would stand in the shared remainder (R365). -/
def Mach.ctxFree (m : Mach) (c : ModeCtl) (v cls : Nat) : Option Bool :=
  let half := m.millHalf c
  let busy := (m.slu v).busy
  let own := (busy.filter fun p => decide (p.2.cls = cls) && !p.2.shared).length
  let shared := (busy.filter fun p => p.2.shared).length
  if own < ctxReserve half cls then some false
  else if shared < (if half then 98 else 196) then some true else none

/-- Contexts of the powered mills of a group (Table 11.1). -/
def Mach.ctxLimit (m : Mach) (c : ModeCtl) : Nat := if m.millHalf c then 128 else 256

/-- The lowest free context number of the powered mills. -/
def Mach.ctxNum (m : Mach) (c : ModeCtl) (v : Nat) : Option Nat :=
  (List.range (m.ctxLimit c)).find? fun k => (m.ctx v k).isNone

/-! Posting (R361, R362, R383, Table 11.5). -/

/-- A pool allocation answered to the context that asked (R369). -/
def Mach.poolReply (m : Mach) (e : Ev) (r : Nat ⊕ Nat) : Mach :=
  let v := e.arg / 2 ^ 36 % 16
  let k := e.arg / 2 ^ 28 % 256
  match m.ctx v k with
  | some x => if x.asked && x.ev.kind = 1 then m.setCtx v k (some { x with reply := some r }) else m
  | none => m

/-- The link of a pair from its primary (R314), with its key. -/
def Mach.linkRec (m : Mach) (p : Nat) : Nat :=
  let (key, swap) := m.partnerKey p
  let t := rTuple p
  let back := if rbits p 51 5 4 = 1 then t.1 else t.2
  let status := 0x81 + (if swap then 0x20 else 0) + (rf p 48 1 &&& 0x1A)
  let misc := (if rbits p 51 5 4 = 1 then 2 else 1) * 16 + 8
  let conn := rbits p 50 7 6 * 16 + rbits p 50 1 0
  let r := pack [(48, key), (1, status), (1, rf p 49 1), (1, conn), (1, misc), (2, 1), (2, rf p 54 2), (4, m.flwClockSec), (4, m.flwClockMs), (24, 0),
    (2, rf p 88 2), (3, rf p 90 3), (1, 0), (2, back.2), (16, 0), (16, back.1)]
  m.tokensFull r

/-- A link that cannot be made: PAIR-DELETE with LINK-FAILED and TARGET-LINK to the primary's basin (R313, R372). The primary is remembered, so that a
PAIR-DELETE of its own that comes here later releases nothing (log entry 144). -/
def Mach.linkFail (m : Mach) (v : Nat) (e : Ev) (by_ : Option (Nat × Nat) := none) : Mach :=
  let t := m.sluiceOf (rKey e.sender)
  let arg := match rPoolPort e.sender with | some (p, q) => pack [(3, p), (2, q), (3, 0)] | none => pack [(3, 0xFFFFFF), (5, 0)]
  ({ m with dp.linkFails := rKey e.sender :: m.dp.linkFails }).postBy by_ v t (mkEv 4 24 v (domPair v t) arg (rKey e.sender) (m.linkRec e.sender))

/-- A sluice whose outstanding SWEEP is lost: the next one visits its buckets (R375). -/
def Slu.sweepBack (s : Slu) (e : Ev) : Slu :=
  if s.sweepOut then { s with sweepOut := false, sweepPos := s.sweepPos - e.arg / 2 ^ 16 % 2 ^ 16 } else s

/-- A refused post (R362, R591): counted and traced, with the outcome of its kind; what R383 lets wait is lost where its group has failed
(R597). A SWEEP or SPLIT refused is outstanding no more, so the timer posts the next (R375, R379). -/
def Mach.refuseEv (m : Mach) (c : ModeCtl) (v : Nat) (e : Ev) : Mach :=
  let m := ((m.bump O.sluRefused v).rsnB c 0x70 v).trc v 4 e 0xFF 0x70
  match e.kind with
  | 1 =>
    let k := e.arg / 2 ^ 32
    (match m.ift v k with
     | some x => if x.creating ∧ x.seq = e.sender then (m.pendDone v x.key).refuseCreate c v k { x with creating := false } 0x70 else m
     | none => m)
  | 2 => m.linkFail v e
  | 5 => m.poolReply e (.inr 0x70)
  | 8 => (m.bump O.exportRefused v).flLose 1 1
  | 3 => (m.bump O.fltEventsLost).wr O.poolState 0 1
  | 4 => (m.bump O.fltEventsLost).wr O.poolState 0 1
  | 6 => (m.bump O.fltEventsLost).wr O.poolState 0 1
  | 9 => m.setSlu v ((m.slu v).sweepBack e)
  | 10 => m.setSlu v { m.slu v with splitOut := false }
  | _ => m

/-! Epilogues and completion (R380, R381). -/

/-- Whether a TEST condition of Table 11.6 holds of a record and an outcome. -/
def epiTest (cond operand r outcome : Nat) : Bool :=
  match cond with
  | 0 => true
  | 1 => decide (rf r 49 1 = operand % 256)
  | 2 => rPaired r
  | 3 => rLink r
  | 4 => decide (rbits r 51 5 4 ≠ 0)
  | 5 => rbit r 48 2
  | 6 => decide (rbits r 51 7 6 = 2)
  | 7 => decide (connOf (rf r 50 1) = .closed)
  | 8 => rbit r 48 4
  | _ => decide (outcome = operand % 256)

/-- Write a changed record of a live key into its way (Table 11.6): the machine and the record. -/
def Mach.epiWrite (m : Mach) (v : Nat) (live : Option Nat) (r new : Nat) : Mach × Nat :=
  match live with
  | none => (m, r)
  | some key =>
    match m.wayByKey v (m.hOf key) key with
    | some (w, x) => (m.setRec w x (rChange r new), rChange r new)
    | none => (m, r)

/-- One epilogue step (Table 11.6): the machine, the record and the steps skipped; none at END. -/
def Mach.epiStep (m : Mach) (c : ModeCtl) (v st : Nat) (live : Option Nat) (r outcome why : Nat) : Option (Mach × Nat × Nat) :=
  let a := fld 8 st 1 1
  let b := fld 8 st 2 2
  match fld 8 st 0 1 with
  | 1 => some (m, r, if epiTest a (fld 8 st 4 4) r outcome then 0 else b)
  | 2 => some (m.bumpF O.millCount v (b % 64) 0 8, r, 0)
  | 3 => some (m.flFlow c v (b % 16) r (if a = 1 then 2 else why) (a = 1), r, 0)
  | 4 => let y := m.epiWrite v live r (rsetBits r 48 1 1 (a % 2)); some (y.1, y.2, 0)
  | 5 =>
    let y := m.epiWrite v live r (m.tokensFill (rsetBits (rset r 88 2 b) 48 3 3 (ofB (b ≠ 0))))
    some (y.1, y.2, 0)
  | _ => none

/-- The steps of an epilogue list from step k on, with those run; `live` is the key of the record that SET steps write, and `why` its end
reason. -/
def Mach.epiRun (m : Mach) (c : ModeCtl) (v list : Nat) (live : Option Nat) (r outcome why k fuel : Nat) : Mach × Nat :=
  match fuel with
  | 0 => (m, 0)
  | f + 1 =>
    if 8 ≤ k then (m, 0)
    else
      match m.epiStep c v (fld 64 list (8 * k) 8) live r outcome why with
      | none => (m, 1)
      | some (m, r, skip) => let y := m.epiRun c v list live r outcome why (k + 1 + skip) f; (y.1, y.2 + 1)

/-- Whether the epilogue that a kind names has a step that writes the record (Table 11.6). -/
def Mach.epiSets (m : Mach) (v kind : Nat) : Bool :=
  let n := m.ent O.evtEpilogue v kind
  let ops := (List.range 8).map fun k => fld 64 (m.ent O.millLists v n) (8 * k) 1
  n ≠ 0xFF && (ops.takeWhile (· ≠ 0)).any fun op => decide (op = 4 ∨ op = 5)

/-- The epilogue that a kind names, if any: the machine and the steps run. -/
def Mach.epilogue (m : Mach) (c : ModeCtl) (v kind : Nat) (live : Option Nat) (r outcome why : Nat) : Mach × Nat :=
  let n := m.ent O.evtEpilogue v kind
  if n = 0xFF then (m, 0) else (m.bump O.epilogueRuns v).epiRun c v (m.ent O.millLists v n) live r outcome why 0 8

/-- An event completes: its context frees, its steps are counted and traced (R356, R386). -/
def Mach.ctxFree1 (m : Mach) (v k steps : Nat) : Mach :=
  match m.ctx v k with
  | none => m
  | some x =>
    let e := { x.ev with steps := x.ev.steps + steps }
    ((m.setCtx v k none).bump O.millSteps v steps).trc v 3 e k 0

/-- What is left of an event carried out: its epilogue, its in-flight entry released, and its context freed (R339, R380). -/
def Mach.ctxEnd (m : Mach) (c : ModeCtl) (v k : Nat) (f : CtxEnd) : Mach :=
  let y := if f.kind = 0 then (m, 0) else m.epilogue c v f.kind f.live f.rec_ f.outcome f.why
  let m := match f.entry with
    | some e => y.1.freeIft c v e
    | none => y.1
  m.ctxFree1 v k (f.steps + y.2)

/-- The built-in work of an event is done: it completes, or waits with its context for its posts to meet their lists (R361, R365). -/
def Mach.ctxFinish (m : Mach) (c : ModeCtl) (v k : Nat) (f : CtxEnd) : Mach :=
  match m.ctx v k with
  | none => m
  | some x => if x.posts = 0 then m.ctxEnd c v k f else m.setCtx v k (some { x with fin := some f })

/-- An event that holds no in-flight entry and runs no epilogue is done. -/
def Mach.ctxDone (m : Mach) (c : ModeCtl) (v k steps : Nat) : Mach := m.ctxFinish c v k ⟨none, 0, steps, none, 0, 0, 0⟩

/-- A record event is done: it completes with its epilogue, and its in-flight entry is released (R339, R380). -/
def Mach.recDone (m : Mach) (c : ModeCtl) (v k e kind steps : Nat) (live : Option Nat) (r outcome why : Nat) : Mach :=
  m.ctxFinish c v k ⟨some e, kind, steps, live, r, outcome, why⟩

/-- A post that a context waits at has met its list, or is lost: the context goes on once all its posts have (R361). -/
def Mach.posted (m : Mach) (c : ModeCtl) (e : Ev) : Mach :=
  match e.by_ with
  | none => m
  | some (v, k) =>
    match m.ctx v k with
    | none => m
    | some x =>
      let m := m.setCtx v k (some { x with posts := x.posts - 1 })
      match x.fin with
      | some f => if x.posts ≤ 1 then m.ctxEnd c v k f else m
      | none => m

/-! Arrival (R361, R383). -/

/-- Put an event into its ready list (R361): none where it must wait; the event is marked RESERVED where it takes reserved space. -/
def Slu.put (s : Slu) (e : Ev) (onlyReserved : Bool) : Option Slu :=
  match evClass e.kind with
  | 1 => if s.age.length < 4096 then some { s with age := s.age ++ [e] } else none
  | 2 => if s.exp.length < 2048 then some { s with exp := s.exp ++ [e] } else none
  | 3 => if s.maint.length < 64 then some { s with maint := s.maint ++ [e] } else none
  | _ =>
    let res := (s.flow.filter fun x => x.flag 7).length
    if !onlyReserved && s.flow.length - res < 8192 then some { s with flow := s.flow ++ [e] }
    else if evReserved e.kind && res < 2048 then some { s with flow := s.flow ++ [e.set 7] } else none

/-- Whether an event that finds no room waits rather than being refused (R361, Table 11.2). -/
def evWaits (kind : Nat) : Bool := evReserved kind || kind = 7

/-- One event that has arrived at a sluice meets its function and its list: the sluice after it, or none where the event waits. An event that has waited was
counted in FN-MET then (R125). -/
def Mach.arrive (m : Mach) (c : ModeCtl) (v : Nat) (e : Ev) : Option Mach :=
  let f := fnNum .sluice v
  let go := fun (m : Mach) (only : Bool) => match (m.slu v).put { e with by_ := none } only with
    | some s => some ((m.setSlu v s).trc v 0 e 0xFF 0)
    | none => if evWaits e.kind then none else some (m.refuseEv c v e)
  let met := fun (m : Mach) => if e.waited then m else m.met f
  match m.meets f with
  | .run => go m false
  | .faulted => some ((met m).refuseEv c v e)
  | .drop => if evReserved e.kind && e.kind ≠ 2 then go (met m) true else some ((met m).refuseEv c v e)
  | _ => go (met m) false

/-- The first arrived event that can be settled, from position k of the arrivals on; those that must wait are counted and stay (R361). -/
def Mach.settleInbox (m : Mach) (c : ModeCtl) (v k fuel : Nat) : Mach :=
  match fuel with
  | 0 => m
  | f + 1 =>
    let s := m.slu v
    match s.inbox[k]? with
    | none => m
    | some e =>
      match (m.setSlu v { s with inbox := s.inbox.eraseIdx k }).arrive c v e with
      | some m => m.posted c e
      | none =>
        if e.waited then m.settleInbox c v (k + 1) f
        else
          let m := if m.running .sluice v then m else m.met (fnNum .sluice v)
          let m := ((m.setSlu v { s with inbox := s.inbox.set k { e with waited := true } }).bump O.sluPostWaits v).trc v 5 e 0xFF 0
          m.settleInbox c v (k + 1) f

/-- EVENT_POST (R361): the oldest event that has arrived and can be settled, after any at the head of a channel. -/
def Mach.eventPost (m : Mach) (c : ModeCtl) (v : Nat) : Mach :=
  let chs := (List.range 8).flatMap fun i => (List.range 4).map fun k => chanNum i (2 * (v / 4)) k
  let m := match m.takeMsg chs fun x => match x with | .event t _ => decide (t = v) | _ => false with
    | some (.event _ e, m) => m.setSlu v { m.slu v with inbox := (m.slu v).inbox ++ [e] }
    | _ => m
  m.settleInbox c v 0 ((m.slu v).inbox.length)

/-- A POOL-ALLOC lost on its way: its CREATE fails under 0x70, as at a refusal (log entry 65). -/
def Mach.evLost (m : Mach) (c : ModeCtl) (e : Ev) : Mach := (if e.kind = 5 then m.poolReply e (.inr 0x70) else m).posted c e

/-- The in-flight entries of a basin's record operations and moves released unapplied, and those that wait for one withdrawn. -/
def Mach.dropMills (m : Mach) (c : ModeCtl) (v : Nat) : Mach :=
  let mill := fun (op : IOp) => match op with | .mill _ => true | .move _ _ => true | _ => false
  let m := m.setBasin v { m.basin v with inOther := (m.basin v).inOther.filter fun w => !mill w.op }
  (m.ifts v).foldl (fun m p => if mill p.2.op then m.freeIft c v p.1 else m) m

/-- A sluice without events and contexts. -/
def Slu.emptied (s : Slu) : Slu :=
  let s := match (s.inbox ++ s.maint ++ s.busy.map (·.2.ev)).find? (·.kind = 9) with | some e => s.sweepBack e | none => s
  { s with inbox := [], flow := [], age := [], exp := [], maint := [], ctxs := [], sweepOut := false, splitOut := false }

/-- Every event a sluice holds, in the order of its lists, those in execution last; one whose work is done is none of them. -/
def Slu.events (s : Slu) : List Ev :=
  s.inbox ++ s.flow ++ s.age ++ s.exp ++ s.maint ++ (s.busy.filter fun p => p.2.fin.isNone).map (·.2.ev)

/-- Events whose work is done complete without waiting further for their posts. -/
def Mach.ctxsEnd (m : Mach) (c : ModeCtl) (v : Nat) : Mach :=
  (m.slu v).busy.foldl (fun m p => match p.2.fin with | some f => m.ctxEnd c v p.1 f | none => m) m

/-! Dispatch (R363 to R366). -/

/-- The ready list of a class. -/
def Slu.list (s : Slu) (cls : Nat) : List Ev := match cls with | 0 => s.flow | 1 => s.age | 2 => s.exp | _ => s.maint

/-- A sluice with a ready list replaced. -/
def Slu.setList (s : Slu) (cls : Nat) (l : List Ev) : Slu :=
  match cls with | 0 => { s with flow := l } | 1 => { s with age := l } | 2 => { s with exp := l } | _ => { s with maint := l }

/-- Whether an event cannot be dispatched yet: its pool has an event in execution (R360), or it changes a record of a basin that serves host operations only
or none (R324). -/
def Slu.held (s : Slu) (serves : Bool) (e : Ev) : Bool :=
  ((e.kind = 5 ∨ e.kind = 6) && s.busy.any fun p => (p.2.ev.kind = 5 ∨ p.2.ev.kind = 6) && decide (p.2.ev.f 4 4 = e.f 4 4)) ||
    ((e.kind = 3 ∨ e.kind = 4 ∨ e.kind = 7) && !serves)

/-- The place in its list of the oldest dispatchable event of a class: events of one domain go in the order posted (R360). -/
def Slu.oldest (s : Slu) (serves : Bool) (cls : Nat) : Option Nat :=
  let l := s.list cls
  (List.range l.length).find? fun i =>
    match l[i]? with
    | some e => !s.held serves e && (l.take i).all fun x => !(s.held serves x && decide (x.f 4 4 = e.f 4 4))
    | none => false

/-- The context pre-empted for a FLOW or AGE event (R366): one of a powered mill. -/
def Mach.victim (m : Mach) (c : ModeCtl) (v : Nat) : Option (Nat × Ctx) :=
  ((m.slu v).busy.filter fun p => decide (p.1 < m.ctxLimit c) && 2 ≤ p.2.cls && p.2.shared && decide (p.2.ev.f 3 1 < m.rd O.preemptMax)).foldl (fun best p =>
    match best with
    | some b => if b.2.ord < p.2.ord then some p else some b
    | none => some p) none

/-- The entries of moves that an event in context k makes are released unapplied: it has stopped at a step boundary (R366, R383). -/
def Mach.dropMoves (m : Mach) (c : ModeCtl) (v k : Nat) : Mach :=
  let op := IOp.move true k
  let m := m.setBasin v { m.basin v with inOther := (m.basin v).inOther.filter fun w => decide (w.op ≠ op) }
  match m.mover v op with
  | some (e, _) => m.freeIft c v e
  | none => m

/-- Steps that a pre-empted event has run (Table 11.7): DESIGN CHOICE, one for each bucket that a SWEEP has visited and each record that a SPLIT has moved
(log entry 170). -/
def Ev.stepsRun (e : Ev) : Nat := match e.kind with | 9 => e.pos / 4 | 10 => e.pos | _ => 0

/-- Pre-empt a context: its event goes back to the head of its list with its progress (R366). -/
def Mach.preempt (m : Mach) (c : ModeCtl) (v k : Nat) (x : Ctx) : Mach :=
  let m := m.dropMoves c v k
  let e := x.ev.set 5
  let e := { e with head := setFld 16 e.head 3 1 (min 255 (e.f 3 1 + 1)) }
  let s := m.slu v
  let s := s.setList x.cls (e :: s.list x.cls)
  let m := m.setSlu v { s with ctxs := mset none s.ctxs k none }
  ((((m.bump O.sluPreempted v).rsnB c 0x71 v).trc v 2 { e with steps := e.stepsRun } k 0x71).pulse c (256 + 2 * v) 0x22 0)

/-- The bucket heads that a SWEEP reads, asked for as it begins (R375, R399). -/
def Mach.sweepReads (m : Mach) (e : Ev) : Mach :=
  (List.range (e.arg / 2 ^ 16 % 2 ^ 16)).foldl (fun m k =>
    let (s, line) := bucketLine e.sender 0 (e.arg / 2 ^ 32 + k)
    m.readMirrored s line 4 true) m

/-- The members of a set tried in turn from h mod COUNT (R311): the first enabled, and how many were examined. -/
def Mach.memberFrom (m : Mach) (base count h k fuel : Nat) : Option Nat × Nat :=
  match fuel with
  | 0 => (none, k)
  | f + 1 =>
    let i := base + (h + k) % count
    if m.entF O.epTable 0 i 0 1 = 2 ∧ bit (m.entF O.epTable 0 i 1 1) 0 then (some i, k + 1) else m.memberFrom base count h (k + 1) f

/-- The endpoint entries that a creation examines (R311, R312, R317): the service, the members tried, and the pool. -/
def Mach.epExamined (m : Mach) (x : Ift) : List Nat :=
  let d := fld 16 (x.result.getD 0) 4 4
  let e := d % 2 ^ 24
  let base := m.entF O.epTable 0 e 24 3
  let count := m.entF O.epTable 0 e 28 2
  let tried := if m.entF O.epTable 0 e 0 1 = 1 then (List.range (m.memberFrom base count x.hash 0 count).2).map fun k => base + (x.hash + k) % count else []
  let pool := fld 32 x.cls 4 3
  (if d / 2 ^ 28 = 5 then e :: tried else []) ++ if pool = 0xFFFFFF then [] else [pool]

/-- The endpoint lines that a CREATE reads, asked for as it begins (R317, R399). -/
def Mach.epReads (m : Mach) (v : Nat) (e : Ev) : Mach :=
  match m.ift v (e.arg / 2 ^ 32) with
  | some x => (m.epExamined x).foldl (fun m i => m.readMirrored (i / 2 ^ 21) (134217728 + i % 2 ^ 21) 1 false) m
  | none => m

/-- What an event asks of HBM as it is dispatched first: a SWEEP its bucket heads, a CREATE its endpoint lines. -/
def Mach.evReads (m : Mach) (v : Nat) (e : Ev) : Mach :=
  match e.kind with
  | 1 => m.epReads v e
  | 9 => if e.flag 5 then m else m.sweepReads e
  | _ => m

/-- Dispatch the event at place i of a class's list into context k; a record operation takes its in-flight entry then (R360). -/
def Mach.dispatchTo (m : Mach) (c : ModeCtl) (v cls i k : Nat) (shared : Bool) (ptr : Nat) : Mach :=
  match ((m.slu v).list cls)[i]? with
  | some e =>
    let e := e.general
    let s := m.slu v
    let s := s.setList cls ((s.list cls).eraseIdx i)
    let s := { s with ptr := ptr, ord := s.ord + 1, ctxs := mset none s.ctxs k (some { ev := e, cls := cls, shared := shared, ord := s.ord, asked := false, reply := none }) }
    let m := (((m.setSlu v s).bump O.sluDispatched v).trc v 1 e k 0).evReads v e
    if evRecord e.kind && e.kind ≠ 1 then (m.enterOther c v (.mill k) e.body).2 else m
  | none => m

/-- Entries of SCHED-LIST read from the pointer (R363): the first class with a dispatchable event and a free context, or one that a
pre-emption frees. -/
def Mach.dispatchFrom (m : Mach) (c : ModeCtl) (v at_ fuel : Nat) : Mach :=
  match fuel with
  | 0 => m
  | f + 1 =>
    let cls := m.ent O.schedList v (at_ % 64) % 4
    match (m.slu v).oldest (m.millServes v) cls with
    | none => m.dispatchFrom c v (at_ + 1) f
    | some i =>
      match m.ctxFree c v cls, m.ctxNum c v with
      | some shared, some k => m.dispatchTo c v cls i k shared ((at_ + 1) % 64)
      | _, _ =>
        match (if cls ≤ 1 then m.victim c v else none) with
        | some (k, x) => (m.preempt c v k x).dispatchTo c v cls i k true ((at_ + 1) % 64)
        | none => m.dispatchFrom c v (at_ + 1) f

/-- EVENT_DISPATCH. -/
def Mach.eventDispatch (m : Mach) (c : ModeCtl) (v : Nat) : Mach :=
  if m.running .sluice v then m.dispatchFrom c v (m.slu v).ptr 64 else m

/-- What stands with the event of a record operation in its context: no such event, or one that waits; its in-flight entry lost with its basin; or the
entry at the head of its chain, with its lookup done. -/
inductive Turn where
  | wait
  | gone
  | head (cx : Ctx) (e : Nat) (x : Ift)
deriving DecidableEq, Repr

/-- The turn of the event of a kind in context k (R337). LINK-CREATE is judged whatever the state of its basin (R313). -/
def Mach.turn (m : Mach) (v k kind : Nat) : Turn :=
  match m.ctx v k with
  | none => .wait
  | some x =>
    if x.ev.kind ≠ kind ∨ x.fin.isSome then .wait
    else
      let e := if kind = 1 then (match m.ift v (x.ev.arg / 2 ^ 32) with
          | some y => if y.creating ∧ y.seq = x.ev.sender then some (x.ev.arg / 2 ^ 32, y) else none
          | none => none)
        else m.mover v (.mill k)
      match e with
      | none => if m.atDoor v (.mill k) then .wait else .gone
      | some (e, y) => if m.isHead v y && y.looked && (kind = 2 || m.millServes v) then .head x e y else .wait

/-! CREATE (R310 to R315). -/

/-- Outcome of choosing a backend or a pool. -/
inductive Pick where
  | none
  | got (idx : Nat)
  | noBackend
  | invalid
deriving DecidableEq, Repr

/-- The backend of a BACKEND destination (R311), and the members examined. -/
def Mach.backend (m : Mach) (dest h : Nat) : Pick × Nat :=
  if dest / 2 ^ 28 ≠ 5 then (.none, 0)
  else
    let e := dest % 2 ^ 24
    if m.entF O.epTable 0 e 0 1 ≠ 1 then (.invalid, 0)
    else
      let count := m.entF O.epTable 0 e 28 2
      match m.memberFrom (m.entF O.epTable 0 e 24 3) count h 0 count with
      | (some i, n) => (.got i, n)
      | (none, n) => (.noBackend, n)

/-- The pool that a flow class's entry names (R312). -/
def Mach.poolOf (m : Mach) (cls : Nat) : Pick :=
  let e := fld 32 cls 4 3
  if e = 0xFFFFFF then .none else if m.entF O.epTable 0 e 0 1 = 3 then .got e else .invalid

/-- Whether an address is IPv4-mapped. -/
def addrV4 (a : Nat) : Bool := decide (a / 2 ^ 32 = 0xFFFF)

/-- Whether a key can be translated to an address (R315): IP-PROTO 6 or 17, addresses and ports in the key, one address family. -/
def Mach.canXlate (m : Mach) (key addr : Nat) : Bool :=
  let p := fld 48 key 3 1
  (p = 6 || p = 17) && decide (m.rd O.kpFields (fld 48 key 2 1 % 64) &&& 0x1F = 0x1F) && (fld 48 key 36 2 ≠ 0 || fld 48 key 38 2 ≠ 0) &&
    addrV4 (fld 48 key 4 16) == addrV4 addr && addrV4 (fld 48 key 20 16) == addrV4 addr

/-- The record of a creating packet before pin and translation (R310), by the flow class as it stood when its creation was decided (R316). -/
def Mach.newRec (m : Mach) (x : Ift) : Nat :=
  let res := x.result.getD 0
  let cls := x.cls
  let qf := fld 64 x.q 58 1
  let track := bit (fld 32 cls 0 1) 6 && bit qf 6
  let mp := fld 32 cls 2 2
  let status := 0x80 + (if bit qf 7 then 0x20 else 0) + (if track then 0x10 else 0) + (if mp ≠ 0 then 8 else 0) + (if bit (fld 32 cls 0 1) 5 then 2 else 0)
  let conn := (if track then connStep 0 true (fld 64 x.q 59 1) else 0) + bits (fld 32 cls 0 1) 3 2
  let r := pack [(48, x.key), (1, status), (1, fld 16 res 8 1), (1, conn), (1, 0), (2, 1), (2, fld 64 x.q 56 2 % 2 ^ 13), (4, m.flwClockSec),
    (4, m.flwClockMs), (24, 0), (2, mp), (3, 0xFFFFFF), (1, 0), (2, 0), (16, 0), (16, 0)]
  m.tokensFull r

/-- A record with PIN to a member (R311). -/
def Mach.withPin (m : Mach) (r i : Nat) : Nat := rset (rset (rsetBits r 48 2 2 1) 108 4 (m.entF O.epTable 0 i 20 4)) 90 3 i

/-- A record with a translation: kind, address, port; PAIRED. -/
def withXlate (r kind addr port : Nat) : Nat := rset (rset (rsetBits (rsetBits r 51 5 4 kind) 48 0 0 1) 94 2 port) 112 16 addr

/-- The link of the event in a context cannot be made. -/
def Mach.linkFailOf (m : Mach) (v k : Nat) : Mach :=
  match m.ctx v k with
  | some x => m.linkFail v x.ev (some (v, k))
  | none => m

/-- The context of an event, as a poster (R361). -/
def byCtx (v k : Nat) : Option (Nat × Nat) := some (v, k)

/-- A CREATE that fails (R350): the creation is refused, and once its verdict is sent the event runs its epilogue and ends (R380). -/
def Mach.createFails (m : Mach) (c : ModeCtl) (v k e : Nat) (x : Ift) (reason steps : Nat) : Mach :=
  ((m.pendDone v x.key).refuseCreate c v e { x with creating := false } reason).ctxFinish c v k ⟨none, 1, steps, none, 0, 2, 0⟩

/-- A port given back to its pool by the event in context k (R370). -/
def Mach.postRelease (m : Mach) (v k pool port : Nat) : Mach :=
  m.postBy (byCtx v k) v (m.poolHome pool) (mkEv 6 0 v (domPool pool) (pack [(3, pool), (2, port), (3, 0)]) 0 0)

/-- CREATES of the endpoint entries that a creation used (Table 9.13): its service, its member and its pool, each once. -/
def Mach.epUsed (m : Mach) (l : List Nat) : Mach := (l.eraseDups.filter (· ≠ 0xFFFFFF)).foldl (fun m i => m.bumpF O.epTable 0 i 36 8) m

/-- The record placed and everything that follows its making (R309, R310, R313); `skipped` says that it is made without the translation it was to have, which
is counted once it is made (R315). -/
def Mach.createPlace (m : Mach) (c : ModeCtl) (v k e : Nat) (x : Ift) (r : Nat) (pin : Option Nat) (steps : Nat) (skipped : Bool := false) : Mach :=
  let tcp := bit (fld 64 x.q 58 1) 6
  let (r, ver) := m.passRecord x r (filterDrops r 0 tcp (fld 64 x.q 59 1)) 0x40
  match m.placeNew c v e r with
  | .wait m => m
  | .full m =>
    let m := match rPoolPort r with | some (p, q) => m.postRelease v k p q | none => m
    (m.bump O.bsnTableFull v).createFails c v k e x 0x33 steps
  | .at_ _ m =>
    let m := (((if skipped then m.bump O.bsnXlateSkipped v else m).recMade c v r).pendDone v x.key).newPair r
    let m := m.epUsed ((match pin with | some i => [fld 16 (x.result.getD 0) 4 4 % 2 ^ 24, i] | none => []) ++ [rf r 90 3])
    let m := if rPaired r then
        let pk := (m.partnerKey r).1
        let t := m.sluiceOf pk
        m.postBy (byCtx v k) v t { mkEv 2 0 v (domPair v t) (pack [(3, rf r 90 3), (5, 0)]) pk r with pair := m.pairOf x.key }
      else m
    (m.freed.sendVerdict v x ver).recDone c v k e 1 (steps + 3 * m.movesOf v e) (some x.key) r 0 (m.freeVal 8)

/-- CREATE (R310): the record is built with its pin and translation, waiting for a port where it asks for one; a port it has been given is used, whatever has
been written of its flow class and pool since (R316). -/
def Mach.createEv (m : Mach) (c : ModeCtl) (v k : Nat) : Mach :=
  match m.turn v k 1 with
  | .wait => m
  | .gone => m.ctxDone c v k 0
  | .head cx e x =>
      let res := x.result.getD 0
      let (bk, seen) := m.backend (fld 16 res 4 4) x.hash
      let steps := 24 + (seen - 8 + 7) / 8
      let r := m.newRec x
      match bk with
      | .invalid => (m.bump O.bsnEndpointInvalid v).createFails c v k e x 0x20 steps
      | .noBackend => (m.bump O.bsnNoBackend v).createFails c v k e x 0x20 steps
      | _ =>
        let pin := match bk with | .got i => some i | _ => none
        let r := match pin with | some i => m.withPin r i | none => r
        match if cx.asked then .got (fld 32 x.cls 4 3) else m.poolOf x.cls with
        | .invalid => (m.bump O.bsnEndpointInvalid v).createFails c v k e x 0x20 steps
        | .got p =>
          let addr := m.entF O.epTable 0 p 4 16
          if !cx.asked && !m.canXlate x.key addr then m.createPlace c v k e x r pin steps true
          else
            (match cx.asked, cx.reply with
             | false, _ =>
               let m := m.setCtx v k (some { cx with asked := true })
               m.postEv v (m.poolHome p) (mkEv 5 0 v (domPool p) (p * 2 ^ 40 + v * 2 ^ 36 + k * 2 ^ 28) 0 0)
             | true, none => m
             | true, some (.inr why) => m.createFails c v k e x why steps
             | true, some (.inl port) => m.createPlace c v k e x (withXlate (rset r 90 3 p) 1 addr port) pin steps)
        | _ =>
          (match pin with
           | some i =>
             if bit (m.entF O.epTable 0 (fld 16 res 4 4 % 2 ^ 24) 1 1) 0 then
               let addr := m.entF O.epTable 0 i 4 16
               let port := m.entF O.epTable 0 i 2 2
               if !m.canXlate x.key addr then m.createPlace c v k e x r pin steps true
               else m.createPlace c v k e x (withXlate r 2 addr (if port = 0 then (rTuple r).2.2 else port)) pin steps
             else m.createPlace c v k e x r pin steps
           | none => m.createPlace c v k e x r pin steps)

/-! Pairs and ports. -/

/-- LINK_CREATE (R313, R314, R372). -/
def Mach.linkEv (m : Mach) (c : ModeCtl) (v k : Nat) : Mach :=
  match m.turn v k 2 with
  | .wait => m
  | .gone => (m.linkFailOf v k).ctxDone c v k 0
  | .head cx e x =>
    let fail := fun (m : Mach) => (m.linkFail v cx.ev (byCtx v k)).recDone c v k e 2 8 none 0 2 0
    if !m.running .basin v then fail m
    else
      let (m, there) := match m.wayByKey v x.hash x.key with
        | some (w, y) => (match m.expired y.rec_ with
          | some why => (m.ageOut c v w y why (byCtx v k), false)
          | none => (m, true))
        | none => (m, false)
      if there then fail m
      else
        let (prim, pair) := match m.findRec (rKey cx.ev.sender) with
          | some (_, r) => if rPaired r && !rLink r && decide ((m.partnerKey r).1 = x.key) then (r, m.pairOf (rKey r)) else (cx.ev.sender, cx.ev.pair)
          | none => (cx.ev.sender, cx.ev.pair)
        let r := m.linkRec prim
        match m.placeNew c v e r with
        | .wait m => m
        | .full m => fail (m.bump O.bsnTableFull v)
        | .at_ _ m => ((m.recMade c v r).setPair x.key pair).freed.recDone c v k e 2 8 (some x.key) r 0 (m.freeVal 8)

/-- Whether a record is the partner that an event's sender names: PAIRED, and its translation names the sender's tuple (R371, R373). -/
def Mach.namesSender (m : Mach) (r : Nat) (e : Ev) : Bool := rPaired r && decide ((m.partnerKey r).1 = rKey e.sender)

/-- PAIR_NOTE (R308, R373): void, too, where the record found is of a later pair than the note (Table 10.2). -/
def Mach.pairNoteEv (m : Mach) (c : ModeCtl) (v k : Nat) : Mach :=
  match m.turn v k 3 with
  | .wait => m
  | .gone => m.ctxDone c v k 0
  | .head cx e x =>
    let void := fun (m : Mach) => (m.bump O.pairNoteVoid v).recDone c v k e 3 4 none 0 1 0
    match m.wayByKey v x.hash x.key with
    | none => void m
    | some (w, y) =>
      if !m.namesSender y.rec_ cx.ev || decide (m.pairOf x.key ≠ cx.ev.pair) then void m
      else
        let r := rsetBits (rsetBits y.rec_ 50 5 4 (cx.ev.arg / 2 ^ 62)) 50 3 3 (cx.ev.arg / 2 ^ 61 % 2)
        let r := rChange y.rec_ r
        (m.setRec w y r).recDone c v k e 3 4 (some x.key) r 0 0

/-- Whether the primary of an absent link's PAIR-DELETE is one whose link could not be made: the event releases nothing, since LINK-FAILED does (R372). -/
def Mach.linkFailed (m : Mach) (e : Ev) : Bool := !e.flag 3 && m.dp.linkFails.contains (rKey e.sender)

/-- The port of a PAIR-DELETE released, where the pair holds one (R371). -/
def Mach.pairRelease (m : Mach) (v k : Nat) (e : Ev) : Mach :=
  let pool := fld 8 e.arg 0 3
  if pool = 0xFFFFFF then m else m.postRelease v k pool (fld 8 e.arg 3 2)

/-- A PAIR-DELETE that finds its target absent (R371, R372): it releases the port where TARGET-LINK is set, unless LINK-FAILED has done so or will. -/
def Mach.pairAbsent (m : Mach) (v k : Nat) (e : Ev) : Mach :=
  if !e.flag 4 then m.bump O.pairDeleteVoid v
  else if m.linkFailed e then { m with dp.linkFails := m.dp.linkFails.erase (rKey e.sender) }
  else m.pairRelease v k e

/-- PAIR_DELETE (R371, R372). -/
def Mach.pairDeleteEv (m : Mach) (c : ModeCtl) (v k : Nat) : Mach :=
  match m.turn v k 4 with
  | .wait => m
  | .gone => m.ctxDone c v k 0
  | .head cx e x =>
    let m := if cx.ev.flag 3 then m.bump O.bsnLinkFail v else m
    let absent := fun (m : Mach) => (m.pairAbsent v k cx.ev).recDone c v k e 4 6 none 0 1 0
    match m.wayByKey v x.hash x.key with
    | none => absent m
    | some (w, y) =>
      if !m.namesSender y.rec_ cx.ev then absent m
      else
        let m := m.delRec c v w y 4 false true
        let m := if cx.ev.flag 3 then { m with dp.linkFails := m.dp.linkFails.erase x.key } else m
        (m.pairRelease v k cx.ev).recDone c v k e 4 6 none y.rec_ 0 4

/-- Pool e's allocation state. -/
def Mach.ppool (m : Mach) (e : Nat) : PPool := mget {} m.dp.ppool e

/-- The machine with a pool's allocation state replaced; every other holder of its bitmap's buffer finds the bitmap there (R433). -/
def Mach.setPpool (m : Mach) (e : Nat) (x : PPool) : Mach :=
  let m := { m with dp.ppool := mset {} m.dp.ppool e { x with buf := none } }
  let m := match x.buf with
    | some b => if m.bufInUse none b then m.bufWrite none b 0 x.octets else m
    | none => m
  { m with dp.ppool := mset {} m.dp.ppool e x }

/-- Ports in the order POOL-ALLOC scans them (R369). -/
def poolScan (lo hi cursor : Nat) : List Nat :=
  let c := if cursor < lo ∨ hi < cursor then lo else cursor
  (List.range (hi + 1 - c)).map (· + c) ++ (List.range (c - lo)).map (· + lo)

/-- POOL_ALLOC (R368, R369): a scan that meets a poisoned line of the bitmap fails (R436). -/
def Mach.poolAllocEv (m : Mach) (c : ModeCtl) (v k : Nat) : Mach :=
  match m.ctx v k with
  | none => m
  | some cx =>
    if cx.ev.kind ≠ 5 then m
    else
      let e := cx.ev.arg / 2 ^ 40
      let p := m.ppool e
      let lo := m.entF O.epTable 0 e 30 2
      let hi := m.entF O.epTable 0 e 32 2
      let steps := fun (scanned : Nat) => 4 + (scanned - 512 + 511) / 512
      let fail := fun (m : Mach) (n : Nat) => ((m.bump O.poolExhaustedCnt v).poolReply cx.ev (.inr 0x41)).ctxDone c v k (steps n)
      let got := match p.buf with
        | some _ => some (p, m)
        | none => (match m.takeBuf c v true with
          | (some b, m) => some ({ p with buf := some b, cursor := lo }, m)
          | (none, _) => none)
      match got with
      | none => fail (m.takeBuf c v true).2 0
      | some (p, m) =>
        let order := poolScan lo hi p.cursor
        let hit := order.findIdx? fun q => !mget false p.bits q
        let bad := order.findIdx? fun q => p.bad.contains (q / 512)
        match hit, bad with
        | none, none => fail (m.setPpool e p) order.length
        | none, some j => fail ((m.setPpool e p).wr O.poolState 0 1) (j + 1)
        | some i, j =>
          if j.any fun j => decide (j ≤ i) then fail ((m.setPpool e p).wr O.poolState 0 1) (j.getD 0 + 1)
          else
          let port := order.getD i 0
          let p := { p with bits := mset false p.bits port true, count := p.count + 1, cursor := if port = hi then lo else port + 1 }
          (((m.setPpool e p).bump O.poolAllocs v).poolReply cx.ev (.inl port)).ctxDone c v k (steps (i + 1))

/-- PORT_RELEASE (R370). -/
def Mach.portReleaseEv (m : Mach) (c : ModeCtl) (v k : Nat) : Mach :=
  match m.ctx v k with
  | none => m
  | some cx =>
    if cx.ev.kind ≠ 6 then m
    else
      let e := fld 8 cx.ev.arg 0 3
      let port := fld 8 cx.ev.arg 3 2
      let p := m.ppool e
      let m := if mget false p.bits port then
          (m.setPpool e { p with bits := mset false p.bits port false, count := p.count - 1 }).bump O.poolReleases v
        else (m.bump O.portFreeFault v).faultAt c (256 + 2 * v) 0x0A v
      m.ctxDone c v k 3

/-! AGE, EXPORT, SWEEP and SPLIT. -/

/-- AGE (R343): the record is deleted if it is still there and still expired. -/
def Mach.ageEv (m : Mach) (c : ModeCtl) (v k : Nat) : Mach :=
  match m.turn v k 7 with
  | .wait => m
  | .gone => m.ctxDone c v k 0
  | .head _ e x =>
    let void := fun (m : Mach) => (m.bump O.ageVoid v).recDone c v k e 7 10 none 0 1 0
    match m.wayByKey v x.hash x.key with
    | none => void m
    | some (w, y) =>
      match m.expired y.rec_ with
      | none => void m
      | some why => (m.ageOut c v w y why (byCtx v k)).recDone c v k e 7 10 none y.rec_ 0 why

/-- EXPORT (R377): an ACTIVE record of a flow that is still there, or a REFUSAL record. A record that its epilogue writes is placed in the eddy first
(R292, R381), which waits for a way (R293). -/
def Mach.exportEv (m : Mach) (c : ModeCtl) (v k : Nat) : Mach :=
  match m.ctx v k with
  | none => m
  | some cx =>
    if cx.ev.kind ≠ 8 then m
    else
      let key := cx.ev.body
      let done := fun (m : Mach) (live : Option Nat) (r outcome : Nat) => m.ctxFinish c v k ⟨none, 8, 4, live, r, outcome, 2⟩
      if fld 8 cx.ev.arg 0 1 = 1 then done (m.flRefusal c v key (fld 8 cx.ev.arg 1 1)) none 0 0
      else
        match m.findRec key with
        | some (g, r) =>
          (match if m.epiSets v 8 && (m.wayBySlot g).isNone then m.place v g (m.hOf key) r false else some m with
           | some m => done (m.flFlow c v (m.rd O.flFlowTemplate) r 2 true) (some key) r 0
           | none => m)
        | none => done m none 0 1

/-- Every valid record of a share, with its slot: eddy copies first, then what HBM holds. -/
def Mach.shareRecs (m : Mach) (b : Nat) : List (Nat × Nat) :=
  let slots := (m.dp.eddy.filterMap fun p => match p.2 with | some w => some w.slot | none => none) ++
    (m.dp.wbq.map (·.1)) ++ (m.dp.hbm.map fun p => p.1 % 2 ^ 32)
  ((slots.filter fun g => decide (g / 2 ^ 24 = b)).eraseDups.map fun g => (g, m.slotRec g)).filter fun p => rValid p.2

/-- A share's tenant and record counts taken from its records (R348, R354). -/
def Mach.recount (m : Mach) (b : Nat) : Mach :=
  let recs := m.shareRecs b
  let m := (List.range 4096).foldl (fun m t => if m.ent O.tenFlowCount 0 (16 * t + b) = 0 then m else m.setEnt O.tenFlowCount 0 (16 * t + b) 0) m
  let m := m.wr O.bsnRecords b recs.length
  recs.foldl (fun m p => m.bumpF O.tenFlowCount 0 (16 * keyTenant (rKey p.2) + b) 0 4) m

/-- The shares that a sluice sweeps: those its basin serves. -/
def Mach.sharesOf (m : Mach) (v : Nat) : List Nat := (List.range 16).filter fun b => decide (m.server b = v)

/-- LAST-SEEN of a STATIC record kept within 2^30 ms by the SWEEP in context k, as a record operation (R307, R337): it takes an in-flight entry in the chain of
the record's key, and waits for its turn and for a way; answers whether the slot is done. -/
def Mach.sweepStatic (m : Mach) (c : ModeCtl) (v k g r : Nat) : Bool × Mach :=
  let op := IOp.move true k
  let go := fun (m : Mach) (e : Nat) (x : Ift) =>
    if !m.isHead v x || !m.millServes v then (false, m)
    else
      let new := rset r 60 4 (diff32 m.flwClockMs (2 ^ 30))
      match m.wayBySlot g with
      | some (w, y) => (true, (m.setRec w y new).freeIft c v e)
      | none => (match m.place v g (m.hOf (rKey r)) new true with
        | some m => (true, m.freeIft c v e)
        | none => (false, m.wayWaits v e x))
  match m.mover v op with
  | some (e, x) => if x.key = rKey r then go m e x else (false, m.freeIft c v e)
  | none =>
    if m.atDoor v op then (false, m)
    else
      match m.enterOther c v op (rKey r) with
      | (some e, m) => (match m.ift v e with
        | some x => go m e x
        | none => (false, m))
      | (none, m) => (false, m)

/-- One slot visited by a sweep (R307, R319, R377): whether it is done with, and not waiting at a full AGE list (true) or in a chain; and the machine. -/
def Mach.sweepSlot (m : Mach) (c : ModeCtl) (v k g : Nat) : Option Bool × Mach :=
  let r := m.slotRec g
  if !rValid r || mget false m.dp.gone g then (none, m)
  else
    match m.expired r with
    | some _ =>
      let s := m.slu v
      if 4096 ≤ s.age.length + (s.inbox.filter fun e => decide (e.kind = 7)).length then (some true, m)
      else (none, m.postEv v v (mkEv 7 0 v (domRecord (m.hOf (rKey r))) (g % 2 ^ 24 * 2 ^ 32) (rKey r) 0))
    | none =>
      let n := m.rd O.exportActiveSweeps
      let export_ := fun (m : Mach) => if rbit r 48 1 ∧ n ≠ 0 ∧ ((m.slu v).passes + 1) % n = 0 then
          m.postEv v v (mkEv 8 0x40 v domNone (keyTenant (rKey r) * 2 ^ 32 + g % 2 ^ 24) (rKey r) 0) else m
      if rbit r 48 6 && decide (2 ^ 30 ≤ diff32 m.flwClockMs (rf r 60 4)) then
        match m.sweepStatic c v k g r with
        | (true, m) => (none, export_ m)
        | (false, m) => (some false, m)
      else (none, export_ m)

/-- The slots of a SWEEP from place `pos` on: the place where it waits, if it does, and whether that is at the AGE list. -/
def Mach.sweepRun (m : Mach) (c : ModeCtl) (v k b first count pos fuel : Nat) : Option (Nat × Bool) × Mach :=
  match fuel with
  | 0 => (none, m)
  | f + 1 =>
    if 4 * count ≤ pos then (none, m)
    else
      match m.sweepSlot c v k (slotKey b (4 * first + pos)) with
      | (none, m) => m.sweepRun c v k b first count (pos + 1) f
      | (some w, m) => (some (pos, w), m)

/-- A sweep pass over all shares of a sluice has ended (R319, R354, R377). -/
def Mach.passDone (m : Mach) (v : Nat) : Mach :=
  let s := m.slu v
  let m := m.setSlu v { s with sweepPos := 0, passes := s.passes + 1, sweepNb := 0 }
  (m.sharesOf v).foldl (fun m b =>
    let x := m.basin b
    if x.recount = 2 then ((m.setBasin b { x with recount := 0 }).recount b).wr O.iftRecount b 0 else m) m

/-- Buckets in one pass of a sluice. -/
def Mach.passBuckets (m : Mach) (v : Nat) : Nat := (m.slu v).sweepNb * (m.sharesOf v).length

/-- A SWEEP posted: 64 buckets of the pass, which begins here where the last has ended (R375). -/
def Mach.sweepPost (m : Mach) (v : Nat) : Mach :=
  let s := m.slu v
  let new := s.sweepNb = 0
  let nb := if new then m.nb + (if m.dp.growing then (m.sharesOf v).foldl (fun a b => max a (m.rd O.bsnSplit b)) 0 else 0) else s.sweepNb
  let pos := if new then 0 else s.sweepPos
  let b := (m.sharesOf v).getD (pos / nb) v
  let n := min 64 (nb - pos % nb)
  let m := if new then (m.sharesOf v).foldl (fun m b => let x := m.basin b; if x.recount = 1 then m.setBasin b { x with recount := 2 } else m) m else m
  let e := mkEv 9 0x40 v domNone (pos % nb * 2 ^ 32 + n * 2 ^ 16) 0 b
  let m := m.setSlu v { s with
    sweepOut := true, sweepDue := false, sweepAt := m.ns, sweepNb := nb, sweepPos := pos + n, passAt := if new then m.ns else s.passAt }
  m.postEv v v e

/-- ns between SWEEPs (R375). -/
def Mach.sweepGap (m : Mach) (v : Nat) : Nat :=
  let nb := (m.slu v).sweepNb
  m.rd O.flwSweepPeriod * 1000000 * 64 / (if nb = 0 then m.nb else nb)

/-- SWEEP_TIMER (R375): a SWEEP is posted, or falls due while one is outstanding. -/
def Mach.sweepTimer (m : Mach) (v : Nat) : Mach :=
  if !m.running .sluice v || (m.sharesOf v).isEmpty then m
  else
    let m := m.reach ((m.slu v).sweepAt + m.sweepGap v)
    if (m.slu v).sweepOut then m.setSlu v { m.slu v with sweepDue := true, sweepAt := m.ns } else m.sweepPost v

/-- SWEEP (R375): its buckets are visited; it waits at a full AGE list, which is counted, or for a STATIC record's chain, and the next is posted where one
has fallen due. -/
def Mach.sweepEv (m : Mach) (c : ModeCtl) (v k : Nat) : Mach :=
  match m.ctx v k with
  | none => m
  | some cx =>
    if cx.ev.kind ≠ 9 then m
    else
      let count := cx.ev.arg / 2 ^ 16 % 2 ^ 16
      match m.sweepRun c v k cx.ev.sender (cx.ev.arg / 2 ^ 32) count cx.ev.pos (4 * count + 1) with
      | (some (pos, full), m) =>
        let stalled := cx.ev.waited && decide (pos = cx.ev.pos)
        let m := m.setCtx v k (some { cx with ev := { cx.ev with pos := pos, waited := full } })
        if !full || stalled then m else m.bump O.sweepStalls v
      | (none, m) =>
        let m := (m.dropMoves c v k).ctxDone c v k 72
        let s := m.slu v
        let m := m.setSlu v { s with sweepOut := false }
        let m := if m.passBuckets v ≤ s.sweepPos then m.passDone v else m
        if s.sweepDue then m.sweepPost v else m

/-- SWEEP-LAG: ms by which the present pass runs behind its period. -/
def Mach.sweepLagMs (m : Mach) (v : Nat) : Nat :=
  let s := m.slu v
  let t := m.passBuckets v
  if t = 0 then 0 else (m.ns - (s.passAt + m.rd O.flwSweepPeriod * 1000000 * (m.sharesOf v).length * s.sweepPos / t)) / 1000000

/-- SPLIT_TIMER (R286, R379). -/
def Mach.splitTimer (m : Mach) (v : Nat) : Mach :=
  let s := m.slu v
  match (m.sharesOf v).find? fun b => decide (m.rd O.bsnSplit b < m.nb) with
  | none => m
  | some b =>
    if !m.dp.growing || s.splitOut || !m.running .sluice v || !m.running .basin v then m
    else
      let m := m.reach (s.splitAt + 1000000000 / m.rd O.flwGrowRate)
      let m := m.setSlu v { m.slu v with splitOut := true, splitAt := m.ns }
      m.postEv v v (mkEv 10 0x40 v domNone (m.rd O.bsnSplit b * 2 ^ 32) 0 (16 * m.dp.growths + b))

/-- A slot written empty in every copy and in the eddy (R284); one withdrawn stays so until the next clear (R409). -/
def Mach.emptySlot (m : Mach) (g : Nat) : Mach :=
  let m := match m.wayBySlot g with | some (k, _) => m.setWay k none | none => m
  let m := m.dropWrites (· = g)
  { m with dp.hbm := mset 0 (mset 0 m.dp.hbm g 0) (2 ^ 32 + g) 0 }

/-- The slot in bucket p + nb, the lowest free one, to which a split moves the record of slot g of bucket p (R286); none where it stays. The bucket is empty as
its split begins, so a slot is free for each unless slots are withdrawn: what becomes of a record with none left is not stated, and DESIGN CHOICE, it stays
(log entry 169). -/
def Mach.splitTo (m : Mach) (b p g : Nat) : Option Nat :=
  let h := m.hOf (rKey (m.slotRec g))
  let n := m.nb
  let at_ := fun (n : Nat) (second : Bool) => if second then (h % n) ^^^ ((ror32 h 16 ||| 1) % n) else h % n
  if at_ (2 * n) (decide (at_ n false ≠ p)) = p + n then m.freeIn b (p + n) else none

/-- The first record of bucket p of share b that its split is still to move, by its slot, with the slot it moves to. -/
def Mach.splitNext (m : Mach) (b p : Nat) : Option (Nat × Nat) :=
  (List.range 4).findSome? fun k =>
    let g := slotKey b (4 * p + k)
    if !rValid (m.slotRec g) || mget false m.dp.gone g then none else (m.splitTo b p g).map fun g' => (g, g')

/-- The moves of the split in context k of bucket p of share b, of which `n` are made, until no record is left to move (R286). Each takes an in-flight entry in
the chain of its record's key (R335, R338), and waits for its turn and for a way (R293); answers whether the split is done, and the moves made. -/
def Mach.splitRun (m : Mach) (c : ModeCtl) (v k b p n fuel : Nat) : Bool × Nat × Mach :=
  match fuel with
  | 0 => (false, n, m)
  | f + 1 =>
    let op := IOp.move true k
    match m.splitNext b p, m.mover v op with
    | none, none => (true, n, m)
    | none, some (e, _) => (m.freeIft c v e).splitRun c v k b p n f
    | some (g, g'), some (e, x) =>
      if x.key ≠ rKey (m.slotRec g) then (m.freeIft c v e).splitRun c v k b p n f
      else if !m.isHead v x then (false, n, m)
      else
        (match m.moveRec g g' with
         | some m => (m.freeIft c v e).splitRun c v k b p (n + 1) f
         | none => (false, n, m.wayWaits v e x))
    | some (g, _), none =>
      if m.atDoor v op then (false, n, m)
      else
        (match m.enterOther c v op (rKey (m.slotRec g)) with
         | (some _, m) => m.splitRun c v k b p n f
         | (none, m) => (false, n, m))

/-- The split of the present bucket of share b begun: its new half is written empty, once, however often its SPLIT is posted (R284, R338). -/
def Mach.splitBegin (m : Mach) (b p : Nat) : Mach :=
  if mget false m.dp.splits b then m
  else
    let m := (List.range 4).foldl (fun m j => m.emptySlot (slotKey b (4 * (p + m.nb) + j))) m
    { m with dp.splits := mset false m.dp.splits b true }

/-- The split of the present bucket of share b ended: the pointer rises (R286). -/
def Mach.splitEnd (m : Mach) (b p : Nat) : Mach := ({ m with dp.splits := mset false m.dp.splits b false }).wr O.bsnSplit b (p + 1)

/-- The growth ends once every share has finished: L rises by one (R284). -/
def Mach.growEnd (m : Mach) : Mach :=
  if (List.range 16).all fun b => decide (m.rd O.bsnSplit b = m.nb) then
    let m := (List.range 16).foldl (fun m b => m.wr O.bsnSplit b 0) (m.wr O.flwSizeLog2 0 (m.rd O.flwSizeLog2 + 1))
    { m with dp.growing := false }
  else m

/-- A SPLIT ends: the next may be posted, and lookups that waited for it begin (R338, R379). -/
def Mach.splitDone (m : Mach) (c : ModeCtl) (v k : Nat) : Mach :=
  let m := (m.dropMoves c v k).ctxDone c v k 12
  (m.setSlu v { m.slu v with splitOut := false }).lookupsGo c v

/-- SPLIT (R286): bucket p is split and the pointer rises. It waits while its basin is not RUNNING; one of a growth that a clear has abandoned has no effect. -/
def Mach.splitEv (m : Mach) (c : ModeCtl) (v k : Nat) : Mach :=
  match m.ctx v k with
  | none => m
  | some cx =>
    if cx.ev.kind ≠ 10 then m
    else
      let p := cx.ev.arg / 2 ^ 32
      let b := cx.ev.sender % 16
      if !m.dp.growing || cx.ev.sender / 16 ≠ m.dp.growths || m.rd O.bsnSplit b ≠ p then m.splitDone c v k
      else if !m.running .basin v then m
      else
        match (m.splitBegin b p).splitRun c v k b p cx.ev.pos 16 with
        | (false, n, m) => m.setCtx v k (some { cx with ev := { cx.ev with pos := n, waited := true } })
        | (true, _, m) => ((m.splitEnd b p).growEnd).splitDone c v k

/-! The table as a whole (R279, R284, R325) and recounts (R385). -/

/-- FLW-STATE. -/
def Mach.flwStateV (m : Mach) : Nat :=
  if m.dp.clearing || m.dp.remapping then 1 else if m.dp.growing then 2 else if m.dp.seedDirty then 3 else 0

/-- A clear begins (R325): slots with the write-backs still queued for them, eddies, tenant counts, pool allocations and ACTIVE; growth is abandoned (R286). -/
def Mach.clearStart (m : Mach) : Mach :=
  let pools : Map PPool := m.dp.ppool.map fun p => (p.1, { p.2 with bits := [], count := 0, cursor := 0, bad := [] })
  let m := m.dropWrites fun _ => true
  let m := { m with
    dp.hbm := [], dp.gone := [], dp.eddy := [], dp.linkFails := [], dp.splits := [], dp.pairIds := [], dp.ppool := pools, dp.clearing := true, dp.growing := false, dp.seedDirty := false }
  let m := (m.entries O.tenFlowCount 0).foldl (fun m p => m.setEnt O.tenFlowCount 0 p.1 0) m
  let m := (m.entries O.epTable 0).foldl (fun m p => m.setEnt O.epTable 0 p.1 (setFld 64 p.2 44 4 0)) m
  (List.range 16).foldl (fun m b => (m.wr O.bsnRecords b 0).wr O.bsnSplit b 0) m

/-- Whether every basin is STOPPED. -/
def Mach.basinsStopped (m : Mach) : Bool := (List.range 16).all fun b => decide (m.fst (fnNum .basin b) = .stopped)

/-- FLW_CLEAR (R325). -/
def Mach.flwClear (m : Mach) : Mach := if m.basinsStopped then m.clearStart.st .deferred else m.st .functionRunning

/-- FLW_CLEAR_DONE. -/
def Mach.flwClearDone (m : Mach) : Mach := { m with dp.clearing := false }

/-- A write of FLW-SIZE-LOG2 (R279): a clear starts. -/
def Mach.flwSize (m : Mach) (v : Nat) : Mach := ((m.wr O.flwSizeLog2 0 v).clearStart).st .ok

/-- FLW_GROW (R284). -/
def Mach.flwGrow (m : Mach) : Mach :=
  if m.rd O.flwSizeLog2 = 28 then m.st .range
  else if m.dp.growing || m.dp.clearing || m.dp.remapping then m.st .busy
  else ({ m with dp.growing := true, dp.growths := m.dp.growths + 1 }).st .deferred

/-- POOL-STATE (R385). -/
def Mach.poolStateV (m : Mach) : Nat := if m.dp.recounting then 2 else m.rd O.poolState

/-- POOL_RECOUNT (R385). -/
def Mach.poolRecount (m : Mach) : Mach :=
  if m.basinsStopped && (List.range 16).all fun v => m.running .sluice v then ({ m with dp.recounting := true }).st .deferred
  else m.st .functionRunning

/-- POOL_RECOUNT_DONE (R385): every bitmap holds the ports that records show. -/
def Mach.poolRecountDone (m : Mach) : Mach :=
  if !m.dp.recounting then m
  else
    let held := (List.range 16).flatMap fun b => (m.shareRecs b).filterMap fun p => rPoolPort p.2
    let clear : Map PPool := m.dp.ppool.map fun p => (p.1, { p.2 with bits := [], count := 0, bad := [] })
    let m := { m with dp.ppool := clear, dp.recounting := false }
    let m := held.eraseDups.foldl (fun m x =>
      let p := m.ppool x.1
      m.setPpool x.1 { p with bits := mset false p.bits x.2 true, count := p.count + 1 }) m
    m.wr O.poolState 0 0

/-- STOP of a sluice (R383): EXPORT and MAINT events in execution return to the heads of their lists with STARTED set. -/
def Mach.sluiceHalt (m : Mach) (c : ModeCtl) (v : Nat) : Mach :=
  let back := ((m.slu v).busy.filter fun p => 2 ≤ p.2.cls).reverse
  let m := back.foldl (fun m p => m.dropMoves c v p.1) m
  let s := m.slu v
  m.setSlu v (back.foldl (fun s p =>
    let s := s.setList p.2.cls (p.2.ev.set 5 :: s.list p.2.cls)
    { s with ctxs := mset none s.ctxs p.1 none }) s)

end Sys2Proof.Machine
end

