-- ==== Sys2Proof/Machine/HbmRun.lean ====
section
/-! DEFINITION. What the HBM controllers do: requests served in order with ECC (R397 to R399, R407 to R411), refresh and training (R400, R401),
self-refresh (R403 to R406), remapping (R395), and the commands of the pools (R427, R431, R432, R435). -/

namespace Sys2Proof.Machine

/-! Lines. -/

/-- The first line of the pools of a stack, which end at `traceLines`; the held region begins at `heldLines` (Table 12.1). -/
def poolLines : Nat := 138412032

/-- The first line of the H8K pool of a stack (Table 13.4). -/
def h8kLines : Nat := 155189248

/-- The first line of the traces of a stack. -/
def traceLines : Nat := 188743680

/-- The first line of the held region at the end of a stack. -/
def heldLines : Nat := 190840832

/-- What a line of a stack holds: a half of a flow slot (head or tail), an endpoint entry, a pool's line, two records of a trace from record i on, or nothing:
the held region, with what shares leave of their windows (R391, R392). -/
inductive LineUse where
  | head (g : Nat)
  | tail (g : Nat)
  | endpoint (e : Nat)
  | pool
  | trace (b i : Nat)
  | held
deriving DecidableEq, Repr

/-- The use of a line. -/
def Mach.lineUse (m : Mach) (s l : Nat) : LineUse :=
  if l < 134217728 then
    let w := l / 2 ^ 25
    let own := if w < 2 then s else partner s
    let b := (stackBasins own).getD (w % 2) 0
    let r := l % 2 ^ 25
    let g := slotKey b (4 * (r / 8) + r % 4)
    if m.buckets b ≤ r / 8 then .held else if r % 8 < 4 then .head g else .tail g
  else if l < poolLines then
    let r := l - 134217728
    .endpoint (if r < 2 ^ 21 then 2 ^ 21 * s + r else 2 ^ 21 * partner s + (r - 2 ^ 21))
  else if l < traceLines then .pool
  else if l < heldLines then .trace ((stackBasins s).getD ((l - traceLines) / 2 ^ 20) 0) (2 * ((l - traceLines) % 2 ^ 20))
  else .held

/-- Whether a line has a second copy at the partner: a flow slot's and an endpoint entry's (Table 12.1). -/
def Mach.mirrored (m : Mach) (s l : Nat) : Bool :=
  match m.lineUse s l with
  | .head _ | .tail _ | .endpoint _ => true
  | _ => false

/-- The index of a held line within the held region of its stack: DESIGN CHOICE, the windows' remainders, in the order of the stack, follow the region at its
end (log entry 174). -/
def heldIndex (l : Nat) : Nat := if l < 134217728 then 2 ^ 28 - heldLines + l else l - heldLines

/-- LINE, REGION and OWNER of a line of a stack (Tables 12.3 and 12.5), which name neither stack, window nor copy of a mirrored line. -/
def Mach.regionOf (m : Mach) (s l : Nat) : Nat × Nat × Nat :=
  match m.lineUse s l with
  | .head g => (l % 2 ^ 25, 1, g / 2 ^ 24)
  | .tail g => (l % 2 ^ 25, 1, g / 2 ^ 24)
  | .endpoint e => (e, 2, 0xFF)
  | .pool => (l - poolLines, 3, s)
  | .trace b _ => (l - traceLines, 4, b)
  | .held => (heldIndex l, 5, s)

/-- The tweak of a line of a stack (Table 12.5). -/
def Mach.tweakOf (m : Mach) (s l : Nat) : Nat :=
  let (line, region, owner) := m.regionOf s l
  pack [(8, line), (1, region), (1, owner), (6, 0)]

/-- The XTS key pair of slot 65, which serves all stacks (R413). -/
def Mach.xtsKey (m : Mach) : BitVec 512 := BitVec.ofNat 512 (m.slot 65).key

/-- A line of a stack enciphered, as the controller hands it to the PHY (R412). -/
def Mach.encipher (m : Mach) (s l : Nat) (plain : BitVec 512) : BitVec 512 := Config.xts m.xtsKey (BitVec.ofNat 128 (m.tweakOf s l)) plain

/-- The buffer that a pool's line lies in, and its line within the buffer (Table 13.4). -/
def bufLine (s l : Nat) : (Nat × Nat) × Nat :=
  if l < h8kLines then ((2 * s, (l - poolLines) / 64), (l - poolLines) % 64) else ((2 * s + 1, (l - h8kLines) / 128), (l - h8kLines) % 128)

/-- The export buffer, open or queued, that stands in a buffer. -/
def Mach.xbAt (m : Mach) (buf : Nat × Nat) : Option Xb :=
  let opened := m.dp.xbuf.filterMap (·.2)
  (opened ++ m.queuedBufs).find? fun x => decide (x.buf = buf)

/-- A line of a bitmap: bit j of line k says whether port 512k + j is taken (R368). -/
def PPool.line (p : PPool) (k : Nat) : Nat := (List.range 512).foldl (fun a j => a + if mget false p.bits (512 * k + j) then 2 ^ j else 0) 0

/-- What a pool's line holds in clear: of a bitmap its bits, of an export buffer the records appended, and past those and elsewhere what the model does not keep
(log entry 89). -/
def Mach.poolLine (m : Mach) (s l : Nat) : BitVec 512 :=
  let (buf, k) := bufLine s l
  match m.dp.ppool.find? fun x => decide (x.2.buf = some buf), m.xbAt buf with
  | some x, _ => BitVec.ofNat 512 (x.2.line k)
  | none, some x => BitVec.ofNat 512 (ofOctets (((x.recs.flatMap (·.data)).drop (64 * k) ++ octets 64 (Config.restLine s l).toNat).take 64))
  | none, none => Config.restLine s l

/-- What a line holds in clear, of the copy on stack s. -/
def Mach.linePlain (m : Mach) (s l : Nat) : BitVec 512 :=
  let copy := if l < 67108864 then 0 else 1
  match m.lineUse s l with
  | .head g => BitVec.ofNat 512 (fld 128 (mget 0 m.dp.hbm (copy * 2 ^ 32 + g)) 0 64)
  | .tail g => BitVec.ofNat 512 (fld 128 (mget 0 m.dp.hbm (copy * 2 ^ 32 + g)) 64 64)
  | .endpoint e => BitVec.ofNat 512 (m.ent O.epTable 0 e)
  | .pool => m.poolLine s l
  | .trace b i => BitVec.ofNat 512 (m.ent O.trace b i * 2 ^ 256 + m.ent O.trace b (i + 1))
  | .held => Config.restLine s l

/-- What the HBM stack holds in such a line at rest: ciphertext (R34, R412). -/
def Mach.lineStored (m : Mach) (s l : Nat) : BitVec 512 := m.encipher s l (m.linePlain s l)

/-- A corrected read counted (R407): more than HBM-CE-NOTIFY within one second are reported as a fault that contains nothing. When the next report may follow
is not stated: DESIGN CHOICE, the reads of one report count towards no other (log entry 175). -/
def Mach.corrected (m : Mach) (c : ModeCtl) (p : Nat) : Mach :=
  let s := p / 64
  let m := (m.bump O.pcCe p).bump O.stkCe s
  let l := m.ns :: (mget [] m.dp.ceTimes s).filter fun t => decide (m.ns < t + 1000000000)
  let m := { m with dp.ceTimes := mset [] m.dp.ceTimes s (if m.rd O.hbmCeNotify < l.length then [] else l) }
  if m.rd O.hbmCeNotify < l.length then m.faultAt c (416 + s) 0x08 s else m

/-- A slot withdrawn: never matched and never allocated until the next clear (R409). -/
def Mach.withdraw (m : Mach) (g : Nat) : Mach := { m with dp.gone := mset false m.dp.gone g true }

/-- A line of a mirrored region lost in both copies (R409); a head takes the record out of the eddy too. -/
def Mach.lineLost (m : Mach) (c : ModeCtl) (s l : Nat) : Mach :=
  let m := ((m.bump O.stkLostLines s).adt 32).faultAt c (416 + s) 0x08 s
  match m.lineUse s l with
  | .head g => (match m.wayBySlot g with | some (k, _) => m.setWay k none | none => m).withdraw g
  | .tail g =>
    let r := m.slotRec g
    let v := m.server (g / 2 ^ 24)
    let m := if rValid r then
        let m := (m.emptySlot g).delNotes c v r 4 false false
        if rPaired r then m.postPairDelete v r false else m
      else m
    m.wr O.poolState 0 1
  | .endpoint e => m.setEnt O.epTable 0 e 0
  | _ => m

/-- A poisoned line delivered to its requester (R410, R436); a trace line reads as all-ones octets. -/
def Mach.poisoned (m : Mach) (c : ModeCtl) (s l who : Nat) : Mach :=
  let m := m.bump O.stkUe s
  match who with
  | 1 => m.hpoolFreeze c (2 * s + (if l < h8kLines then 0 else 1))
  | 2 =>
    let r := l - h8kLines
    let mark : Map PPool := m.dp.ppool.map fun x => if x.2.buf = some (2 * s + 1, r / 128) then (x.1, { x.2 with bad := r % 128 :: x.2.bad }) else x
    ({ m with dp.ppool := mark }).wr O.poolState 0 1
  | 3 =>
    let buf := (bufLine s l).1
    let gone := m.queuedBufs.filter fun x => decide (x.buf = buf)
    let m := (m.unqueue fun x => decide (x.buf = buf)).flLose 2 (unsent gone)
    (oneEach gone).foldl (fun m x => m.bufDone c x) m
  | _ =>
    match m.lineUse s l with
    | .trace b i => (m.setEnt O.trace b i (2 ^ 256 - 1)).setEnt O.trace b (i + 1) (2 ^ 256 - 1)
    | _ => m

/-- A write of one line with what its read has mended (R408, R411). -/
def mendWrite (line : Nat) (cls : HCls) : HReq :=
  { write := true, line := line, lines := 1, cls := cls, opn := decide (cls = .bulk), look := none, wb := none, who := 5 }

/-- Good data of a request at pseudo-channel p: read for a copy that was uncorrectable, it is written back to that copy, where its stack is in service, and
counted (R408). -/
def Mach.mended (m : Mach) (p : Nat) (x : HReq) : Mach :=
  let o := partner (p / 64)
  if x.mend && !m.stackLost o then (m.pcPush (64 * o + p % 64) (mendWrite (partnerLine x.line) .flow)).bump O.stkRepaired o else m

/-- A line that the retry does not mend either (R408 to R410): the partner copy is read, behind every write issued to it before, and the requester goes on
waiting (false); or the line is poisoned, or lost where there is no other copy to read. -/
def Mach.uncorrected (m : Mach) (c : ModeCtl) (p : Nat) (x : HReq) (ecc : EccOutcome) : Bool × Mach :=
  let s := p / 64
  let o := partner s
  if !m.mirrored s x.line then (true, m.poisoned c s x.line x.who)
  else if x.mend then (true, m.lineLost c o (partnerLine x.line))
  else if !m.readServes o then (true, m.lineLost c s x.line)
  else (false, m.pcPush (64 * o + p % 64) { x with line := partnerLine x.line, lines := 1, mend := true, ecc := if ecc = .uncorrectableBoth then some ecc else none })

/-- What the ECC of a read at pseudo-channel p brings (R407 to R411): whether its requester is answered now, and the machine. The scrub rewrites a line that is
corrected. -/
def Mach.eccOf (m : Mach) (c : ModeCtl) (p : Nat) (x : HReq) (ecc : EccOutcome) : Bool × Mach :=
  match ecc with
  | .clean => (true, m.mended p x)
  | .corrected =>
    let m := (m.corrected c p).mended p x
    (true, if x.scrub then m.pcPush p (mendWrite x.line .bulk) else m)
  | .retried => (true, (m.bump O.pcUe p).mended p x)
  | _ => (m.bump O.pcUe p).uncorrected c p x ecc

/-! Service (R397, R399). -/

/-- Columns of a request counted against its bank's open row, and the row left as policy and hint say (R399). -/
def Mach.columns (m : Mach) (p : Nat) (x : HReq) : Mach :=
  let (_, _, bank, row) := m.lineAt x.line
  let q := m.pc p
  let hits := if mget none q.rows bank = some row then x.lines else x.lines - 1
  let keep := match m.rd O.hbmPagePolicy with | 0 => x.opn | 1 => false | _ => true
  (m.setPc p { q with rows := mset none q.rows bank (if keep then some row else none) }).bump O.pcRowHits p hits

/-- Whether a pseudo-channel serves requests: stacks active, its stack in service, its channel awake. -/
def Mach.pcServes (m : Mach) (c : ModeCtl) (p : Nat) : Bool :=
  stacksOn c && !m.stackLost (p / 64) && decide ((m.hchan (pcChan p)).sr = 0)

/-- The head request taken off its queue; its channel's empty time is noted (R403), and waiting requests enter, trace writes last (R398). -/
def Mach.pcPop (m : Mach) (p : Nat) : Mach :=
  let q := m.pc p
  let m := (m.setPc p { q with q := q.q.tail }).pcAdmit p
  let m := (stackBasins (p / 64)).foldl (fun m v => m.trcDrain v 257) m
  m.emptyNote p

/-- The lines of a read returned to its requester: one fewer that a lookup waits for, and the last line of a stack ends a pass of the scrub (R411). -/
def Mach.readDone (m : Mach) (p : Nat) (x : HReq) : Mach :=
  let m := match x.look with
    | some (v, seq) => (match (m.ifts v).find? fun q => decide (q.2.seq = seq) with
      | some (e, y) => m.setIft v e (some { y with reads := y.reads - 1 })
      | none => m)
    | none => m
  if x.scrub && decide (x.line = 2 ^ 28 - 1) then m.bump O.stkScrubPass (p / 64) else m

/-- HBM_READ_COMPLETE: the head of the queue, a read, returns its lines (R397, R407 to R410); a STALE stack serves none (R415). -/
def Mach.readComplete (m : Mach) (c : ModeCtl) (p : Nat) (ecc : EccOutcome) : Mach :=
  match (m.pc p).q with
  | x :: _ =>
    if x.write || !m.pcServes c p || !m.readServes (p / 64) then m
    else
      let r := ((m.columns p x).bump O.pcReads p x.lines).eccOf c p x (x.ecc.getD ecc)
      let m := r.2.pcPop p
      if r.1 then m.readDone p x else m
  | [] => m

/-- Store the lines of a write-back in its copy (R294, R414). -/
def Mach.storeSlot (m : Mach) (x : HReq) (g copy rec_ : Nat) : Mach :=
  let k := copy * 2 ^ 32 + g
  let old := mget 0 m.dp.hbm k
  let new := if x.lines = 2 then rec_ else if x.line % 8 < 4 then setFld 128 old 0 64 (fld 128 rec_ 0 64) else setFld 128 old 64 64 (fld 128 rec_ 64 64)
  { m with dp.hbm := mset 0 m.dp.hbm k new }

/-- Whether a write of a slot is still queued or waiting. -/
def Mach.wbPending (m : Mach) (g : Nat) : Bool :=
  m.dp.pcs.any fun p => (p.2.q ++ p.2.wait).any fun q => match q.wb with | some (g', _, _) => decide (g' = g) | none => false

/-- One write of a slot's record r acknowledged (R345): when every write of it has been, the way is clean if its record has not changed since. -/
def Mach.wbAck (m : Mach) (g r : Nat) : Mach :=
  let m := if m.wbPending g then m else { m with dp.wbq := mset none m.dp.wbq g none }
  match m.wayBySlot g with
  | none => m
  | some (k, w) =>
    let n := w.wb - 1
    if w.wb = 0 ∨ w.wbRec ≠ r then m
    else if n = 0 ∧ w.rec_ = w.wbRec then
      (if w.rec_ = 0 then m.setWay k none else m.setWay k (some { w with wb := 0, dirty := false }))
    else m.setWay k (some { w with wb := n })

/-- The reads that wait for a stack's writes are issued once none of those is left (R345). -/
def Mach.reissue (m : Mach) (o : Nat) : Mach :=
  let x := mget {} m.dp.reissue o
  if x.ahead.isEmpty then
    x.reads.foldl (fun m r => m.pcPush r.1 r.2) { m with dp.reissue := mset {} m.dp.reissue o {} }
  else m

/-- A write completed at a pseudo-channel: one fewer of those that a lost partner's reads wait for (R345). -/
def Mach.wroteAhead (m : Mach) (p : Nat) : Mach :=
  let o := p / 64
  let x := mget {} m.dp.reissue o
  let n := mget 0 x.ahead p
  if n = 0 then m else ({ m with dp.reissue := mset {} m.dp.reissue o { x with ahead := mset 0 x.ahead p (n - 1) } }).reissue o

/-- HBM_WRITE_COMPLETE: the head of the queue, a write, has issued its last column (R397, R414). -/
def Mach.writeComplete (m : Mach) (c : ModeCtl) (p : Nat) : Mach :=
  match (m.pc p).q with
  | x :: _ =>
    if !x.write || !m.pcServes c p then m
    else
      let m := ((m.columns p x).bump O.pcWrites p x.lines)
      (match x.wb with
       | some (g, copy, r) => ((m.storeSlot x g copy r).pcPop p).wbAck g r
       | none => m.pcPop p).wroteAhead p
  | [] => m

/-- The page hint of a request (R399): OPEN for bucket heads read, BULK runs and pool runs of more than one line. DESIGN CHOICE: a BULK run may be one line, and
a trace write is hinted CLOSE (log entry 176). -/
def Mach.hintOf (m : Mach) (q : HbmReq) : Bool :=
  match q.cls with
  | .bulk => true
  | .pool => decide (1 < q.lines)
  | .trace => false
  | .flow => !q.write && (match m.lineUse q.stack q.line with | .head _ => true | _ => false)

/-- The requests of an access on stack s from line l on, one for each pseudo-channel that it touches (R394, R396). -/
def Mach.hbmReqs (m : Mach) (q : HbmReq) (s l : Nat) : List (Nat × HReq) :=
  m.runReqs s l q.lines { write := q.write, line := l, lines := 0, cls := q.cls, opn := m.hintOf q, look := none, wb := none, who := q.requester }

/-- HBM_REQUEST (R396 to R398, R414, R415): a request enters the queues of its lines; a mirrored write goes to both copies, a mirrored read to the copy that
serves reads, and a request of an unmirrored region of a lost stack nowhere. -/
def Mach.hbmRequest (m : Mach) (c : ModeCtl) (q : HbmReq) : Mach :=
  let s := q.stack
  let two := m.mirrored s q.line
  let here := m.hbmReqs q s q.line
  let there := m.hbmReqs q (partner s) (partnerLine q.line)
  if !stacksOn c then m
  else if q.write then m.pcPushAll ((if m.stackLost s then [] else here) ++ if two && !m.stackLost (partner s) then there else [])
  else if two && !m.readsHere s then (if m.stackLost (partner s) then m else there.foldl (fun m y => m.pcPush y.1 y.2) m)
  else if m.stackLost s then m
  else here.foldl (fun m y => m.pcPush y.1 y.2) m

/-! Refresh, training, self-refresh (R400 to R406). -/

/-- HBM_REFRESH (R400): postponed while the head of the queue needs the bank; with the eighth owed all are forced, before the head proceeds. -/
def Mach.refresh (m : Mach) (c : ModeCtl) (p bank : Nat) : Mach :=
  let q := m.pc p
  let owed := mget 0 q.owed bank
  let needed := match q.q with | x :: _ => decide (m.bankOf x.line = bank) | [] => false
  if !m.pcServes c p || 16 ≤ bank then m
  else if needed && decide (owed + 1 < 8) then m.setPc p { q with owed := mset 0 q.owed bank (owed + 1) }
  else m.setPc p { q with owed := mset 0 q.owed bank 0, rows := mset none q.rows bank none }

/-- Whether a temperature is 10 °C from that of a channel's last training (R401). -/
def HCh.tempMoved (h : HCh) (temp : Int) : Bool :=
  match h.trainTemp with
  | some t => decide (10 ≤ (temp - t).natAbs)
  | none => false

/-- HBM_RETRAIN (R401): HBM-RETRAIN-PERIOD after its last training, or once the temperature has moved, a channel is retrained; one that fails is a fault
of its controller block. -/
def Mach.retrain (m : Mach) (c : ModeCtl) (s ch : Nat) (ok : Bool) (temp : Int) : Mach :=
  if !stacksOn c || m.stackLost s || decide ((m.hchan (32 * s + ch)).sr ≠ 0) then m
  else
    let k := 32 * s + ch
    let h := m.hchan k
    let m := if h.tempMoved temp then m else m.reach (h.trainAt + 1000000 * m.rd O.hbmRetrainPeriod)
    let m := (m.wr O.stkTemp s (unsgn 32 temp)).wr O.stkRefreshX s (if 85 < temp then 1 else 0)
    let m := ((m.bump O.stkRetrains s).wr O.stkRetrainLast s m.now).pulse c (416 + s) 0x32 0
    if ok then m.setHchan k { h with trainAt := m.ns, trainTemp := some temp } else m.faultAt c (416 + s) 0x07 ch

/-- SELF_REFRESH_IDLE (R403): a channel idle for HBM-IDLE-SR-AFTER begins its entry, with no retraining due. -/
def Mach.srIdle (m : Mach) (c : ModeCtl) (s ch : Nat) : Mach :=
  let k := 32 * s + ch
  let h := m.hchan k
  let empty := fun p => (m.pc p).q.isEmpty && (m.pc p).wait.isEmpty
  if !stacksOn c || m.stackLost s || !m.rdB O.hbmIdleSr || decide (h.sr ≠ 0) || !empty (2 * k) || !empty (2 * k + 1) then m
  else
    let m := m.reach (h.emptyAt + 1000 * m.rd O.hbmIdleSrAfter)
    if h.trainAt + 1000000 * m.rd O.hbmRetrainPeriod ≤ m.ns || h.tempMoved (sgn 32 (m.rd O.stkTemp s)) then m
    else
      let m := (m.setPc (2 * k) { m.pc (2 * k) with rows := [] })
      let m := (m.setPc (2 * k + 1) { m.pc (2 * k + 1) with rows := [] })
      m.setHchan k { h with sr := 1, srAt := m.ns }

/-- SELF_REFRESH_EXIT (R403, R405): 500 ns after the commit point at the earliest, and 400 ns more. A channel leaves for a request that waits. -/
def Mach.srExit (m : Mach) (c : ModeCtl) (s ch : Nat) : Mach :=
  let k := 32 * s + ch
  let h := m.hchan k
  let asked := !((m.pc (2 * k)).q.isEmpty && (m.pc (2 * k + 1)).q.isEmpty)
  if !m.srCommitted k || !asked || c.mode = .banked then m
  else
    let m := m.reach (max m.ns (h.srAt + 540) + 400)
    m.setHchan k { h with sr := 0, emptyAt := m.ns, entries := m.srEntries k }

/-- HBM_SCRUB (R411): the next line of an active stack is asked for, as a BULK request whose ECC outcome comes with it. The order of the lines of a pass is not
stated: DESIGN CHOICE, they are read in order, and the row has no effect for another line (log entry 177). -/
def Mach.scrub (m : Mach) (c : ModeCtl) (s l : Nat) (ecc : EccOutcome) : Mach :=
  if !stacksOn c || !m.readServes s || m.rd O.hbmScrubPeriod = 0 || decide (l ≠ mget 0 m.dp.scrubAt s) then m
  else
    ({ m with dp.scrubAt := mset 0 m.dp.scrubAt s ((l + 1) % 2 ^ 28) }).pcPush (m.pcOf s l)
      { write := false, line := l, lines := 1, cls := .bulk, opn := true, look := none, wb := none, who := 5, scrub := true, ecc := some ecc }

/-- Flare drops every buffer of a pool that it holds unsent, without freeing it, and counts the lost records (R435). -/
def Mach.hplDrop (m : Mach) (p : Nat) : Mach :=
  let lost := unsent (m.queuedBufs.filter fun x => decide (x.buf.1 = p))
  let m := m.unqueue fun x => decide (x.buf.1 = p)
  let openLost := (m.dp.xbuf.filterMap fun x => match x.2 with | some y => if y.buf.1 = p then some y.recs.length else none | none => none).foldl (· + ·) 0
  let m := { m with dp.xbuf := m.dp.xbuf.filter fun x => match x.2 with | some y => decide (y.buf.1 ≠ p) | none => false }
  m.flLose 3 (lost + openLost)

/-! Remapping (R395). -/

/-- HBM-MAP-ORDER written: every region is written with zeros and the flow table cleared until REMAP_DONE; pools are linked free, and what flare holds in
them is lost (R438). -/
def Mach.remap (m : Mach) (v : Nat) : Mach :=
  let m := (List.range 16).foldl (fun m p => m.hplDrop p) (m.wr O.hbmMapOrder 0 v).clearStart
  let m := { m with dp.remapping := true, dp.clearing := false, dp.hpools := [], dp.ppool := [], dp.xbuf := [] }
  let m := (m.entries O.epTable 0).foldl (fun m p => m.setEnt O.epTable 0 p.1 0) m
  let m := (List.range 16).foldl (fun m b =>
    (m.entries O.trace b).foldl (fun m p => m.setEnt O.trace b p.1 0) (m.wr O.hrqInuse b 0)) m
  m.st .ok

/-- REMAP_DONE. -/
def Mach.remapDone (m : Mach) : Mach := { m with dp.remapping := false }

/-! Pool commands. -/

/-- HBM_POOL_ALLOC (R431, R438): an allocation by basin b's mills: an export buffer for up to 4,096 octets, a bitmap beyond, where the mode lets one be taken. -/
def Mach.poolAllocCmd (m : Mach) (c : ModeCtl) (b len : Nat) : Mach := (m.takeBuf c b (4096 < len)).2

/-- What a pool's contents hold is dropped (R435, R437): unsent export buffers, bitmaps and charges; the pool is rebuilding. -/
def Mach.hplClear (m : Mach) (p : Nat) : Mach :=
  let m := m.hplDrop p
  let m := (m.hpool p).charge.foldl (fun m x => m.wr O.hrqInuse x.1 (m.rd O.hrqInuse x.1 - x.2)) m
  let m := m.setHpool p { rebuilding := true, rot := (m.hpool p).rot }
  if p % 2 = 1 then
    let pp : Map PPool := m.dp.ppool.filter fun x => match x.2.buf with | some (q, _) => decide (q ≠ p) | none => true
    ({ m with dp.ppool := pp }).wr O.poolState 0 1
  else m

/-- HPL_REBUILD (R435): refused unless the sluices of both requesting basins are STOPPED. -/
def Mach.hplRebuild (m : Mach) (p : Nat) : Mach :=
  if (stackBasins (p / 2)).all fun b => decide (m.fst (fnNum .sluice b) = .stopped) then (m.hplClear p).st .deferred else m.st .functionRunning

/-- HPL_REBUILD_DONE. -/
def Mach.hplRebuildDone (m : Mach) (p : Nat) : Mach := m.setHpool p { m.hpool p with rebuilding := false }

end Sys2Proof.Machine
end

