-- ==== Sys2Proof/Machine/Egress.lean ====
section
/-! DEFINITION. The egress side of a reach: rewrite, egress queues, time gates, the port scheduler, shapers, the start of a frame at the
PCS, and what discards queued frames (spec 15, 16 R504 to R510). -/

namespace Sys2Proof.Machine

/-! Octet edits. -/

/-- The string with n octets from off on replaced by the number v. -/
def putOct (l : List Byte) (off n v : Nat) : List Byte := l.take off ++ octets n v ++ l.drop (off + n)

/-- The one's complement sum of 16-bit words. -/
def onesSum (l : List Byte) : Nat :=
  let s := (List.range ((l.length + 1) / 2)).foldl (fun a k => a + oct l (2 * k) 2) 0
  let s := s % 65536 + s / 65536
  s % 65536 + s / 65536

/-- A checksum after octets have been replaced (RFC 1624): HC' = ~(~HC + ~m + m'). -/
def sumFix (hc : Nat) (old new : List Byte) : Nat :=
  let s := (65535 - hc) + (65535 - onesSum old) + onesSum new
  let s := s % 65536 + s / 65536
  let s := s % 65536 + s / 65536
  65535 - s

/-! Rewrite (R475, R476). -/

/-- Entry of the rewrite table of the egress reach; entry 0 makes no change. -/
def Mach.rwEntry (m : Mach) (e rw : Nat) : Nat := if rw = 0 then 0 else m.ent O.rwTable e rw

/-- TAG-OP of a rewrite entry. -/
def tagOp (w : Nat) : Nat := bits (fld 24 w 0 1) 4 3

/-- Where the checksum of an L4 header lies: TCP, UDP and ICMPv6 (log entry 61). -/
def l4Sum (proto : Nat) : Option Nat := match proto with | 6 => some 16 | 17 => some 6 | 58 => some 2 | _ => none

/-- Edit 1: the translation of the verdict, with the L4 checksum fixed; a UDP checksum of zero over IPv4 stays zero. -/
def xlate (d : List Byte) (res v : Nat) : List Byte :=
  let kind := bits (fld 32 v 6 1) 5 4
  if !(bit (fld 32 v 4 1) 3 && (kind = 1 || kind = 2)) then d
  else
    let o := resF res 14 2
    let v4 := decide (oct d o 1 / 16 = 4)
    let n := if v4 then 4 else 16
    let a := if v4 then (if kind = 1 then o + 12 else o + 16) else (if kind = 1 then o + 8 else o + 24)
    let proto := resF res 38 1
    let l4 := resF res 16 2
    let p := if kind = 1 then l4 else l4 + 2
    let ports := resFlag res 7 && (proto = 6 || proto = 17)
    let old := (d.drop a).take n ++ if ports then (d.drop p).take 2 else []
    let new := octets n (fld 32 v 16 16 % 2 ^ (8 * n)) ++ if ports then octets 2 (fld 32 v 12 2) else []
    let d := putOct d a n (fld 32 v 16 16)
    let d := if ports then putOct d p 2 (fld 32 v 12 2) else d
    match l4Sum proto with
    | none => d
    | some k =>
      let s := oct d (l4 + k) 2
      if !resFlag res 7 || (proto = 17 && v4 && s = 0) then d
      else
        let s' := sumFix s old new
        putOct d (l4 + k) 2 (if proto = 17 ∧ s' = 0 then 65535 else s')

/-- Edit 2: DSCP, and CE on a marked packet. -/
def setTos (d : List Byte) (o : Nat) (dscp : Option Nat) (ce : Bool) : List Byte :=
  let v4 := decide (oct d o 1 / 16 = 4)
  let tos := if v4 then oct d (o + 1) 1 else oct d o 2 / 16 % 256
  let tos := match dscp with | some x => x % 64 * 4 + tos % 4 | none => tos
  let tos := if ce then tos / 4 * 4 + 3 else tos
  if v4 then putOct d (o + 1) 1 tos else putOct d o 2 (oct d o 2 / 4096 * 4096 + tos * 16 + oct d o 2 % 16)

/-- Edit 4: the IPv4 header checksum recomputed. -/
def headSum (d : List Byte) (o : Nat) : List Byte :=
  let d0 := putOct d (o + 10) 2 0
  putOct d0 (o + 10) 2 (65535 - onesSum ((d0.drop o).take (4 * (oct d o 1 % 16))))

/-- Edits 1 to 4; none where the TTL has run out. -/
def rewriteL3 (d : List Byte) (res v w : Nat) (dscp : Option Nat) (ce : Bool) : Option (List Byte) :=
  if !resFlag res 8 then some d
  else
    let o := resF res 14 2
    let v4 := decide (oct d o 1 / 16 = 4)
    let t := if v4 then o + 8 else o + 7
    let x := setTos (xlate d res v) o dscp ce
    let dec := bit (fld 24 w 0 1) 5
    if dec && decide (oct x t 1 ≤ 1) then none
    else
      let x := if dec then putOct x t 1 (oct x t 1 - 1) else x
      some (if v4 && decide ((x.drop o).take 20 ≠ (d.drop o).take 20) then headSum x o else x)

/-- Edits 5 and 6: the MAC addresses, then the tag at octet 12. -/
def rewriteL2 (d : List Byte) (w tc : Nat) : List Byte :=
  let f := fld 24 w 0 1
  let d := if bit f 7 then putOct d 0 6 (fld 24 w 2 6) else d
  let d := if bit f 6 then putOct d 6 6 (fld 24 w 8 6) else d
  let tagged := isTag (oct d 12 2)
  let d :=
    match tagOp w with
    | 1 => d.take 12 ++ octets 4 (fld 24 w 14 4) ++ d.drop 12
    | 2 => if tagged then d.take 12 ++ d.drop 16 else d
    | 3 => if tagged then putOct d 14 2 (oct d 14 2 / 4096 * 4096 + fld 24 w 16 2 % 4096) else d
    | _ => d
  if bit f 2 && isTag (oct d 12 2) then putOct d 14 1 (tc % 8 * 32 + oct d 14 1 % 32) else d

/-! Egress queues (R473, R477). -/

/-- The queue of a logical interface and class. -/
def Mach.eq (m : Mach) (q : Nat) : List Copy := mget [] m.dp.eqs q

/-- The machine with a queue replaced. -/
def Mach.setEq (m : Mach) (q : Nat) (l : List Copy) : Mach := { m with dp.eqs := mset [] m.dp.eqs q l }

/-- Octets of frames with FCS (R290). -/
def octsIn (l : List Copy) : Nat := l.foldl (fun a x => a + x.data.length + 4) 0

/-- The queues that a breakout port serves now, in rising order, with their frames. -/
def Mach.portQueues (m : Mach) (b : Nat) : List (Nat × List Copy) := m.dp.eqs.filter fun p => decide (m.lifPort (p.1 / 8) = b)

/-- EQ(b, c) (R473). -/
def Mach.eqOcc (m : Mach) (b c : Nat) : Nat := (m.portQueues b).foldl (fun a p => if p.1 % 8 = c then a + octsIn p.2 else a) 0

/-- The egress reach of a logical interface. -/
def lifReach (l : Nat) : Nat := l / 1024

/-- Whether a frame asks for an entry of the transmit timestamp queue (R509): an injected PTP event message on an interface in mode BC, outside a FlexE
group (R506), that is not stamped in place; answers its message type. -/
def Mach.wantsStamp (m : Mach) (x : Copy) : Option Nat :=
  if x.kind ≠ 3 ∨ m.rd O.tsPtpMode x.lif ≠ 3 ∨ m.flexMember (m.lifPort x.lif) = true then none
  else
    match x.ptp with
    | none => none
    | some (a, _) =>
      let t := oct x.data a 1 % 16
      let twoStep := bit (oct x.data (a + 6) 1) 1
      if 3 < t ∨ (!twoStep ∧ (t = 0 ∨ t = 3)) then none else some t

/-- An entry of the transmit timestamp queue for a frame. -/
def stampEntry (x : Copy) (b time frac status reason : Nat) : Nat :=
  match x.ptp with
  | some (a, _) => tsEntry x.tag time frac b status reason (oct x.data a 1 % 16) (oct x.data (a + 4) 1) (oct x.data (a + 30) 2) 0
  | none => 0

/-- A frame that will never start: the result it owes is lost under a code (R510). -/
def Mach.stampLost (m : Mach) (x : Copy) (code : Nat) : Mach :=
  match m.wantsStamp x with
  | some _ => m.tsResult (stampEntry x (m.lifPort x.lif) 0 0 1 code)
  | none => m

/-- Owner of an egress queue's cells (Table 13.3). -/
def eqOwner (l : Nat) : Nat := 26 + l / 64 % 16

/-- A copy's cell freed by the egress queue it stands in or has just left (R427). -/
def Mach.freeCopy (m : Mach) (c : ModeCtl) (x : Copy) : Mach :=
  match x.cell with
  | none => m
  | some i => m.cellFree c (lifReach x.lif) i (eqOwner x.lif)

/-- A copy of an egress queue, or past it, dropped under a code, counted against a breakout port. -/
def Mach.copyDrop (m : Mach) (c : ModeCtl) (b : Nat) (x : Copy) (code : Nat) : Mach :=
  ((m.freeCopy c x).rsn c code b x.tc).stampLost x code

/-- Octets an egress cell is sized for (R475): FRAME-LEN + 4, and 4 more where the rewrite entry pushes a tag. -/
def Mach.cellNeed (m : Mach) (e rw len : Nat) : Nat := len + 4 + if tagOp (m.rwEntry e rw) = 1 ∧ len ≤ 16376 then 4 else 0

/-- Stages 3 and 4 (R475 to R477): a stored copy is rewritten and enters the queue of its interface and class; on TTL expiry, or when a tag
does not fit, it is dropped. -/
def Mach.enqueue (m : Mach) (c : ModeCtl) (x : Copy) : Mach :=
  let b := m.lifPort x.lif
  let w := if x.kind = 3 then 0 else m.rwEntry (lifReach x.lif) x.rw
  let m := (if m.running .egress b then m else m.met (fnNum .egress b)).metPort b
  let x := { x with met := !m.running .pgroup (b / 8) }
  if x.kind = 3 then m.setEq (8 * x.lif + x.tc) (m.eq (8 * x.lif + x.tc) ++ [x])
  else
    match rewriteL3 x.data x.res x.verdict w x.dscp x.ecn with
    | none => (m.copyDrop c b x 0x20).bump O.esTtlDrop b
    | some d =>
      if tagOp w = 1 ∧ 16376 < x.data.length then m.copyDrop c b x 0x41
      else
        let d' := rewriteL2 d w x.tc
        let ptp := x.ptp.map fun p => (p.1 + d'.length - x.data.length, p.2)
        let q := 8 * x.lif + x.tc
        m.setEq q (m.eq q ++ [{ x with data := d', ptp := ptp }])

/-- The cell of a stored copy handed to the owner of its egress queue; the copy is dropped where the hand-over is refused, which counts it (R428). -/
def Mach.toQueue (m : Mach) (c : ModeCtl) (x : Copy) (owner : Nat) : Mach :=
  match x.cell with
  | none => m.enqueue c x
  | some i =>
    let h := m.handOver c (lifReach x.lif) i owner (eqOwner x.lif)
    if h.1 then h.2.enqueue c x else h.2.stampLost x 0x42

/-! Time gates (R487 to R493). All times are adjusted, in 2^-16 ns. -/

/-- The list in force of a breakout port, as an instance number. -/
def Mach.gclActive (m : Mach) (b : Nat) : Nat := 2 * b + m.rd O.esGateActive b

/-- GCL-BASE in ns. -/
def Mach.gclBaseNs (m : Mach) (l : Nat) : Nat := (ofT96 (m.rd O.gclBase l) / 65536).toNat

/-- The closed spans of a class within a cycle of n ns: entries in order, the last one's state held to the end, and nothing beyond it. -/
def closedSpans (n c pos : Nat) : List Nat → List (Nat × Nat)
  | [] => []
  | e :: r =>
    let stop := if r.isEmpty then n else min n (pos + fld 8 e 4 4)
    (if bit (fld 8 e 0 1) c then [] else if pos < stop then [(pos, stop)] else []) ++ if stop < n then closedSpans n c stop r else []

/-- The closed spans of list l for a class. -/
def Mach.gclClosed (m : Mach) (l c : Nat) : List (Nat × Nat) :=
  closedSpans (m.rd O.gclCycle l) c 0 ((List.range (m.rd O.gclCount l)).map fun k => m.ent O.gclEntries l k)

/-- How long a class stays open from a position in the cycle; none for ever. -/
def openFor (cyc : Nat) (spans : List (Nat × Nat)) (pos : Nat) : Option Nat :=
  let n := cyc * 65536
  let p := pos % n
  spans.foldl (fun a s =>
    let lo := s.1 * 65536
    let d := if lo ≤ p ∧ p < s.2 * 65536 then 0 else if p < lo then lo - p else lo + n - p
    match a with
    | none => some d
    | some x => some (min x d)) none

/-- W_c of a list in 2^-16 ns; none when it is unlimited (R489). -/
def Mach.openMax (m : Mach) (l c : Nat) : Option Nat :=
  let s := m.gclClosed l c
  let n := m.rd O.gclCycle l
  match s with
  | [] => none
  | _ => some (s.foldl (fun a x => max a ((openFor n s (x.2 % n * 65536)).getD 0)) 0)

/-- Whether the gates of a breakout port act: ES-GATE-EN as its list last ran with it (R122, R492). -/
def Mach.gateOn (m : Mach) (b : Nat) : Bool := m.rsActs (fnNum .egress b) O.esGateEn b ≠ 0

/-- GCL-OPEN-MAX: W_c in ns at octets 4c, unlimited while no gates act (R492). -/
def Mach.openMaxView (m : Mach) (l : Nat) : Nat :=
  (List.range 8).foldl (fun a c => a * 2 ^ 32 + match if m.gateOn (l / 2) then m.openMax l c else none with | some w => w / 65536 | none => 0xFFFFFFFF) 0

/-- The first cycle start of a list at or after an adjusted time in ns. -/
def Mach.cycleFrom (m : Mach) (l from_ : Nat) : Nat :=
  let base := m.gclBaseNs l
  let n := m.rd O.gclCycle l
  if from_ ≤ base then base else base + (from_ - base + n - 1) / n * n

/-- How long a class stays open from a time under one list. -/
def Mach.openUnder (m : Mach) (l c t first : Nat) : Option Nat :=
  let n := m.rd O.gclCycle l
  let s := m.gclClosed l c
  if t < first * 65536 then (openFor n s 0).map fun d => first * 65536 - t + d
  else openFor n s ((t - m.gclBaseNs l * 65536) % (n * 65536))

/-- How long a class of a breakout port stays open from a time on, under the list in force and, from its landing time, the one pending
(R488, R491, R492); none for ever. -/
def Mach.gateOpen (m : Mach) (b c t : Nat) : Option Nat :=
  if !m.gateOn b then none
  else
    let l := m.gclActive b
    let d := m.openUnder l c t (m.cycleFrom l ((m.port b).gateFrom.getD 0))
    match (m.port b).gateAt with
    | none => d
    | some land =>
      let left := land * 65536 - t
      let l := 2 * b + (m.pendOf O.esGateUse b).getD (m.rd O.esGateActive b)
      let later := (openFor (m.rd O.gclCycle l) (m.gclClosed l c) 0).map (left + ·)
      match d with
      | none => later
      | some d => if left ≤ d then later else some d

/-- T of a frame (R488) in 2^-16 ns, rounded up. -/
def Mach.gateNeed (m : Mach) (b len : Nat) : Nat :=
  ((len + 12) * 8 * 65536 + m.portRate b - 1) / m.portRate b + m.rsActs (fnNum .egress b) O.esGuard b * 65536

/-- Whether a frame of a class fits its gate now. -/
def Mach.gateFits (m : Mach) (b c len : Nat) : Bool :=
  match m.gateOpen b c m.adj.toNat with
  | none => true
  | some d => decide (m.gateNeed b len ≤ d)

/-- Whether a frame is longer than every open span of the list in force (R489). -/
def Mach.gateNever (m : Mach) (b c len : Nat) : Bool :=
  m.gateOn b &&
    (match m.openMax (m.gclActive b) c with
     | none => false
     | some w => decide (w < m.gateNeed b len))

/-- Whether a gate list is valid (R493): an entry below GCL-COUNT lasts 1 ns or more. -/
def Mach.gclValid (m : Mach) (l : Nat) : Bool :=
  decide (1 ≤ m.rd O.gclCount l ∧ m.rd O.gclCount l ≤ 256) &&
    (List.range (m.rd O.gclCount l)).all fun k => decide (1 ≤ m.entF O.gclEntries l k 4 4)

/-- What a step of adjusted time from `old` does to gates (R492): a list whose cycles had begun takes its position from the new time, and a frame in
transmission that the step leaves over a closed gate is counted, once. The rest of the frame is a duration of R500. -/
def Mach.gateStep (m : Mach) (old : Int) : Mach :=
  m.dp.ports.foldl (fun m p =>
    let b := p.1
    let m := match p.2.gateFrom with
      | some g => if ((m.cycleFrom (m.gclActive b) g * 65536 : Nat) : Int) ≤ old then m.setPort b { m.port b with gateFrom := some 0 } else m
      | none => m
    let rest := m.rated (((p.2.txLast - m.ns) * 65536 : Nat) : Int)
    if !p.2.txOver && decide (m.ns < p.2.txLast) && (match m.gateOpen b p.2.txCls m.adj.toNat with | none => false | some d => decide ((d : Int) < rest))
    then (m.setPort b { m.port b with txOver := true }).bump O.esGateOverrun b else m) m

/-- A switch to list v of a running breakout port begins: it lands at the first cycle start of the new list at least 10 µs away (R491). -/
def Mach.gateSwitch (m : Mach) (b v : Nat) : Mach :=
  let at_ := m.cycleFrom (2 * b + v) (((m.adj + 65535) / 65536).toNat + 10000)
  (m.setPort b { m.port b with gateAt := some at_ }).wr O.esGateLand b (t96Of (at_ * 65536))

/-- ES-GATE-USE written (R114, R491, R492): at once while the list is STOPPED, after the check of R493, or while the gates that act are off; else it is
pending, and a running list begins a switch. -/
def Mach.gateUse (m : Mach) (b v : Nat) : Mach :=
  let now := fun (m : Mach) => (((m.setPend O.esGateUse b none).wr O.esGateUse b v).wr O.esGateActive b v).st .ok
  match m.fst (fnNum .egress b) with
  | .stopped => if m.rdB O.esGateEn b && !m.gclValid (2 * b + v) then m.st .range else now m
  | .running => if m.gateOn b then ((m.setPend O.esGateUse b (some v)).gateSwitch b v).st .deferred else now m
  | _ => if m.rdB O.esGateEn b then (m.setPend O.esGateUse b (some v)).st .deferred else now m

/-- GATE_SWITCH_LAND (R491): the pending list is checked and begins its cycle, or the write is discarded. -/
def Mach.gateLand (m : Mach) (c : ModeCtl) (b : Nat) : Mach :=
  match (m.port b).gateAt, m.pendOf O.esGateUse b with
  | some at_, some v =>
    let m := m.reach (m.nsWhen (at_ * 65536))
    let m := (m.setPort b { m.port b with gateAt := none }).wr O.esGateLand b 0
    if m.gclValid (2 * b + v) then (m.land c O.esGateUse b).wr O.esGateActive b v
    else (m.setPend O.esGateUse b none).note c 2 0xFFFF (O.esGateUse.key b) Status.range.code 0
  | _, _ => m

/-! Shapers (R483, R484). What a shaper lacks of its burst is held, in thousandths of an octet. -/

/-- Burst of a port shaper. -/
def Mach.portBurst (m : Mach) (b : Nat) : Int := m.rd O.esPshapeBurst b * 1024000

/-- Burst of a queue shaper. -/
def Mach.queueBurst (m : Mach) (q : Nat) : Int := m.entF O.lifQueue 0 q 8 4 * 1024000

/-- Whether the port shaper lets a frame start. -/
def Mach.portTokens (m : Mach) (b : Nat) : Bool := m.rd O.esPshapeRate b = 0 || decide ((m.port b).tok ≤ m.portBurst b)

/-- Whether a queue shaper lets a frame start. -/
def Mach.queueTokens (m : Mach) (q : Nat) : Bool := m.entF O.lifQueue 0 q 4 4 = 0 || decide (mget 0 m.dp.qtok q ≤ m.queueBurst q)

/-- A new burst: tokens above it are cut to it. -/
def recut (lack old new : Int) : Int := max 0 (lack + new - old)

/-- A frame of n octets started through its shapers. -/
def Mach.spend (m : Mach) (b q n : Nat) : Mach :=
  let x : Int := (n + m.rd O.esShapeOverhead b) * 1000
  let m := if m.rd O.esPshapeRate b = 0 then m else m.setPort b { m.port b with tok := (m.port b).tok + x }
  if m.entF O.lifQueue 0 q 4 4 = 0 then m else { m with dp.qtok := mset 0 m.dp.qtok q (mget 0 m.dp.qtok q + x) }

/-- The octets of a LIF-QUEUE entry from a new value: WEIGHT, or RATE and BURST. -/
def queueMerge (old new : Nat) (weight : Bool) : Nat :=
  if weight then setFld 16 old 0 1 (fld 16 new 0 1) else setFld 16 old 4 8 (fld 16 new 4 8)

/-- Part of a pending LIF-QUEUE entry lands (R484, Table 15.3); the entry is pending until all of it has. -/
def Mach.queueLand (m : Mach) (q : Nat) (weight : Bool) : Mach :=
  match m.pendEnt O.lifQueue 0 q with
  | none => m
  | some v =>
    let old := m.ent O.lifQueue 0 q
    let new := queueMerge old v weight
    let was := m.queueBurst q
    let m := m.setEnt O.lifQueue 0 q new
    let m := { m with dp.qtok := mset 0 m.dp.qtok q (recut (mget 0 m.dp.qtok q) was (m.queueBurst q)) }
    if new = v then m.setPendEnt O.lifQueue 0 q none else m

/-- SHAPER_REFILL of the port shaper: pending values land at the refill, and the tokens of every period since the last refill are gained. -/
def Mach.portRefill (m : Mach) (c : ModeCtl) (b : Nat) : Mach :=
  let p := m.port b
  let m := m.reach ((p.tokAt / 64 + 1) * 64)
  let k := m.ns / 64 - p.tokAt / 64
  let was := m.portBurst b
  let gain : Int := m.rd O.esPshapeRate b * 8 * k
  let m := (m.land c O.esPshapeRate b).land c O.esPshapeBurst b
  m.setPort b { m.port b with tok := recut (max 0 (p.tok - gain)) was (m.portBurst b), tokAt := m.ns }

/-- SHAPER_REFILL of a queue shaper, of a queue the port serves. -/
def Mach.queueRefill (m : Mach) (b q : Nat) : Mach :=
  if m.lifPort (q / 8) ≠ b then m
  else
    let at_ := mget 0 m.dp.qtokAt q
    let m := m.reach ((at_ / 1024 + 1) * 1024)
    let k := m.ns / 1024 - at_ / 1024
    let gain : Int := m.entF O.lifQueue 0 q 4 4 * 128 * k
    let m := { m with dp.qtok := mset 0 m.dp.qtok q (max 0 (mget 0 m.dp.qtok q - gain)), dp.qtokAt := mset 0 m.dp.qtokAt q m.ns }
    m.queueLand q false

/-! The scheduler (R479 to R482). -/

/-- One member of a deficit round robin: number, weight, octets of its head frame. -/
structure Drr where
  id : Nat
  weight : Nat
  head : Nat
deriving DecidableEq, Repr

/-- Turns in rotation until a member's deficit covers its head frame. -/
def drrGo (l : List Drr) (defs : Map Nat) (rest : List Drr) (fuel : Nat) : Option (Nat × Map Nat) :=
  match fuel with
  | 0 => none
  | f + 1 =>
    match rest with
    | [] => drrGo l defs l f
    | x :: r =>
      let d := mget 0 defs x.id + x.weight * 512
      if x.head ≤ d then some (x.id, mset 0 defs x.id (d - x.head)) else drrGo l (mset 0 defs x.id d) r f

/-- The next member to send: the one whose turn it is while its deficit lasts, else the next in rotation (R481). -/
def drrPick (l : List Drr) (defs : Map Nat) (cur : Option Nat) : Option (Nat × Map Nat) :=
  let turn := match cur with
    | some k => l.find? fun (x : Drr) => decide (x.id = k)
    | none => none
  let again := match turn with
    | some x => if x.head ≤ mget 0 defs x.id then some (x.id, mset 0 defs x.id (mget 0 defs x.id - x.head)) else none
    | none => none
  match again with
  | some r => some r
  | none =>
    let k := match cur with | some k => k + 1 | none => 0
    let rot := l.filter (fun (x : Drr) => decide (k ≤ x.id)) ++ l.filter (fun (x : Drr) => decide (x.id < k))
    if rot.isEmpty then none else drrGo rot defs rot (40 * (rot.length + 1))

/-- Whether a class of a breakout port is paused (R202). -/
def Mach.pausedNow (m : Mach) (b c : Nat) : Bool :=
  let on := fun k => match mget none (m.port b).paused k with | some u => decide (m.ns < u) | none => false
  on c || on 8

/-- The eligible queues of a port, with their head frames (R479). -/
def Mach.eligible (m : Mach) (b : Nat) : List (Nat × Copy) :=
  (m.portQueues b).filterMap fun p =>
    match p.2 with
    | [] => none
    | x :: _ =>
      if !m.pausedNow b (p.1 % 8) && m.queueTokens p.1 && m.portTokens b && m.gateFits b (p.1 % 8) x.data.length then some (p.1, x) else none

/-- A queue that has lost a frame: its deficit, and its class's, return to 0 where nothing is left (R481). -/
def Mach.eqLess (m : Mach) (b q : Nat) : Mach :=
  let p := m.port b
  let m := if (m.eq q).isEmpty then { m with dp.qdef := mset 0 m.dp.qdef q 0 } else m
  let cdef := if (m.portQueues b).all fun y => decide (y.1 % 8 ≠ q % 8) then mset 0 p.cdef (q % 8) 0 else p.cdef
  m.setPort b { p with cdef := cdef }

/-- Head frames that no open span of their gate can take are dropped at dequeue (R489). -/
def Mach.gateDrops (m : Mach) (c : ModeCtl) (b : Nat) : Mach :=
  (m.portQueues b).foldl (fun m p =>
    match p.2 with
    | x :: r => if m.gateNever b (p.1 % 8) x.data.length then (((m.setEq p.1 r).eqLess b p.1).copyDrop c b x 0x60).bump O.esGateDrop b else m
    | [] => m) m

/-- Head frames that wait for their gate are counted, once each (R488); one that no open span can take does not wait. -/
def Mach.gateWaits (m : Mach) (b : Nat) : Mach :=
  (m.portQueues b).foldl (fun m p =>
    match p.2 with
    | x :: r =>
      if x.waited || m.gateFits b (p.1 % 8) x.data.length || m.gateNever b (p.1 % 8) x.data.length then m else (m.setEq p.1 ({ x with waited := true } :: r)).bump O.esGateWaits b
    | [] => m) m

/-- The weight of a queue whose turn begins now: a pending WEIGHT lands then (Table 15.3). -/
def Mach.turnWeight (m : Mach) (q : Nat) : Nat :=
  match m.pendEnt O.lifQueue 0 q with
  | some v => fld 16 v 0 1
  | none => m.entF O.lifQueue 0 q 0 1

/-- The eligible queues of a class as members of its round robin. -/
def Mach.queueMembers (m : Mach) (c : Nat) (el : List (Nat × Copy)) : List Drr :=
  (el.filter fun x => decide (x.1 % 8 = c)).map fun x => { id := x.1, weight := m.turnWeight x.1, head := x.2.data.length + 4 }

/-- Queue choice within a class. -/
def Mach.queuePick (m : Mach) (b c : Nat) (el : List (Nat × Copy)) : Option (Nat × Map Nat) :=
  drrPick (m.queueMembers c el) m.dp.qdef (mget none (m.port b).qturn c)

/-- The members whose turn a choice of q has begun: none where it was q's turn and its deficit lasts. -/
def turnsBegun (l : List Drr) (defs new : Map Nat) (cur : Option Nat) (q : Nat) : List Nat :=
  if cur = some q ∧ l.any (fun x => decide (x.id = q ∧ x.head ≤ mget 0 defs q)) = true then []
  else (l.filter fun x => decide (x.id = q ∨ mget 0 new x.id ≠ mget 0 defs x.id)).map (·.id)

/-- Weight of a class. -/
def Mach.classWeight (m : Mach) (b c : Nat) : Nat := fld 8 (m.rd O.esClassWeight b) c 1

/-- The frame at the head of queue q is dequeued into the transmit crossing FIFO, its cell freed and its shapers charged. -/
def Mach.dequeue (m : Mach) (c : ModeCtl) (b q : Nat) : Mach :=
  match m.eq q with
  | [] => m
  | x :: r =>
    let m := (((m.setEq q r).freeCopy c x).spend b q (x.data.length + 4)).eqLess b q
    let p := m.port b
    m.setPort b { p with txf := p.txf ++ [{ x with cell := none }] }

/-- A class's chosen queue served; the weights of the queues whose turns have begun land (R484). -/
def Mach.serve (m : Mach) (c : ModeCtl) (b cls q : Nat) (el : List (Nat × Copy)) (qdef : Map Nat) (cdef : Map Nat) (strict : Bool) : Mach :=
  let p := m.port b
  let begun := turnsBegun (m.queueMembers cls el) m.dp.qdef qdef (mget none p.qturn cls) q
  let m := { m with dp.qdef := qdef }.setPort b { p with
    qturn := mset none p.qturn cls (some q), cdef := cdef, cturn := if strict then p.cturn else some cls }
  (begun.foldl (fun m q => m.queueLand q true) m).dequeue c b q

/-- Octets in the transmit crossing FIFO of a port group (Table 2.1). -/
def Mach.txOcc (m : Mach) (n : Nat) : Nat := (List.range 8).foldl (fun a k => a + octsIn (m.port (8 * n + k)).txf) 0

/-- Whether the head frame of a queue fits the 24 KiB transmit crossing FIFO of a port's group (Table 2.1). -/
def Mach.txRoom (m : Mach) (b q : Nat) : Bool := decide (m.txOcc (b / 8) + octsIn ((m.eq q).take 1) ≤ 24576)

/-- SCHED_DECISION (R479 to R481): a class by strict priority or deficit round robin, then a queue of it. A frame that the crossing FIFO of the
port group has no room for waits (R47). -/
def Mach.schedule (m : Mach) (c : ModeCtl) (b : Nat) : Mach :=
  if !m.running .egress b || !m.linkSends b then m
  else
    let m := (m.gateDrops c b).gateWaits b
    let el := m.eligible b
    let from_ := m.rd O.esStrictFrom b
    match (List.range 8).reverse.find? fun k => decide (from_ ≤ k) && el.any fun x => decide (x.1 % 8 = k) with
    | some k =>
      (match m.queuePick b k el with
       | some (q, qd) => if m.txRoom b q then m.serve c b k q el qd (m.port b).cdef true else m
       | none => m)
    | none =>
      let members := ((List.range 8).filter (fun k => decide (k < from_))).filterMap fun k =>
        match m.queuePick b k el with
        | some (q, _) => (m.eq q).head?.map fun x => ({ id := k, weight := m.classWeight b k, head := x.data.length + 4 } : Drr)
        | none => none
      match drrPick members (m.port b).cdef (m.port b).cturn with
      | some (k, cd) =>
        (match m.queuePick b k el with
         | some (q, qd) => if m.txRoom b q then m.serve c b k q el qd cd false else m
         | none => m)
      | none => m

/-! The transmit MAC (R49, R490, R505 to R509, R520). -/

/-- Add to correctionField (Table 16.2, R508), with the UDP checksum kept. -/
def addCorrection (d : List Byte) (a carrier : Nat) (q : Int) : List Byte :=
  let old := (d.drop (a + 8)).take 8
  let v := unsgn 64 (sgn 64 (oct d (a + 8) 8) + q)
  let d' := putOct d (a + 8) 8 v
  let s := oct d (a - 2) 2
  if carrier = 0 ∨ (carrier = 1 ∧ s = 0) then d'
  else
    let s' := sumFix s old (octets 8 v)
    putOct d' (a - 2) 2 (if s' = 0 then 65535 else s')

/-- originTimestamp of a Sync written, with the UDP checksum kept. -/
def setOrigin (d : List Byte) (a carrier sec ns : Nat) : List Byte :=
  let new := octets 6 sec ++ octets 4 ns
  let old := (d.drop (a + 34)).take 10
  let d' := putOct d (a + 34) 10 (sec * 2 ^ 32 + ns)
  let s := oct d (a - 2) 2
  if carrier = 0 ∨ (carrier = 1 ∧ s = 0) then d'
  else
    let s' := sumFix s old new
    putOct d' (a - 2) 2 (if s' = 0 then 65535 else s')

/-- Residence of a frame that starts now (R508): the time between its corrected timestamps, a duration of R500. -/
def Mach.residence (m : Mach) (x : Copy) (b : Nat) : Int := m.rated (m.com.frc + corrOf (m.rd O.tsTxCorr b) - x.stamp)

/-- What the transmit MAC writes into a PTP message as its frame starts (R507 to R509, Table 16.2); answers whether it corrected transit
time. -/
def Mach.ptpOut (m : Mach) (x : Copy) (b : Nat) : List Byte × Bool :=
  match x.ptp with
  | none => (x.data, false)
  | some (a, carrier) =>
    let kind := oct x.data a 1 % 16
    let eg := m.rd O.tsPtpMode x.lif
    if m.flexMember b then (x.data, false)
    else if x.kind = 3 then
      let twoStep := bit (oct x.data (a + 6) 1) 1
      let t : Int := m.adj + corrOf (m.rd O.tsTxCorr b)
      if eg ≠ 3 ∨ twoStep then (x.data, false)
      else if kind = 0 then
        let tt := t96Of t
        (addCorrection (setOrigin x.data a carrier (tt / 2 ^ 32) (tt % 2 ^ 32)) a carrier (t % 65536), false)
      else if kind = 3 then (addCorrection x.data a carrier t, false)
      else (x.data, false)
    else
      let ing := m.rd O.tsPtpMode x.inLif
      let tc := eg = 1 || eg = 2
      if tc && (ing = 1 && decide (kind ≤ 3)) then (addCorrection x.data a carrier (m.residence x b), true)
      else if tc && (ing = 2 && kind = 0) then
        (addCorrection x.data a carrier (m.residence x b + corrOf (m.rd O.tsPeerDelay x.inPort)), true)
      else (x.data, false)

/-- PCS_FRAME_START (R49, R490), while the port's list runs (R494): once the frame before it has ended, the frame at the head of the crossing FIFO is started if it fits its
gate; it is corrected, stamped and counted. -/
def Mach.pcsStart (m : Mach) (c : ModeCtl) (b : Nat) : Mach :=
  let p := m.port b
  match p.txf with
  | [] => m
  | x :: r =>
    if !m.linkSends b || !m.running .egress b then m
    else
      let m := m.reach p.txEnd
      if m.gateOn b && !m.gateFits b x.tc x.data.length then
        if x.late then m else (m.setPort b { p with txf := { x with late := true } :: r }).bump O.esGateLate b
      else
        let (d, corrected) := m.ptpOut x b
        let after := fun n => m.ns + ((d.length + n) * 8 + m.portRate b - 1) / m.portRate b
        let m := m.setPort b { p with txf := r, txEnd := after 24, txLast := after 12, txOver := false, txCls := x.tc }
        let m := (((m.wireOut b d.length).emit (.frame b d)).portFrame c b 9 d).bump O.esSent b
        let m := if corrected then m.bump O.tsTcCorrected b else m
        match m.wantsStamp x with
        | some _ =>
          let t : Int := m.adj + corrOf (m.rd O.tsTxCorr b)
          m.tsResult (stampEntry x b (t96Of t) (t % 65536).toNat 0 0)
        | none => m

/-! Discards (R478, R494, R495). -/

/-- Every frame that a breakout port serves or has in its crossing FIFO is discarded under a code; one that a port going DOWN discards has met its port
group, and is counted there once (R125). -/
def Mach.egressFlush (m : Mach) (c : ModeCtl) (b code : Nat) : Mach :=
  let one := fun (m : Mach) (x : Copy) =>
    let m := m.copyDrop c b x code
    if code = 0x51 then (if x.met then m else m.metPort b).bump O.esFlushed b else m
  let m := (m.portQueues b).foldl (fun m p =>
    let m := p.2.foldl one m
    { m.setEq p.1 [] with dp.qdef := mset 0 m.dp.qdef p.1 0 }) m
  let m := (m.port b).txf.foldl one m
  let p := m.port b
  m.setPort b { p with txf := [], cdef := [] }

/-- EGRESS_DROP_DEQUEUE (R494): a list stopped under DROP drops one head frame, in rotation over the port's queues. -/
def Mach.egressDrop (m : Mach) (c : ModeCtl) (b : Nat) : Mach :=
  let f := fnNum .egress b
  let st := m.fst f
  if !(st = .stopping ∨ st = .stopped) ∨ (m.fn f).disp ≠ 2 then m
  else
    let qs := m.portQueues b
    let k := (m.port b).dropRot
    match (qs.filter (fun p => decide (k ≤ p.1)) ++ qs.filter (fun p => decide (p.1 < k))) with
    | (q, x :: r) :: _ => (((m.setPort b { m.port b with dropRot := q + 1 }).setEq q r).eqLess b q).copyDrop c b x 0x13
    | _ => m

end Sys2Proof.Machine
end

