-- ==== Sys2Proof/Machine/Switch.lean ====
section
/-! DEFINITION. The switch core: release from an ordering lane, policers, VOQs, request and grant, channels, arrival at the egress reach,
multicast and port states (spec 14, 15 R485). -/

namespace Sys2Proof.Machine

/-! VOQs (R446 to R454). -/

/-- Egress reach of a VOQ. -/
def voqReach (n : Nat) : Nat := if n < 8192 then n / 1024 else (n - 8192) / 8

/-- Channel of a VOQ's requests and grants (Table 14.1). -/
def voqChan (n : Nat) : Nat := if n < 8192 then n / 8 % 4 else 0

/-- VOQ n of reach r. -/
def Mach.voq (m : Mach) (r n : Nat) : Voq := mget {} m.dp.voqs (8256 * r + n)

/-- Since when a VOQ's head could be sent for its credit: from now where it could not before, or is another head. -/
def Voq.ready (v old : Voq) (now : Nat) : Voq :=
  { v with readyAt := if v.q.isEmpty ∨ v.credit ≤ 0 then none else if v.q.head? = old.q.head? then some (old.readyAt.getD now) else some now }

/-- The machine with a VOQ replaced. -/
def Mach.setVoq (m : Mach) (r n : Nat) (v : Voq) : Mach := { m with dp.voqs := mset {} m.dp.voqs (8256 * r + n) (v.ready (m.voq r n) m.ns) }

/-- Octets a packet counts (R449). -/
def Mach.pktOcts (m : Mach) (p : Nat) : Nat := match m.pkt p with | some x => x.data.length + 4 | none => 0

/-- Occupancy of a VOQ. -/
def Mach.voqOcc (m : Mach) (r n : Nat) : Nat := (m.voq r n).q.foldl (fun a x => a + m.pktOcts x.pkt) 0

/-- VOQ-REACH-OCC: a packet counts once (R449). -/
def Mach.voqReachOcc (m : Mach) (r : Nat) : Nat := (m.pktsIn r fun x => decide (x.refs ≠ 0)).foldl (fun a p => a + p.2.data.length + 4) 0

/-- A REQUEST at every change of the pending state of a VOQ whose set runs (R452). -/
def Mach.voqSettle (m : Mach) (r n : Nat) : Mach :=
  let v := m.voq r n
  let want := decide (v.credit < (m.voqOcc r n : Int))
  if !m.running .voq r || want = v.pending then m
  else (m.setVoq r n { v with pending := want }).post r (voqReach n) (voqChan n) (.request r n want)

/-- A RETURN of a VOQ's credit (R454). -/
def Mach.voqReturn (m : Mach) (r n : Nat) : Mach :=
  let v := m.voq r n
  if v.credit ≤ 0 then m
  else (m.setVoq r n { v with credit := 0 }).post r (voqReach n) (voqChan n) (.ret r n v.credit.toNat)

/-- What follows a change of a VOQ: an empty one gives its credit back, and the pending state is brought up to date. -/
def Mach.voqLeft (m : Mach) (r n : Nat) : Mach :=
  (if (m.voq r n).q.isEmpty then m.voqReturn r n else m).voqSettle r n

/-- The VOQs of a reach that hold anything, in rising order. -/
def Mach.voqsOf (m : Mach) (r : Nat) : List Nat :=
  m.dp.voqs.filterMap fun p => if 8256 * r ≤ p.1 ∧ p.1 < 8256 * (r + 1) then some (p.1 - 8256 * r) else none

/-- A VOQ set reaches STOPPED (R465): requests are withdrawn and credit is returned. -/
def Mach.voqStopped (m : Mach) (r : Nat) : Mach :=
  (m.voqsOf r).foldl (fun m n =>
    let v := m.voq r n
    let m := if v.pending then (m.setVoq r n { v with pending := false }).post r (voqReach n) (voqChan n) (.request r n false) else m
    m.voqReturn r n) m

/-- A VOQ set reaches RUNNING (R465). -/
def Mach.voqStarted (m : Mach) (r : Nat) : Mach := (m.voqsOf r).foldl (fun m n => m.voqSettle r n) m

/-- A packet with its references changed: its cell is freed and it is gone when no reference and no DONE is owed (R449, R461). -/
def Mach.pktSettle (m : Mach) (c : ModeCtl) (p : Nat) (x : Pkt) : Mach :=
  if x.refs = 0 ∧ x.done = [] then (m.freeCellOf c x).setPkt p none else m.setPkt p (some x)

/-- The head reference taken off a VOQ, its delay counted (R450). -/
def Mach.voqPop (m : Mach) (r n : Nat) : Option (VRef × Mach) :=
  let v := m.voq r n
  match v.q with
  | [] => none
  | x :: t =>
    let m := m.setVoq r n { v with q := t }
    some (x, if x.at_ + m.rd O.voqDelayMark ≤ m.ns then m.bump O.voqDelayed r else m)

/-- A reference gone from a VOQ without being sent: a multicast one is made up for by a SKIP (R459, R465). -/
def Mach.refGone (m : Mach) (c : ModeCtl) (r n p : Nat) : Mach :=
  match m.pkt p with
  | none => m
  | some x =>
    let y := { x with refs := x.refs - 1 }
    if n < 8192 then m.pktSettle c p y
    else
      let e := voqReach n
      (m.setPkt p (some { y with done := e :: y.done })).post r e 0 (.skip r p (x.w.dest % 65536) (n % 8))

/-! Enqueue (R447, R448, R451). -/

/-- A port's state as a reach sees it: DOWN where no channel and no relay reaches it (R447, R595). -/
def Mach.portView (m : Mach) (r b : Nat) : Nat := if m.cutOff r (b / 128) then 0 else mget 0 (m.rch r).view b

/-- The LFSR advanced once: taps 16, 14, 13 and 11. -/
def lfsrNext (v : Nat) : Nat := v / 2 + (bits v 0 0 + bits v 2 2 + bits v 3 3 + bits v 5 5) % 2 * 32768

/-- The ECN decision of a unicast reference; answers whether it marks. -/
def Mach.ecnMark (m : Mach) (r n : Nat) (x : Pkt) : Bool × Mach :=
  let e := m.ent O.ecnProfile 0 n
  let ecn := resF x.res 39 1 % 4
  if !(resFlag x.res 8 && (ecn = 1 || ecn = 2) && bit (fld 8 e 5 1) 0) then (false, m)
  else
    let lo := 1024 * fld 8 e 0 2
    let hi := 1024 * fld 8 e 2 2
    let q := m.voqOcc r n
    let h := m.rch r
    let mark := if q < lo then false else if hi ≤ q then true else decide (h.lfsr * (hi - lo) < (fld 8 e 4 1 + 1) * 256 * (q - lo))
    (mark, m.setRch r { h with lfsr := lfsrNext h.lfsr })

/-- A reference put in a VOQ; it meets the channel set that its hash names (R125). -/
def Mach.voqPut (m : Mach) (r n p : Nat) (x : Pkt) (mirror ecn : Bool) : Mach :=
  let v := m.voq r n
  let m := (m.setVoq r n { v with q := v.q ++ [{ pkt := p, mirror := mirror, ecn := ecn, at_ := m.ns }] }).bump O.voqEnqueued r
  ((m.setPkt p (some { x with refs := x.refs + 1 })).metChan (m.chanFor r (voqReach n) (flowChan x.hash))).voqSettle r n

/-- The first check that refuses a reference to a unicast VOQ (R448); `held` says that the packet already counts in the reach. -/
def Mach.voqCheck (m : Mach) (r n : Nat) (x : Pkt) (held : Bool) : Option Nat :=
  let size := x.data.length + 4
  if m.portView r (n / 8) ≠ 3 then some 0x51
  else if !held && decide (1024 * m.rd O.voqReachLimit r < m.voqReachOcc r + size) then some 0x50
  else if 1024 * m.ent O.voqLimit 0 n < m.voqOcc r n + size then some 0x50 else none

/-- A refused reference counted (R448). -/
def Mach.voqRefuse (m : Mach) (c : ModeCtl) (r n code : Nat) : Mach :=
  ((if code = 0x51 then m.metPort (n / 8) else m).rsn c code (n / 8) (n % 8)).bump (if code = 0x51 then O.voqRefusedDown else O.voqRefusedLimit) r

/-- The mirror reference of a packet whose primary has been taken (R448). -/
def Mach.mirrorPut (m : Mach) (c : ModeCtl) (p : Nat) : Mach :=
  match m.pkt p with
  | none => m
  | some x =>
    match x.w.mirror with
    | none => m
    | some (cls, w) =>
      let n := 8 * m.lifPort (w % 8192) + cls
      match m.voqCheck x.reach n x true with
      | some code => m.voqRefuse c x.reach n code
      | none => m.voqPut x.reach n p x true false

/-- A multicast packet's references (R448, R459): one for each egress reach of the group, or a SKIP where that VOQ stands above its limit. -/
def Mach.mcastPut (m : Mach) (c : ModeCtl) (p : Nat) (x : Pkt) : Mach :=
  let r := x.reach
  let mask := m.ent O.mcReachMask 0 (x.w.dest % 65536)
  if mask = 0 then m.drop c p x 0x52
  else if 1024 * m.rd O.voqReachLimit r < m.voqReachOcc r + x.data.length + 4 then (m.drop c p x 0x50).bump O.voqRefusedLimit r
  else
    let m := m.setPkt p (some x)
    let m := ((List.range 8).filter fun e => bit mask e).foldl (fun m e =>
      let n := 8192 + 8 * e + x.w.tc
      match m.pkt p with
      | none => m
      | some y =>
        if 1024 * m.rd O.mcVoqLimit < m.voqOcc r n ∨ m.isolated .reach e then
          (m.setPkt p (some { y with done := e :: y.done })).post r e 0 (.skip r p (x.w.dest % 65536) x.w.tc)
        else m.voqPut r n p y false false) m
    m.mirrorPut c p

/-- A unicast packet's references. -/
def Mach.unicastPut (m : Mach) (c : ModeCtl) (p : Nat) (x : Pkt) : Mach :=
  let r := x.reach
  let n := 8 * m.lifPort (x.w.dest % 8192) + x.w.tc
  match m.voqCheck r n x false with
  | some code => (m.forget c p x).voqRefuse c r n code
  | none =>
    let (mark, m) := m.ecnMark r n x
    let m := if mark then (m.rsn c 0x53 (n / 8) (n % 8)).bump O.ecnMarked r else m
    (m.voqPut r n p x false mark).mirrorPut c p

/-! Policers (R485, R486). -/

/-- A policer entry with the tokens of the time since its last update, and the fractions of octets left over in 1/8000. -/
def Mach.polTokens (m : Mach) (r k : Nat) : Nat × Nat × Nat :=
  let e := m.ent O.polTable r k
  let (at_, fc, fe) := mget (0, 0, 0) m.dp.pol (16384 * r + k)
  let dt := m.ns - at_
  let gc := fld 48 e 4 4 * dt + fc
  let ge := fld 48 e 8 4 * dt + fe
  let cbs := 1024 * fld 48 e 12 2
  let ebs := 1024 * fld 48 e 14 2
  let tc := fld 48 e 16 4 + gc / 8000
  let te := if fld 48 e 0 1 = 1 then fld 48 e 20 4 + (tc - cbs) else fld 48 e 20 4 + ge / 8000
  (setFld 48 (setFld 48 e 16 4 (min tc cbs)) 20 4 (min te ebs), gc % 8000, ge % 8000)

/-- The machine with a policer's entry and fractions as of now. -/
def Mach.polSet (m : Mach) (r k e fc fe : Nat) : Mach :=
  let m := m.setEnt O.polTable r k e
  { m with dp.pol := mset (0, 0, 0) m.dp.pol (16384 * r + k) (m.ns, fc, fe) }

/-- An entry written by the host (R486): counters and tokens stay, and the tokens are cut to the new burst sizes. -/
def Mach.polWrite (m : Mach) (r k v : Nat) : Mach :=
  let (e, _, _) := m.polTokens r k
  let new := setFld 48 v 24 24 (fld 48 e 24 24)
  let new := setFld 48 new 16 4 (min (fld 48 e 16 4) (1024 * fld 48 v 12 2))
  m.polSet r k (setFld 48 new 20 4 (min (fld 48 e 20 4) (1024 * fld 48 v 14 2))) 0 0

/-- Every policer of a reach with its tokens full (R486). -/
def Mach.polFull (m : Mach) (r : Nat) : Mach :=
  (m.entries O.polTable r).foldl (fun m p =>
    m.polSet r p.1 (setFld 48 (setFld 48 p.2 16 4 (1024 * fld 48 p.2 12 2)) 20 4 (1024 * fld 48 p.2 14 2)) 0 0) m

/-- A packet of n octets policed: the colour (0 GREEN, 1 YELLOW, 2 RED) and the machine. -/
def Mach.police (m : Mach) (r k n inColour : Nat) : Nat × Mach :=
  let (e, fc, fe) := m.polTokens r k
  let kind := fld 48 e 0 1
  let inc := if bit (fld 48 e 1 1) 7 then inColour else 0
  let tc := fld 48 e 16 4
  let te := fld 48 e 20 4
  let (col, tc, te) :=
    match kind with
    | 1 => if inc = 0 ∧ n ≤ tc then (0, tc - n, te) else if inc ≤ 1 ∧ n ≤ te then (1, tc, te - n) else (2, tc, te)
    | 2 => if inc = 2 ∨ te < n then (2, tc, te) else if inc = 1 ∨ tc < n then (1, tc, te - n) else (0, tc - n, te - n)
    | _ => (inColour, tc, te)
  let e := setFld 48 (setFld 48 e 16 4 tc) 20 4 te
  let off := 24 + 8 * col
  (col, m.polSet r k (setFld 48 e off 8 (fld 48 e off 8 + 1)) fc fe)

/-- Stage of the policer at release: whether the packet goes on, and with what DSCP. -/
def Mach.policed (m : Mach) (c : ModeCtl) (p : Nat) (x : Pkt) : Option Pkt × Mach :=
  match x.w.pol with
  | none => (some x, m)
  | some k =>
    let v := x.verdict.getD 0
    let (col, m) := m.police x.reach (k % 16384) (x.data.length + 4) (if vFlag v 2 then min 2 (bits (fld 32 v 6 1) 7 6) else 0)
    let e := m.ent O.polTable x.reach (k % 16384)
    if col = 2 ∧ bit (fld 48 e 1 1) 6 then (none, m.drop c p x 0x61)
    else
      let d := if col = 1 then fld 48 e 2 1 else if col = 2 then fld 48 e 3 1 else 0xFF
      (some (if d = 0xFF then x else { x with w := { x.w with dscp := some d } }), m)

/-! Release (R332). -/

/-- A packet goes on from its lane: copied to the host, punted (each under the REASON of its result, R228), or enqueued with its cell handed to the VOQ set (R448). -/
def Mach.goOn (m : Mach) (c : ModeCtl) (p : Nat) (x : Pkt) : Mach :=
  let r := x.reach
  let m := match x.w.copy with
    | some ref => if m.puntOn then m.puntOf c x (resF x.res 9 1) ref else m
    | none => m
  if x.w.dest / 2 ^ 28 = 3 then m.punt c p x (resF x.res 9 1) x.w.ref 0x20
  else
    let f := fnNum .voq r
    if m.fst f = .faulted then (m.met f).drop c p x 0x80
    else
      let m := if m.fst f = .running then m else m.met f
      let h := m.handTo c x 17
      let y := { x with voqd := true }
      if !h.1 then h.2.handFail c p x
      else if x.w.dest / 2 ^ 28 = 4 then h.2.mcastPut c p y
      else h.2.unicastPut c p y

/-- LANE_RELEASE: the head of a lane leaves when its stateless result is final and its verdict, if it asked for one, has come. -/
def Mach.laneRelease (m : Mach) (c : ModeCtl) (r lane : Nat) : Mach :=
  match mget [] m.dp.lanes (4096 * r + lane) with
  | [] => m
  | p :: _ =>
    match m.pkt p with
    | none => m
    | some x =>
      if x.stage ≠ .ready ∨ (x.query.isSome ∧ x.verdict = none) then m
      else
        let y := { x with lane := none, query := none }
        let m := (m.leaveLane p x).setPkt p (some y)
        match m.policed c p y with
        | (none, m) => m
        | (some z, m) => m.goOn c p z

/-! Channels (R442 to R445, R454). -/

/-- PTP message of a packet: its offset and carrier. -/
def ptpOf (x : Pkt) : Option (Nat × Nat) :=
  match ptpKind x with
  | none => none
  | some _ =>
    let et := oct x.data (etherOff x.data) 2
    (ptpAt x.data).map fun a => (a, if et = 0x88F7 then 0 else if et = 0x0800 then 1 else 2)

/-- The copy of a packet that a VOQ sends. -/
def copyOf (p : Nat) (x : Pkt) (v : VRef) (n : Nat) : Copy :=
  let word := if v.mirror then (match x.w.mirror with | some (_, w) => w | none => 0) else x.w.dest
  { kind := if v.mirror then 1 else if n < 8192 then 0 else 2, src := p, inReach := x.reach, chan := flowChan x.hash, inPort := x.bport, inLif := x.lif,
    lif := if n < 8192 then word % 8192 else 1024 * voqReach n, rw := if n < 8192 then word / 8192 % 32768 else 0, tc := n % 8, data := x.data, res := x.res,
    dscp := x.w.dscp, ecn := v.ecn, verdict := x.verdict.getD 0, stamp := x.stamp, flexe := x.flexe, group := x.w.dest % 65536, voq := n, ptp := ptpOf x,
    tag := 0, cell := none, waited := false, late := false }

/-- VOQs of reach i that can send on channel ch: credit above 0, and a head pinned to the channel. -/
def Mach.chanReady (m : Mach) (ch : Nat) : List Nat :=
  let i := ch / 32
  let e := ch / 4 % 8
  (m.voqsOf i).filter fun n =>
    decide (voqReach n = e ∧ 0 < (m.voq i n).credit) && !(decide (n < 8192) && decide (mget 0 (m.rch i).view (n / 8) = 0)) &&
      (match (m.voq i n).q with
       | v :: _ => (match m.pkt v.pkt with | some x => decide (m.chanFor i e (flowChan x.hash) = ch) | none => false)
       | [] => false)

/-- Equivalent cycle in ps of the tile at a channel's sending end (R442): that of its channel set, or the slowest of the reach; 370 while none is measured. -/
def Mach.chanCycle (m : Mach) (ch : Nat) : Nat :=
  let t := match chanSet ch with
    | some k => m.rd O.tilePaceEq (blkTile .chset k)
    | none => (List.range 24).foldl (fun a j => max a (m.rd O.tilePaceEq (24 * (ch / 32) + j))) 0
  if t = 0 then 370 else t

/-- Data that has waited at the sending end of a channel since a time, counted in its cycles; a cycle is counted once, however much data waits in it (CH-WAITS). -/
def Mach.chanWait (m : Mach) (ch since : Nat) : Mach :=
  let h := m.chan ch
  let t := max since h.waited
  if m.ns ≤ t then m else (m.setChan ch { h with waited := m.ns }).bump O.chWaits ch ((m.ns - t) * 1000 / m.chanCycle ch)

/-- CHANNEL_SEND (R442, R444): once its data path is free, the highest class, then VOQs in rotation after the one last chosen. What could be sent has waited
since it could (CH-WAITS). -/
def Mach.channelSend (m : Mach) (c : ModeCtl) (ch : Nat) : Mach :=
  let i := ch / 32
  let e := ch / 4 % 8
  if !m.running .voq i || !m.chanOpen ch then m
  else
    let ready := m.chanReady ch
    let top := ready.foldl (fun a n => max a (n % 8)) 0
    let best := ready.filter fun n => decide (n % 8 = top)
    let h := m.chan ch
    match best.filter (fun n => decide (h.last < n)) ++ best with
    | [] => m
    | n :: _ =>
      let m := { m with com.frc := max m.com.frc h.busy }
      let m := m.chanWait ch (ready.foldl (fun a n => min a ((m.voq i n).readyAt.getD m.ns)) m.ns)
      match m.voqPop i n with
      | none => m
      | some (v, m) =>
        match m.pkt v.pkt with
        | none => m
        | some x =>
          let size := x.data.length + 4
          let q := m.voq i n
          let m := m.setVoq i n { q with credit := q.credit - size }
          let h := m.chan ch
          let m := (m.setChan ch { h with
            flight := h.flight ++ [{ copyOf v.pkt x v n with sent := m.ns }]
            last := n
            busy := m.com.frc + (size + 16 + 383) / 384 * m.chanCycle ch * 65536 / 1000 }).bump O.chOctets ch (size + 16)
          let y := { x with refs := x.refs - 1, done := if v.mirror || decide (8192 ≤ n) then e :: x.done else x.done }
          (m.voqLeft i n).pktSettle c v.pkt y

/-! Request and grant (R452 to R454). -/

/-- VOQ_REQUEST_ARRIVAL: the egress reach holds one pending flag for each ingress reach and VOQ. -/
def Mach.requestArrival (m : Mach) (e : Nat) : Mach :=
  match m.takeMsg (chansTo e) (fun x => match x with | .request .. => true | _ => false) with
  | some (.request i n p, m) => { m with dp.flags := mset false m.dp.flags (8256 * i + n) p }
  | _ => m

/-- OUT of a VOQ number: credit granted that has neither arrived nor been returned. -/
def Mach.outOf (m : Mach) (n : Nat) : Int := (List.range 8).foldl (fun a i => a + mget 0 m.dp.out (8 * n + i)) 0

/-- OUT towards an ingress reach lowered by octets that arrive or are returned (R454). It may fall below 0, as the credit of a VOQ may. OUT of a port
that is DOWN stays as the port's entry to DOWN set it (Table 14.6). -/
def Mach.outLower (m : Mach) (i n k : Nat) : Mach :=
  if n < 8192 ∧ m.rd O.bpLinkState (n / 8) = 0 then m
  else { m with dp.out := mset 0 m.dp.out (8 * n + i) (mget 0 m.dp.out (8 * n + i) - k) }

/-- Octets of multicast packets received and not yet replicated at an egress reach. -/
def Mach.replOcc (m : Mach) (e : Nat) : Nat :=
  let h := m.rch e
  octsIn h.mcq + (match h.repl with | some x => x.copy.data.length + 4 | none => 0)

/-- Whether a pair is eligible for a grant (R453). -/
def Mach.grantable (m : Mach) (e n : Nat) : Bool :=
  let size := m.rd O.gntSize
  (List.range 8).any (fun i => mget false m.dp.flags (8256 * i + n)) &&
    if n < 8192 then
      m.linkSends (n / 8) && decide (m.fst (fnNum .egress (n / 8)) ≠ .faulted) &&
        decide ((m.eqOcc (n / 8) (n % 8) : Int) + m.outOf n + size ≤ 1024 * m.ent O.gntWindow 0 n)
    else decide ((List.range 8).foldl (fun a c => a + m.outOf (8192 + 8 * e + c)) (m.replOcc e : Int) + size ≤ 1024 * m.rd O.mcWindow)

/-- GRANT_ISSUE: the next eligible pair in rotation over the reach's ports and classes and then its multicast classes, to the next pending
ingress reach of that pair. -/
def Mach.grantIssue (m : Mach) (e : Nat) : Mach :=
  let h := m.rch e
  let want := (m.dp.flags.map fun p => p.1 % 8256).filter fun n => decide (voqReach n = e)
  let el := ((List.range 1032).map fun k => if k < 1024 then 1024 * e + k else 8192 + 8 * e + (k - 1024)).filter fun n => want.contains n && m.grantable e n
  match el.filter (fun n => decide (h.gntRot ≤ n)) ++ el with
  | [] => m
  | n :: _ =>
    let k := mget 0 m.dp.gnt n
    match ((List.range 8).map fun j => (k + j) % 8).find? fun i => mget false m.dp.flags (8256 * i + n) with
    | none => m
    | some i =>
      let size := m.rd O.gntSize
      let m := m.setRch e { h with gntRot := n + 1 }
      let m := { m with dp.gnt := mset 0 m.dp.gnt n ((i + 1) % 8), dp.out := mset 0 m.dp.out (8 * n + i) (mget 0 m.dp.out (8 * n + i) + size) }
      (m.post e i (voqChan n) (.grant n size)).bump O.gntIssued e

/-- GRANT_ARRIVAL (R454, R465, R469): credit is added; a grant for a port under flush is discarded, and one that finds its VOQ empty or its
set STOPPED is returned (log entry 62). -/
def Mach.grantArrival (m : Mach) (i : Nat) : Mach :=
  match m.takeMsg (chansTo i) (fun x => match x with | .grant .. => true | _ => false) with
  | some (.grant n k, m) =>
    if n < 8192 ∧ mget 0 (m.rch i).view (n / 8) = 0 then m
    else
      let v := m.voq i n
      let m := m.setVoq i n { v with credit := v.credit + k }
      if m.fst (fnNum .voq i) = .stopped then m.voqReturn i n else m.voqLeft i n
  | _ => m

/-- CREDIT_RETURN (R454). -/
def Mach.creditReturn (m : Mach) (e : Nat) : Mach :=
  match m.takeMsg (chansTo e) (fun x => match x with | .ret .. => true | _ => false) with
  | some (.ret i n k, m) => m.outLower i n k
  | _ => m

/-! Arrival (R457) and multicast (R458 to R461). -/

/-- The transit of a channel in ns (R442). -/
def chanTransit (n : Nat) : Nat := if chanSet n = none then 10 else 40

/-- A DONE to the ingress reach of a packet. -/
def Mach.postDone (m : Mach) (e : Nat) (x : Copy) : Mach := m.post e x.inReach x.chan (.done x.src e)

/-- A member of a group at an egress reach, by its position. -/
def Mach.mcMemberAt (m : Mach) (e group k : Nat) : Nat := m.ent O.mcMember e (fld 8 group 0 4 + k)

/-- Whether a position holds a member that PRUNE does not skip. -/
def Mach.mcLive (m : Mach) (e group k inLif : Nat) : Bool :=
  let w := m.mcMemberAt e group k
  bit w 31 && !(bit (fld 8 group 6 1) 1 && decide (w % 8192 = inLif))

/-- The flare record of refused members (R461, Table 17.7). -/
def Mach.mcFlare (m : Mach) (c : ModeCtl) (e group g inLif cls refused : Nat) (beyond : Bool) : Mach :=
  if bit (fld 8 group 6 1) 0 && (refused != 0 || beyond) then
    m.flAppend c (4 * (e / 2))
      { kind := 3, tid := 321, data := octets 25 (pack [(8, m.adjMs), (2, g), (4, inLif), (1, cls), (1, e), (8, refused), (1, ofB beyond)]) }
  else m

/-- A refused member counted (R460). -/
def Mach.mcRefuse (m : Mach) (c : ModeCtl) (e w cls : Nat) : Mach := (m.rsn c 0x52 (m.lifPort (w % 8192)) cls).bump O.mcRefused e

/-- Every member of a group at an egress reach refused (R459, R460). -/
def Mach.mcRefuseAll (m : Mach) (c : ModeCtl) (e g inLif cls : Nat) : Mach :=
  let group := m.ent O.mcGroup e g
  let live := (List.range (fld 8 group 4 2)).filter fun k => m.mcLive e group k inLif
  let m := live.foldl (fun m k => m.mcRefuse c e (m.mcMemberAt e group k) cls) m
  m.mcFlare c e group g inLif cls ((live.filter (· < 64)).foldl (fun a k => a + 2 ^ k) 0) (live.any fun k => decide (64 ≤ k))

/-- EGRESS_ARRIVAL (R443, R457): the next channel in rotation that holds data delivers its oldest packet. Past its transit it has waited at the sending end. -/
def Mach.egressArrival (m : Mach) (c : ModeCtl) (e : Nat) : Mach :=
  let h := m.rch e
  match ((List.range 32).map fun j => (h.rxRot + j) % 32).find? fun j => !(m.chan (chanNum (j / 4) e (j % 4))).flight.isEmpty with
  | none => m
  | some j =>
    let n := chanNum (j / 4) e (j % 4)
    match (m.chan n).flight with
    | [] => m
    | x :: t =>
      let m := (m.setChan n { m.chan n with flight := t }).setRch e { h with rxRot := (j + 1) % 32 }
      let m := (m.outLower x.inReach x.voq (x.data.length + 4)).chanWait n (x.sent + chanTransit n)
      let b := x.voq / 8
      let done := fun (m : Mach) => if x.kind = 0 then m else m.postDone e x
      if m.isolated .reach e then done (m.rsn c 0x80 x.inPort x.tc)
      else if x.kind ≠ 2 ∧ m.rd O.bpLinkState b = 0 then done (((m.metPort b).rsn c 0x51 b x.tc).bump O.voqFlushed e)
      else
        let owner := match x.kind with | 0 => 18 + x.inReach | 1 => 44 | _ => 42
        match m.cellAlloc e (m.cellNeed e x.rw x.data.length) ⟨owner, b, x.tc⟩ with
        | (none, m) =>
          let m := m.bump O.rxRefused e
          if x.kind = 2 then done (m.mcRefuseAll c e x.group x.inLif x.tc)
          else done (m.rsn c 0x41 b x.tc)
        | (some i, m) =>
          let y := { x with cell := some i }
          if x.kind = 2 then (m.setRch e { m.rch e with mcq := (m.rch e).mcq ++ [y] }).bump O.mcReceived e
          else done (m.toQueue c y owner)

/-- SKIP_ARRIVAL (R459): every member of the group is refused and DONE is posted. -/
def Mach.skipArrival (m : Mach) (c : ModeCtl) (e : Nat) : Mach :=
  match m.takeMsg (chansTo e) (fun x => match x with | .skip .. => true | _ => false) with
  | some (.skip i p g cls, m) =>
    (match m.pkt p with
     | some x => (m.mcRefuseAll c e g x.lif cls).post e i (flowChan x.hash) (.done p e)
     | none => m)
  | _ => m

/-- One member served (R460): a copy in its egress queue, or a refusal; answers whether it was refused. -/
def Mach.mcMemberPut (m : Mach) (c : ModeCtl) (e : Nat) (x : Copy) (w : Nat) : Bool × Mach :=
  let l := w % 8192
  let b := m.lifPort l
  let rw := w / 8192 % 32768
  let len := x.data.length
  let refuse := (true, m.mcRefuse c e w x.tc)
  if m.rd O.bpLinkState b ≠ 3 then (true, (m.metPort b).mcRefuse c e w x.tc)
  else if 1024 * m.ent O.esEqLimit 0 (8 * b + x.tc) < m.eqOcc b x.tc + len + 4 then refuse
  else if m.gateNever b x.tc len then refuse
  else
    match m.cellAlloc e (m.cellNeed e rw len) ⟨eqOwner l, b, x.tc⟩ with
    | (none, m) => (true, m.mcRefuse c e w x.tc)
    | (some i, m) => (false, (m.enqueue c { x with lif := l, rw := rw, cell := some i }).bump O.mcCopies e)

/-- A replication at its end (R461): the cell of owner 42 freed, the flare record made, DONE posted. -/
def Mach.mcEnd (m : Mach) (c : ModeCtl) (e : Nat) (x : Repl) : Mach :=
  let m := m.setRch e { m.rch e with repl := none }
  let m := match x.copy.cell with
    | some i => m.cellFree c e i 42
    | none => m
  (m.mcFlare c e x.group x.copy.group x.copy.inLif x.copy.tc x.refused x.beyond).postDone e x.copy

/-- MC_REPLICATE (R460): the next member of the packet under replication, or of the oldest that waits, is served. -/
def Mach.mcReplicate (m : Mach) (c : ModeCtl) (e : Nat) : Mach :=
  let h := m.rch e
  let cur := match h.repl with
    | some x => some (x, h.mcq)
    | none => match h.mcq with
      | x :: t => some (({ copy := x, group := m.ent O.mcGroup e x.group } : Repl), t)
      | [] => none
  match cur with
  | none => m
  | some (x, rest) =>
    let m := m.setRch e { h with mcq := rest, repl := some x }
    let count := fld 8 x.group 4 2
    match (List.range count).find? fun k => decide (x.next ≤ k) && m.mcLive e x.group k x.copy.inLif with
    | none => m.mcEnd c e x
    | some k =>
      let (no, m) := m.mcMemberPut c e x.copy (m.mcMemberAt e x.group k)
      let y := { x with
        next := k + 1, refused := if no ∧ k < 64 then x.refused + 2 ^ k else x.refused, beyond := x.beyond || (no && decide (64 ≤ k)) }
      if k + 1 = count then m.mcEnd c e y else m.setRch e { m.rch e with repl := some y }

/-- DONE_ARRIVAL (R461): the cell is freed at the last DONE. -/
def Mach.doneArrival (m : Mach) (c : ModeCtl) (i : Nat) : Mach :=
  match m.takeMsg (chansTo i) (fun x => match x with | .done .. => true | _ => false) with
  | some (.done p e, m) =>
    (match m.pkt p with
     | some x => m.pktSettle c p { x with done := x.done.erase e }
     | none => m)
  | _ => m

/-! Port states (R447, R467 to R469). -/

/-- The eight VOQs of a port flushed under 0x51, each packet meeting its port group (R125); credit is discarded without a RETURN. -/
def Mach.voqFlush (m : Mach) (c : ModeCtl) (r b : Nat) : Mach :=
  (List.range 8).foldl (fun m k =>
    let n := 8 * b + k
    let v := m.voq r n
    let m := v.q.foldl (fun m (x : VRef) =>
      match m.voqPop r n with
      | some (_, m) => (((m.refGone c r n x.pkt).metPort b).rsn c 0x51 b k).bump O.voqFlushed r
      | none => m) m
    (m.setVoq r n { m.voq r n with credit := 0 }).voqSettle r n) m

/-- PORT_STATE_ARRIVAL: the view changes at the arrival; DOWN begins the flush. -/
def Mach.portStateArrival (m : Mach) (c : ModeCtl) (r : Nat) : Mach :=
  match m.takeMsg (chansTo r) (fun x => match x with | .portState .. => true | _ => false) with
  | some (.portState b s, m) =>
    let h := m.rch r
    let m := m.setRch r { h with view := mset 0 h.view b s }
    if s = 0 then m.voqFlush c r b else m
  | _ => m

/-- VOQ_DROP_DEQUEUE (R465): a set stopped under DROP drops one head packet, in rotation over its VOQs; it is counted against the egress port,
a multicast one against the ingress port. -/
def Mach.voqDrop (m : Mach) (c : ModeCtl) (r : Nat) : Mach :=
  let f := fnNum .voq r
  if !(m.fst f = .stopping ∨ m.fst f = .stopped) ∨ (m.fn f).disp ≠ 2 then m
  else
    let h := m.rch r
    let l := (m.voqsOf r).filter fun n => !(m.voq r n).q.isEmpty
    match l.filter (fun n => decide (h.dropRot ≤ n)) ++ l with
    | [] => m
    | n :: _ =>
      match m.voqPop r n with
      | none => m
      | some (v, m) =>
        let b := if n < 8192 then n / 8 else match m.pkt v.pkt with | some x => x.bport | none => 0
        let m := m.setRch r { m.rch r with dropRot := n + 1 }
        (((m.refGone c r n v.pkt).rsn c 0x13 b (n % 8)).bump O.voqDeqDrop r).voqLeft r n

end Sys2Proof.Machine
end

