-- ==== Sys2Proof/Machine/Port.lean ====
section
/-! DEFINITION. Breakout ports: defects, link state and its holds, auto-negotiation, pause, the per-second record and its bins, FlexE
calendars, and the start and stop of a port group (spec 06). -/

namespace Sys2Proof.Machine

/-! Defects and link state (R180, R196 to R200). -/

/-- Whether a port group's mode creates a breakout port (R180). -/
def Mach.created (m : Mach) (b : Nat) : Bool :=
  match m.rd O.pgMode (b / 8) with
  | 0 => b % 8 = 0
  | 1 => b % 4 = 0
  | 2 => b % 2 = 0
  | _ => true

/-- BP-DEFECTS (R196): what the receivers see while the group runs, the loss of the shore die's reference, and ADMIN. A number that
the mode of a running group does not create has no stated BP-DEFECTS: DESIGN CHOICE, it reads ADMIN too (log entry 22). -/
def Mach.defectsOf (m : Mach) (b : Nat) : Nat :=
  let ref := ofB (m.tb.refLost.contains (b / 128))
  if m.running .pgroup (b / 8) && m.created b then
    (m.port b).defects ||| ref ||| if m.rdB O.bpEnable b then 0 else 2 ^ 24
  else ref ||| 2 ^ 24

/-- Defects present for a port: its own, and on the group port those of a FlexE group's members that act there (R192, R196). -/
def Mach.linkDefects (m : Mach) (b : Nat) : Nat :=
  let n := b / 8
  let own := m.defectsOf b
  if b % 8 = 0 then
    (List.range 8).foldl (fun a j => if m.flexMember (8 * n + j) then a ||| (m.defectsOf (8 * n + j) &&& 0xF0000) else a) own
  else own

/-- The lowest set bit of a word; 0xFF none. -/
def lowBit (v : Nat) : Nat := ((List.range 32).find? fun k => bit v k).getD 0xFF

/-- The cause of a port (R197). -/
def Mach.causeOf (m : Mach) (b : Nat) : Nat := lowBit (m.linkDefects b)

/-- The defects with effect "down" on a port (Table 6.4): all but FEC-DEGRADE and FLX-CAL-MISMATCH, and on a port other than 8n not the four that
take the group down. -/
def downMask (b : Nat) : Nat := if b % 8 = 0 then 0xFFEFFDFF else 0xFFE0FDFF

/-- Whether no present defect has effect "down" (R198). -/
def Mach.upCapable (m : Mach) (b : Nat) : Bool := decide (m.linkDefects b &&& downMask b = 0)

/-- The port whose holds govern a port: 8n for the members of a FlexE group (R206). -/
def Mach.holdPort (m : Mach) (b : Nat) : Nat := if m.flexMember b then b / 8 * 8 else b

/-- BP-DOWN-HOLD as it governs a port, in ns. -/
def Mach.downHold (m : Mach) (b : Nat) : Nat := 1000 * m.rd O.bpDownHold (m.holdPort b)

/-- BP-UP-HOLD as it governs a port, in ns. -/
def Mach.upHold (m : Mach) (b : Nat) : Nat := 1000 * m.rd O.bpUpHold (m.holdPort b)

/-- A LINK notification (R197). -/
def Mach.linkNote (m : Mach) (c : ModeCtl) (b : Nat) : Mach :=
  let k := m.causeOf b
  (m.setPort b { m.port b with cause := k }).note c 6 (fnNum .pgroup (b / 8)) (O.bpLinkState.key b) 0
    (pack [(2, b), (1, m.rd O.bpLinkState b), (1, k), (2, 0)])

/-- A PORT-STATE to every reach (R447). -/
def Mach.postPort (m : Mach) (b st : Nat) : Mach :=
  (List.range 8).foldl (fun m r => m.post (b / 128) r 0 (.portState b st)) m

/-- A port enters DOWN (R467, R478): its outstanding grants are forgotten and its queues flushed under 0x51. -/
def Mach.portDown (m : Mach) (c : ModeCtl) (b : Nat) : Mach :=
  let m := (List.range 64).foldl (fun m k => { m with dp.out := mset 0 m.dp.out (64 * b + k) 0 }) m
  m.egressFlush c b 0x51

/-- The link state changes (Table 6.5, R200). -/
def Mach.setLink (m : Mach) (c : ModeCtl) (b st : Nat) : Mach :=
  let old := m.rd O.bpLinkState b
  if old = st then m
  else
    let m := if old = 3 then (m.bump O.bpFlaps b).adt 34 else m
    let p := m.port b
    let p := { p with
      downAt := if st = 1 then some m.ns else none, upAt := if st = 2 then some m.ns else none, paused := if old = 3 ∧ st = 1 then [] else p.paused,
      wasUp := p.wasUp || st = 3, bwPart := true }
    let m := (((m.setPort b p).wr O.bpLinkState b st).wr O.bpLastChange b m.now).linkNote c b
    let m := m.postPort b st
    if st = 0 then m.portDown c b else if st = 2 then m.fcAll c b else m

/-- To DOWN-HOLD; with a down-hold of 0, on to DOWN at once (R199). -/
def Mach.linkLost (m : Mach) (c : ModeCtl) (b : Nat) : Mach :=
  let m := m.setLink c b 1
  if m.downHold b = 0 then m.setLink c b 0 else m

/-- To RISING; with an up-hold of 0, on to UP at once. -/
def Mach.linkBack (m : Mach) (c : ModeCtl) (b : Nat) : Mach :=
  let m := m.setLink c b 2
  if m.upHold b = 0 then m.setLink c b 3 else m

/-- A hold timer that has reached its value expires before any change of up-capability is taken (R199). -/
def Mach.holdSettle (m : Mach) (c : ModeCtl) (b : Nat) : Mach :=
  match (m.port b).downAt, (m.port b).upAt with
  | some t, _ => if m.rd O.bpLinkState b = 1 ∧ t + m.downHold b ≤ m.ns then m.setLink c b 0 else m
  | none, some t => if m.rd O.bpLinkState b = 2 ∧ t + m.upHold b ≤ m.ns then m.setLink c b 3 else m
  | none, none => m

/-- Bring a port into line with its defects: the link state, then the cause where that alone has changed (R197, R198), and what the
present second has seen (R204). A number that its group's mode does not create has no link to notify (R180). -/
def Mach.linkEval (m : Mach) (c : ModeCtl) (b : Nat) : Mach :=
  let m := m.holdSettle c b
  let st := m.rd O.bpLinkState b
  let m := if !m.created b then m
    else if m.upCapable b then (if st = 0 ∨ st = 1 then m.linkBack c b else m)
    else if st = 2 ∨ st = 3 then m.linkLost c b else m
  let k := m.causeOf b
  let p := m.port b
  let m := m.setPort b { p with sawAny := p.sawAny || k != 0xFF, sawDown := p.sawDown || (k != 0xFF && bit (downMask b) k) }
  if k = p.cause then m else if m.created b then m.linkNote c b else m.setPort b { m.port b with cause := k }

/-- The ports that a defect of a port can act on: its own, and the group port for a FlexE member. -/
def reached (b : Nat) : List Nat := if b % 8 = 0 then [b] else [b, b / 8 * 8]

/-- Whether a defect is monitored: REFCLK-LOSS always, the rest from step 2 of Table 6.2 on. -/
def Mach.monitored (m : Mach) (b k : Nat) : Bool :=
  k = 0 || (k != 24 && (m.fst (fnNum .pgroup (b / 8)) = .starting || m.running .pgroup (b / 8)))

/-! The search for alignment (R187, R188). -/

/-- The candidates of a lane after one more match: one that the match confirms at its spacing counts it, one whose position has passed is dropped, and
a match that confirms none takes a free tracker of the four. -/
def trackMatch (a : Nat) (cands : List (Nat × Nat)) (p : Nat) : List (Nat × Nat) :=
  let live := (cands.filter fun x => decide (p ≤ x.1 + a)).map fun x => if x.1 + a = p then (p, x.2 + 1) else x
  if live.any fun x => x.1 = p then live else if live.length < 4 then live ++ [(p, 1)] else live

/-- Whether a lane locks: some candidate matches at three consecutive positions, each one period after the last. -/
def laneLocks (a : Nat) (cands : List (Nat × Nat)) (ps : List Nat) : Bool :=
  match ps with
  | [] => false
  | p :: r =>
    let next := trackMatch a cands p
    next.any (fun x => decide (3 ≤ x.2)) || laneLocks a next r

/-- Whether every lane of a receiver locks, of which there is at least one. -/
def lanesLock (a : Nat) (lanes : List (List Nat)) : Bool := !lanes.isEmpty && lanes.all (laneLocks a [])

/-- F in blocks: the spacing of FlexE overhead blocks (R188). -/
def flexSpacing : Nat := 20461

/-- The PHY number of member k of a group. -/
def Mach.phyNum (m : Mach) (g k : Nat) : Nat := fld 8 (m.rd O.flxPhyNum g) k 1

/-- Whether the group number and PHY map received agree with those configured (R192). -/
def Mach.phyAgrees (m : Mach) (b : Nat) (x : DefectRep) : Bool :=
  let g := b / 8
  let nums := ((List.range 8).filter fun k => m.flexMember (8 * g + k)).map (m.phyNum g)
  decide (x.group = m.rd O.flxGroupNum g) && decide (x.phy = m.phyNum g (b % 8)) && nums.all x.phyMap.contains && x.phyMap.all nums.contains

/-- Whether what the receiver has seen raises, or clears, a defect of a port (Table 6.4): AN-TRAINING belongs to KR and CR; marker and overhead lock
are found by the search; FEC-DEGRADE follows the seconds; the FlexE defects belong to members. The rest is below what the block shows. -/
def Mach.defectIs (m : Mach) (b : Nat) (on : Bool) (x : DefectRep) : Bool :=
  let p := m.port b
  match x.bit.val with
  | 3 => m.rd O.pgMedia (b / 8) ≠ 2
  | 4 => on || lanesLock (Config.markerPeriod (m.rd O.pgMode (b / 8))).toNat x.lanes
  | 9 => if on then decide (m.rd O.fecDegSecs ≤ p.degUp) else decide (m.rd O.fecDegSecs ≤ p.degDown)
  | 16 => m.flexMember b &&
    (on || (decide (x.lanes.length = if m.rd O.pgMode (b / 8) = 3 then 2 else 1) && lanesLock flexSpacing x.lanes && decide (8 ≤ x.after)))
  | 17 => m.flexMember b && (on || (decide (32 ≤ x.after) && !bit p.defects 16))
  | 18 => m.flexMember b && (m.phyAgrees b x != on)
  | 19 => m.flexMember b && (if on then decide (1000 < x.skew) else decide (x.skew ≤ 900))
  | _ => true

/-- The moment from which an auto-negotiation without success counts (R186), as a defect comes or goes: with no signal on a lane none, and else the
moment signal is present again, 1 ms before LOS clears. -/
def Mach.anFrom (m : Mach) (b k : Nat) (on : Bool) : Option Nat :=
  let p := m.port b
  match k, on with
  | 3, true => if bit p.defects 1 then none else some m.ns
  | 1, true => none
  | 1, false => if bit p.defects 3 then some (m.ns - 1000000) else p.anAt
  | _, _ => p.anAt

/-- FLX-CAL-MISMATCH of a group follows its clients (R195). -/
def Mach.flexEval (m : Mach) (c : ModeCtl) (g : Nat) : Mach :=
  let p := m.port (8 * g)
  let wrong := (List.range 64).any (m.clientWrong g)
  (m.setPort (8 * g) { p with defects := if wrong then p.defects ||| 2 ^ 20 else p.defects &&& (2 ^ 32 - 1 - 2 ^ 20) }).linkEval c (8 * g)

/-- The client identifiers that the partner's overhead announces, kept by slot as the number plus 1 (R195). -/
def Mach.flexHear (m : Mach) (g : Nat) (ids : List (Nat × Nat)) : Mach :=
  ids.foldl (fun m x => if x.1 < 320 then { m with dp.flexIds := mset 0 m.dp.flexIds (320 * g + x.1) (x.2 % 65536 + 1) } else m) m

/-- REFCLK-LOSS of a shore die comes or goes (R196, R635): its receivers run in every mode but DARK. -/
def Mach.refDefect (m : Mach) (c : ModeCtl) (d : Nat) (on : Bool) : Mach :=
  let m := { m with tb.refLost := if on then d :: m.tb.refLost.filter (· ≠ d) else m.tb.refLost.filter (· ≠ d) }
  (List.range 128).foldl (fun m j => m.linkEval c (128 * d + j)) m

/-- DEFECT_RAISE and DEFECT_CLEAR (Table 6.4). A reserved bit names no defect. A report of FLX-SKEW brings the skew measured, which is kept (R192). A
running KR or CR link that was lost restarts auto-negotiation when signal returns, which counts (R186). -/
def Mach.defect (m : Mach) (c : ModeCtl) (b : Nat) (on : Bool) (x : DefectRep) : Mach :=
  let k := x.bit.val
  let m := if k = 19 ∧ m.monitored b k ∧ m.flexMember b then m.setPort (b / 8 * 8) { m.port (b / 8 * 8) with skew := some x.skew } else m
  if !bit 0x11F03FF k || !m.monitored b k || !m.defectIs b on x then m
  else if k = 0 then m.refDefect c (b / 128) on
  else if k = 20 then (if m.rdB O.pgFlexe (b / 8) then (m.flexHear (b / 8) x.ids).flexEval c (b / 8) else m)
  else
    let p := m.port b
    let d := if on then p.defects ||| 2 ^ k else p.defects &&& (2 ^ 32 - 1 - 2 ^ k)
    let m := m.setPort b { p with defects := d, anAt := m.anFrom b k on, trained := p.trained || (k = 3 && !on) }
    let m := if k = 1 ∧ !on ∧ bit p.defects 3 ∧ p.trained then m.bump O.bpAnRestarts b else m
    (reached b).foldl (fun m b => m.linkEval c b) m

/-- DOWN_HOLD_EXPIRY (Table 6.5, R199). -/
def Mach.downExpiry (m : Mach) (c : ModeCtl) (b : Nat) : Mach :=
  match (m.port b).downAt with
  | some t => if m.rd O.bpLinkState b = 1 then ((m.reach (t + m.downHold b)).setLink c b 0).linkEval c b else m
  | none => m

/-- UP_HOLD_EXPIRY. -/
def Mach.upExpiry (m : Mach) (c : ModeCtl) (b : Nat) : Mach :=
  match (m.port b).upAt with
  | some t => if m.rd O.bpLinkState b = 2 then ((m.reach (t + m.upHold b)).setLink c b 3).linkEval c b else m
  | none => m

/-- The ports whose holds an object of a port sets: its own, or with port 8n the members of its FlexE group, whose own objects are ignored (R206). -/
def Mach.holds (m : Mach) (b : Nat) : List Nat := ((List.range 8).map (b / 8 * 8 + ·)).filter fun j => decide (m.holdPort j = b)

/-- BP_HOLD_WRITE (R199): a running timer that has reached the new value expires at the write. -/
def Mach.holdWrite (m : Mach) (c : ModeCtl) (b : Nat) (up : Bool) (v : Nat) : Mach :=
  let m := (m.wr (if up then O.bpUpHold else O.bpDownHold) b v).st .ok
  (m.holds b).foldl (fun m j =>
    match (if up then (m.port j).upAt else (m.port j).downAt) with
    | some t => if t + 1000 * v ≤ m.ns then (if up then m.upExpiry c j else m.downExpiry c j) else m
    | none => m) m

/-- BP_ENABLE_WRITE. -/
def Mach.enableWrite (m : Mach) (c : ModeCtl) (b v : Nat) : Mach := ((m.wr O.bpEnable b v).st .ok).linkEval c b

/-- AN_RESTART (R186): 3,000 ms without success. The restart that comes with the return of signal counts where that signal returns. -/
def Mach.anRestart (m : Mach) (b : Nat) : Mach :=
  match (m.port b).anAt with
  | some t =>
    if bit (m.defectsOf b) 3 then
      let m := m.reach (t + 3000000000)
      (m.setPort b { m.port b with anAt := some m.ns }).bump O.bpAnRestarts b
    else m
  | none => m

/-! Pause and PFC (R202, R203). -/

/-- PAUSE_RX: a MAC control frame of 64 octets that the PCS delivers. -/
def Mach.pauseRx (m : Mach) (c : ModeCtl) (b opcode enable : Nat) (quanta : List Nat) : Mach :=
  if !m.pcsDelivers b then m
  else if m.corrupts b then (m.wireIn b 60).fcsFail c b
  else ((m.wireIn b 60).frameCnt c b 0 60 0x0180C2000001).pauseIn c b (m.portRate b) opcode enable quanta

/-- PAUSE_EXPIRY: the quanta of a class, or of the port, have run out. -/
def Mach.pauseExpiry (m : Mach) (b c : Nat) : Mach :=
  let k := if (mget none (m.port b).paused c).isSome then c else 8
  match mget none (m.port b).paused k with
  | some u =>
    let m := m.reach u
    m.setPort b { m.port b with paused := mset none (m.port b).paused k none }
  | none => m

/-- BP-TX-PAUSED. -/
def Mach.txPaused (m : Mach) (b : Nat) : Nat :=
  (m.port b).paused.foldl (fun a p => match p.2 with | some u => if m.ns < u then a + 2 ^ p.1 else a | none => a) 0

/-- XOFF_REFRESH: the frame is sent again BP-PAUSE-REFRESH quanta after the last while the occupancy stays above BP-XON, the mode
asks for it and the link state lets a frame start. -/
def Mach.xoffRefresh (m : Mach) (c : ModeCtl) (b cls : Nat) : Mach :=
  let p := m.port b
  let k := if bit p.xoff cls then cls else 8
  let lo := 1024 * m.rd O.bpXon b
  let above := if k = 8 then (List.range 8).any fun j => decide (lo < m.ingressOcc b j) else decide (lo < m.ingressOcc b cls)
  if bit p.xoff k && above && m.linkSends b && !m.flexMember b && decide (m.rd O.bpFcMode b = if k = 8 then 1 else 2) then
    let rate := m.portRate b
    let m := m.reach (mget 0 p.xoffAt k + (m.rd O.bpPauseRefresh b * 512 + rate - 1) / rate)
    (m.setPort b { p with xoffAt := mset 0 p.xoffAt k m.ns }).pauseOut c b k (m.rd O.bpPauseQuanta b)
  else m

/-! The per-second record and bins (R204, R205). -/

/-- Class of a second: 0 error-free, 1 ES, 2 SES, 3 UAS. -/
def Mach.secClass (m : Mach) (b uncorr fcs : Nat) : Nat :=
  let p := m.port b
  if !(p.wasUp || m.rd O.bpLinkState b = 3) then 3
  else if m.rd O.pmSesUncorr ≤ uncorr ∨ p.sawDown then 2
  else if uncorr ≠ 0 ∨ fcs ≠ 0 ∨ p.sawAny then 1 else 0

/-- A second added to bin k of a port under the one class that R204 gives it; a bin opened after KINDLE begins with its first second and is PARTIAL (Table 6.6). -/
def Mach.binAdd (m : Mach) (b k start cls : Nat) (f : PmInput) (fcs : Nat) : Mach :=
  let e := m.ent O.pmBins b k
  let e := if e = 0 then setFld 64 (setFld 64 e 0 12 start) 60 1 2 else e
  let add := fun (e off n x : Nat) => setFld 64 e off n (fld 64 e off n + x)
  let e := add e 12 4 1
  let e := add e 16 4 (if cls = 1 then 1 else 0)
  let e := add e 20 4 (if cls = 2 then 1 else 0)
  let e := add e 24 4 (if cls = 3 then 1 else 0)
  m.setEnt O.pmBins b k (add (add (add (add e 28 8 f.corrCw) 36 8 f.uncorrCw) 44 8 f.corrSym) 52 8 fcs)

/-- A bin closes: it is SUSPECT where its length is not nominal, the older ones move up, and a new one opens. -/
def Mach.binClose (m : Mach) (b first last nominal now : Nat) : Mach :=
  let e := m.ent O.pmBins b first
  let n := fld 64 e 12 4
  let e := if n + 1 < nominal ∨ nominal + 1 < n then setFld 64 e 60 1 (fld 64 e 60 1 ||| 1) else e
  let m := (List.range (last - first)).reverse.foldl (fun m k => m.setEnt O.pmBins b (first + k + 1) (if k = 0 then e else m.ent O.pmBins b (first + k))) m
  m.setEnt O.pmBins b first (setFld 64 0 0 12 now)

/-- The present second of a port latched and a new one begun; its start is that of the second, or of the step that began it. -/
def Mach.secLatch (m : Mach) (c : ModeCtl) (b start : Nat) (f : PmInput) : Mach :=
  let p := m.port b
  let fcs := p.fcs + f.fcsErr
  let cls := m.secClass b f.uncorrCw fcs
  let m := ((m.wr O.pmSecTime b start).wr O.pmSecCorrCw b f.corrCw).wr O.pmSecUncorrCw b f.uncorrCw
  let m := ((m.wr O.pmSecCorrSym b f.corrSym).wr O.pmSecFcsErr b fcs).wr O.pmSecClass b cls
  let m := (m.binAdd b 0 start cls f fcs).binAdd b 33 start cls f fcs
  let k := m.causeOf b
  m.setPort b { p with
    fcs := 0, wasUp := m.rd O.bpLinkState b = 3, sawAny := k != 0xFF, sawDown := k != 0xFF && bit (downMask b) k, secStart := none, secAt := (m.adj / 65536).toNat / 1000000000 }
    |>.pulse c (288 + b / 8) 0x42 (b % 8) f.uncorrCw

/-- FEC-DEGRADE follows the corrected symbols of consecutive seconds (Table 6.4). -/
def Mach.fecDegrade (m : Mach) (c : ModeCtl) (b sym : Nat) : Mach :=
  let p := m.port b
  let p := { p with degUp := if m.rd O.fecDegSet < sym then p.degUp + 1 else 0, degDown := if sym < m.rd O.fecDegClr then p.degDown + 1 else 0 }
  let m := m.setPort b p
  if m.rd O.fecDegSecs ≤ p.degUp ∧ !bit p.defects 9 then m.defect c b true { bit := 9 }
  else if m.rd O.fecDegSecs ≤ p.degDown ∧ bit p.defects 9 then m.defect c b false { bit := 9 } else m

/-- What the receivers of a port count: nothing while its group does not run. -/
def Mach.pmSees (m : Mach) (b : Nat) (f : PmInput) : PmInput := if m.running .pgroup (b / 8) then f else ⟨0, 0, 0, 0⟩

/-- PM_SECOND (R204, R205): at a whole second of adjusted time the record is latched, and bins close at their boundaries. -/
def Mach.pmSecond (m : Mach) (c : ModeCtl) (b : Nat) (f : PmInput) : Mach :=
  let sec : Int := 1000000000 * 65536
  let next := max ((m.port b).secAt + 1) (m.adj / sec).toNat
  let m := m.reach (m.nsWhen (next * sec))
  let f := m.pmSees b f
  let m := m.secLatch c b ((m.port b).secStart.getD (t96Of ((next - 1) * sec))) f
  let m := if m.running .pgroup (b / 8) then m.fecDegrade c b f.corrSym else m
  let m := if next % 900 = 0 then m.binClose b 0 32 900 m.now else m
  if next % 86400 = 0 then m.binClose b 33 34 86400 m.now else m

/-- A step of adjusted time closes the present second of every breakout port and the bins whose boundaries it crosses; the new second begins at the
step (R205). What the receivers have counted since the last whole second is not an operand of the step and is a free value (log entry 139). -/
def Mach.pmStep (m : Mach) (c : ModeCtl) (old : Int) : Mach :=
  let sec := fun (q : Int) => (q / (1000000000 * 65536)).toNat
  let a := sec old
  let z := sec m.adj
  ((List.range 1024).filter m.created).foldl (fun m b =>
    let f := m.pmSees b ⟨m.freeVal 32, m.freed.freeVal 32, m.freed.freed.freeVal 32, 0⟩
    let m := if m.running .pgroup (b / 8) then m.freed.freed.freed else m
    let m := m.secLatch c b ((m.port b).secStart.getD (t96Of (a * (1000000000 * 65536)))) f
    let m := m.setPort b { m.port b with secStart := some m.now }
    let m := if a / 900 ≠ z / 900 then m.binClose b 0 32 900 m.now else m
    if a / 86400 ≠ z / 86400 then m.binClose b 33 34 86400 m.now else m) m

/-! FlexE calendars (R193, R194). -/

/-- The calendar a table of a group is: 0 A, 1 B. -/
def calOf (o : ObjDef) : Nat := if o.is O.flxCalA then 0 else 1

/-- FLX_CAL_USE_WRITE: the calendar request is sent while the group runs; the value lands at once while it is STOPPED. -/
def Mach.calUse (m : Mach) (g v : Nat) : Mach :=
  if m.fst (fnNum .pgroup g) = .stopped then ((m.wr O.flxCalUse g v).wr O.flxCalActive g v).st .ok
  else (({ m.setPend O.flxCalUse g (some v) with dp.flexReq := mset none m.dp.flexReq g (some m.ns) }).emit (.calendar g v)).st .deferred

/-- FLX_CAL_SWITCH: the multiframe boundary after the partner's acknowledgement. -/
def Mach.calSwitch (m : Mach) (c : ModeCtl) (g : Nat) : Mach :=
  match m.pendOf O.flxCalUse g with
  | some v => (({ m.land c O.flxCalUse g with dp.flexReq := mset none m.dp.flexReq g none }).wr O.flxCalActive g v).flexEval c g
  | none => m

/-- FLX_CAL_TIMEOUT: no acknowledgement within FLX-CA-TIMEOUT. -/
def Mach.calTimeout (m : Mach) (c : ModeCtl) (g : Nat) : Mach :=
  match mget none m.dp.flexReq g with
  | some t =>
    let m := m.reach (t + 1000000 * m.rd O.flxCaTimeout g)
    ({ m.setPend O.flxCalUse g none with dp.flexReq := mset none m.dp.flexReq g none }).note c 2 0xFFFF (O.flxCalUse.key g) Status.busy.code 0
  | none => m

/-! The port group function (R181 to R183). -/

/-- The ports of a group. -/
def groupPorts (n : Nat) : List Nat := (List.range 8).map (8 * n + ·)

/-- START accepted (R181): ports that the mode does not create are flushed at once; the receivers come on with no lane locked, and with
training to run for KR and CR, and no instance of a FlexE member has overhead or multiframe lock (log entry 63). -/
def Mach.groupStarting (m : Mach) (c : ModeCtl) (n : Nat) : Mach :=
  (groupPorts n).foldl (fun m b =>
    let p := m.port b
    if m.created b then
      m.setPort b { p with defects := 20 + (if m.rd O.pgMedia n = 2 then 0 else 8) + if m.flexMember b then 0x30000 else 0 }
    else if m.rd O.bpLinkState b = 0 then (m.portDown c b).postPort b 0
    else m.setLink c b 0) m

/-- RUNNING: the created ports stand in DOWN and await link (Table 6.2). -/
def Mach.groupRunning (m : Mach) (c : ModeCtl) (n : Nat) : Mach :=
  (groupPorts n).foldl (fun m b =>
    if m.created b then
      let p := m.port b
      ((m.setPort b { p with anAt := if bit p.defects 3 && !bit p.defects 1 then some m.ns else none }).setLink c b 0).linkEval c b
    else m) m

/-- STOP accepted, or the function FAULTED: every port of the group ceases to be up-capable, with cause ADMIN. -/
def Mach.groupStopping (m : Mach) (c : ModeCtl) (n : Nat) : Mach := (groupPorts n).foldl (fun m b => m.linkEval c b) m

/-- The tile is off: no defect but REFCLK-LOSS is monitored (R196). -/
def Mach.groupOff (m : Mach) (c : ModeCtl) (n : Nat) : Mach :=
  (groupPorts n).foldl (fun m b =>
    let p := m.port b
    (m.setPort b { p with defects := 0, anAt := none, trained := false, skew := none, degUp := 0, degDown := 0, xoff := 0, xoffAt := [] }).linkEval c b)
    { m with dp.flexIds := m.dp.flexIds.filter fun p => decide (p.1 / 320 ≠ n) }

/-- Every port of an isolated group is DOWN (Table 20.3). -/
def Mach.groupDown (m : Mach) (c : ModeCtl) (n : Nat) : Mach := (groupPorts n).foldl (fun m b => m.setLink c b 0) (m.groupOff c n)

end Sys2Proof.Machine
end

