-- ==== Sys2Proof/Machine/Telemetry.lean ====
section
/-! DEFINITION. General event counters, bandwidth windows and the flare collectors (R522 to R525, R529 to R532). -/

namespace Sys2Proof.Machine

/-! General event counters. -/

/-- Operand of a kind of event that is a condition: whether it holds (Table 17.4); none for a pulse. The packet entries of an in-flight table are the 3,840
that packet operations may hold, whatever operation holds them: DEDUCED (R335, log entry 124). -/
def Mach.gecCond (m : Mach) (c : ModeCtl) (s : Nat) : Option Bool :=
  let arg := bits s 15 0
  let n := (tileBlk (bits s 47 32)).2
  match bits s 31 24 with
  | 0x01 => some (decide (1024 * m.rd O.ppcShedAt (8 * n + arg % 8) ≤ m.octsOf (m.rch n).fifo))
  | 0x02 => some (decide (768 ≤ m.ctxBusy n))
  | 0x03 => some (decide (131072 ≤ m.handles n))
  | 0x04 => some (decide (4096 ≤ (m.rch n).water.length))
  | 0x06 => some (decide (1024 * arg ≤ m.holdOcc n))
  | 0x10 => some (m.freeEntry n true).isNone
  | 0x11 => some (decide (m.crbTok c n < 1000000000))
  | 0x20 => some (m.ctxNum c n).isNone
  | 0x21 => some (decide (8192 ≤ ((m.slu n).flow.filter fun x => !x.flag 7).length))
  | 0x30 => some (decide (128 ≤ (m.pc (64 * n + arg % 64)).q.length))
  | 0x31 => some (m.srCommitted (32 * n + arg % 64 / 2))
  | 0x40 => some (decide (m.rd O.bpLinkState (8 * n + arg % 8) ≠ 3))
  | 0x41 => some (decide (m.txPaused (8 * n + arg % 8) ≠ 0))
  | 0x50 =>
    let (i, j) := chsetDies n
    some (!(m.chanReady (chanNum (2 * i + arg % 16 / 8) (2 * j + arg % 8 / 4) (arg % 4))).isEmpty)
  | 0x60 => some (decide (128 ≤ m.clk.engineQ.length))
  | _ => none

/-- The span in which a selected condition holds as long as only time goes on (R523): from now where it holds, up to the time that ends it where one does,
or from the time that will begin it. One that time does not change holds from now without end, or in an empty span. -/
def Mach.gecSpan (m : Mach) (c : ModeCtl) (s : Nat) : GecSpan :=
  let arg := bits s 15 0
  let n := (tileBlk (bits s 47 32)).2
  let start := fun a => (⟨a, none, m.ns⟩ : GecSpan)
  let stop := fun a => (⟨m.ns, some a, m.ns⟩ : GecSpan)
  match m.gecCond c s with
  | some true =>
    match bits s 31 24 with
    | 0x11 =>
      let rate := m.crbEffective c n
      if rate = 0 ∨ m.rd O.crbBurst n = 0 then start m.ns else stop (m.ns + (1000000000 - m.crbTok c n + rate - 1) / rate)
    | 0x41 => stop ((m.port (8 * n + arg % 8)).paused.foldl (fun a p => max a (p.2.getD 0)) m.ns)
    | _ => start m.ns
  | some false =>
    let k := 32 * n + arg % 64 / 2
    if bits s 31 24 = 0x31 ∧ (m.hchan k).sr = 1 then start ((m.hchan k).srAt + 40) else stop m.ns
  | none => stop m.ns

/-- Whether a span holds a moment. -/
def GecSpan.holds (x : GecSpan) (t : Nat) : Bool := decide (x.start ≤ t) && (match x.stop with | some u => decide (t < u) | none => true)

/-- Nanoseconds of a span up to a moment that have not been taken. -/
def GecSpan.level (x : GecSpan) (t : Nat) : Nat := min t (x.stop.getD t) - max x.start x.seen

/-- Changes to true up to a moment that have not been taken: the one that time brought, and the one that a command brought where the condition holds now. -/
def GecSpan.edges (x : GecSpan) (t : Nat) (now : Bool) : Nat :=
  ofB (decide (x.seen < x.start ∧ x.start ≤ t)) + ofB (now && !x.holds t)

/-- One general counter brought up to now (R523): each change of its condition to true counts for EDGE, and the ns it held count for LEVEL. The first look
at a condition counts nothing. -/
def Mach.gecOne (m : Mach) (c : ModeCtl) (g : Nat) : Mach :=
  let s := m.rd O.gecSelect g
  let y := m.gecSpan c s
  let old := mget none m.dp.gec g
  let m := { m with dp.gec := mset none m.dp.gec g (some y) }
  match old, bits s 23 16 with
  | some x, 1 => if x.edges m.ns (y.holds m.ns) = 0 then m else m.gecAdd c g (x.edges m.ns (y.holds m.ns))
  | some x, 2 => if x.level m.ns = 0 then m else m.gecAdd c g (x.level m.ns)
  | _, _ => m

/-- Every general counter brought up to now; in BANKED none counts (R518). -/
def Mach.gecSettle (m : Mach) (c : ModeCtl) : Mach := if c.mode = .banked then m else m.gecOn.foldl (fun m g => m.gecOne c g) m

/-- GEC_SELECT_WRITE (R522): the selection acts at once and VALUE stays; the condition selected is looked at and counts from here. -/
def Mach.gecWrite (m : Mach) (c : ModeCtl) (g v : Nat) : Mach :=
  { (m.wr O.gecSelect g v).st .ok with dp.gec := mset none m.dp.gec g (some (m.gecSpan c v)) }

/-! Bandwidth windows (R525). -/

/-- BW_WINDOW_END: the open window of a port closes at the next whole multiple of its length in FRC. START is the adjusted time at which it began, by the
mapping then in force. -/
def Mach.bwEnd (m : Mach) (b : Nat) : Mach :=
  let p := m.port b
  let len := 1000 * p.bwLen
  let from_ := p.bwAt.getD m.dp.bwFirst.1
  let m := m.reach ((from_ / len + 1) * len)
  let new := m.rd O.bwWindow
  let part := p.bwPart || m.rd O.bpLinkState b != 3 || new != p.bwLen || from_ % len != 0
  let m := m.setEnt O.bw 0 b (pack [(12, p.bwStart.getD m.dp.bwFirst.2), (8, p.bwRx), (8, p.bwTx), (1, ofB part), (3, 0)])
  let next := m.ns / len * len
  m.setPort b { p with bwRx := 0, bwTx := 0, bwPart := false, bwLen := new, bwAt := some next, bwStart := some (t96Of (m.adjAt (next * 65536))) }

/-! IPFIX (R527 to R530). -/

/-- A field of a template: IPFIX element, octets, and the enterprise it belongs to where there is one. -/
abbrev FlSpec := Nat × Nat × Option Nat

/-- Fields of bit k of a flow template (Table 17.6); reverse elements stand under the enterprise number of RFC 5103. -/
def flowSpecs (pen k : Nat) (v4 : Bool) : List FlSpec :=
  match k with
  | 0 => if v4 then [(8, 4, none)] else [(27, 16, none)]
  | 1 => if v4 then [(12, 4, none)] else [(28, 16, none)]
  | 2 => [(4, 1, none)]
  | 3 => [(7, 2, none)]
  | 4 => [(11, 2, none)]
  | 5 => [(86, 8, none)]
  | 6 => [(85, 8, none)]
  | 7 => [(86, 8, some 29305)]
  | 8 => [(85, 8, some 29305)]
  | 9 => [(150, 4, none)]
  | 10 => [(151, 4, none)]
  | 11 => [(136, 1, none)]
  | 12 => (if v4 then [(225, 4, none), (226, 4, none)] else [(281, 16, none), (282, 16, none)]) ++ [(227, 2, none), (228, 2, none)]
  | 13 => [(10, 4, none)]
  | 14 => [(1, 2, some pen)]
  | 15 => [(2, 1, some pen)]
  | 16 => [(3, 1, some pen)]
  | 17 => [(4, 1, some pen)]
  | _ => [(5, 4, some pen)]

/-- Fields of a template ID (R527, Table 17.7); a record appended before the last write of its template has the mask of then. -/
def Mach.specsOf (m : Mach) (tid : Nat) : List FlSpec :=
  let pen := Config.flPen.toNat
  match tid with
  | 320 => [(323, 8, none), (27, 16, none), (28, 16, none), (4, 1, none), (7, 2, none), (11, 2, none), (1, 2, some pen), (6, 1, some pen), (7, 1, some pen)]
  | 321 => [(323, 8, none), (8, 2, some pen), (10, 4, none), (9, 1, some pen), (10, 1, some pen), (11, 8, some pen), (12, 1, some pen)]
  | 322 => [(323, 8, none), (13, 8, some pen), (14, 8, some pen), (15, 8, some pen), (16, 8, some pen), (17, 8, some pen)]
  | _ =>
    let k := (tid - 256) / 4 % 16
    let mask := if m.entF O.flTemplate 0 k 4 1 % 2 = tid / 2 % 2 then m.entF O.flTemplate 0 k 0 4 else mget 0x6FFF m.dp.oldMask k
    (List.range 19).flatMap fun j => if bit mask j then flowSpecs pen j (tid % 2 = 1) else []

/-- A template record. -/
def Mach.templateRec (m : Mach) (tid : Nat) : List Byte :=
  let l := m.specsOf tid
  octets 2 tid ++ octets 2 l.length ++ l.flatMap fun f =>
    match f.2.2 with
    | none => octets 2 f.1 ++ octets 2 f.2.1
    | some pen => octets 2 (32768 + f.1) ++ octets 2 f.2.1 ++ octets 4 pen

/-- A set of an IPFIX message. -/
def ipfixSet (id : Nat) (body : List Byte) : List Byte := octets 2 id ++ octets 2 (body.length + 4) ++ body

/-- An IPFIX message of version 10 from die d to a collector (R530). -/
def Mach.ipfix (m : Mach) (k d : Nat) (sets : List Byte) : List Byte :=
  octets 2 10 ++ octets 2 (sets.length + 16) ++ octets 4 ((m.adj / 65536).toNat / 1000000000) ++ octets 4 (mget 0 (m.col k).seq d)
    ++ octets 4 (m.rd O.flOdid + d) ++ sets

/-- Template records in runs that fit a number of octets. -/
def chunk (room : Nat) : List (List Byte) → List Byte → List (List Byte)
  | [], cur => if cur.isEmpty then [] else [cur]
  | t :: r, cur => if cur.isEmpty ∨ cur.length + t.length ≤ room then chunk room r (cur ++ t) else cur :: chunk room r t

/-! Collectors (R529 to R532). -/

/-- Whether a collector's addresses are IPv4-mapped. -/
def Mach.colV4 (m : Mach) (k : Nat) : Bool := decide (m.rd O.flColDaddr k / 2 ^ 32 = 0xFFFF)

/-- FRAME-LEN of a message to a collector. -/
def Mach.colFrameLen (m : Mach) (k n : Nat) : Nat := n + (if m.colV4 k then 42 else 62)

/-- A UDP datagram to a collector in an Ethernet frame between MAC addresses `mac`, from address sa: TTL 64, DSCP 0 and a checksum (R529). -/
def Mach.colUdp (m : Mach) (k : Nat) (mac : List Byte) (sa : Nat) (msg : List Byte) : List Byte :=
  let udp := octets 2 (m.rd O.flColSport k) ++ octets 2 (m.rd O.flColDport k) ++ octets 2 (msg.length + 8)
  let da := m.rd O.flColDaddr k
  let n := if m.colV4 k then 4 else 16
  let s := onesSum (octets n sa ++ octets n da ++ octets 2 17 ++ octets 2 (msg.length + 8) ++ udp ++ octets 2 0 ++ msg)
  let u := udp ++ octets 2 (if s = 65535 then 65535 else 65535 - s) ++ msg
  if m.colV4 k then
    headSum (mac ++ octets 2 0x0800 ++ octets 2 0x4500 ++ octets 2 (u.length + 20) ++ octets 4 0 ++ octets 2 0x4011 ++ octets 2 0 ++ octets 4 sa
      ++ octets 4 da ++ u) 14
  else mac ++ octets 2 0x86DD ++ octets 4 0x60000000 ++ octets 2 u.length ++ octets 2 0x1140 ++ octets 16 sa ++ octets 16 da ++ u

/-- A message as a frame on the FRONT path (R529): MAC addresses from the rewrite entry of the destination. -/
def Mach.colFrame (m : Mach) (k d : Nat) (msg : List Byte) : List Byte :=
  let w := m.rwEntry (2 * d) (m.rd O.flColDest k / 8192 % 32768)
  m.colUdp k (octets 6 (fld 24 w 2 6) ++ octets 6 (fld 24 w 8 6)) (m.rd O.flColSaddr k) msg

/-- Where a management port sends what is for an address: to it on its own network, otherwise to the gateway where there is one. How this is judged is not
stated: DESIGN CHOICE, by the prefix length for IPv4 and by the first 64 bits for IPv6 (log entry 180). -/
def Mach.mgtHop (m : Mach) (p : Nat) (v4 : Bool) (a : Nat) : Nat :=
  let s := if v4 then 32 - m.rd O.mgtIpv4Plen p else 64
  let own := if v4 then m.rd O.mgtIpv4 p else m.rd O.mgtIpv6 p
  let gw := m.rd (if v4 then O.mgtGw4 else O.mgtGw6) p
  if gw = 0 ∨ a / 2 ^ s = own / 2 ^ s ∨ (v4 = false ∧ a / 2 ^ 118 = 0x3FA) then a else gw

/-- The port's own address that a frame to an IPv6 address comes from: link-local where that one is, or where no other is configured. -/
def Mach.mgtFrom6 (m : Mach) (p a : Nat) : Nat := if a / 2 ^ 118 = 0x3FA ∨ m.rd O.mgtIpv6 p = 0 then m.linkLocal p else m.rd O.mgtIpv6 p

/-- A message as a frame of a management port, from the port's own address (R529). -/
def Mach.mgtColFrame (m : Mach) (k p : Nat) (msg : List Byte) : List Byte :=
  let v4 := m.colV4 k
  let a := if v4 then m.rd O.flColDaddr k % 2 ^ 32 else m.rd O.flColDaddr k
  m.colUdp k (octets 6 (Config.neighbourMac p (m.mgtHop p v4 a)).toNat ++ octets 6 (m.rd O.mgtMac p))
    (if v4 then m.rd O.mgtIpv4 p else m.mgtFrom6 p a) msg

/-- A message put on a collector's path: out of a management port, or into a VOQ of reach 2d under the checks of R448; answers whether it was
taken. Whether the management port's crossing FIFO is full (R531), and the channel of a FRONT message, are free values (log entry 64). -/
def Mach.colPut (m : Mach) (c : ModeCtl) (k d : Nat) (msg : List Byte) : Bool × Mach :=
  let p := m.rd O.flColPath k
  if p ≠ 2 then (m.freeVal 1 = 0, if m.freeVal 1 = 0 then m.freed.emit (.flare p k (m.mgtColFrame k p msg)) else m.freed)
  else
    let dest := m.rd O.flColDest k
    let tc := m.rd O.flColTc k
    let l := dest % 8192
    let x : Pkt := { reach := 2 * d, bport := m.lifPort l, lif := l, tenant := 0, tc := tc, data := m.colFrame k d msg, stamp := m.com.frc, ts := m.now,
                     flexe := false, at_ := m.ns, stage := .ready, hash := m.freeVal 32, w := { dest := dest, tc := tc } }
    let n := 8 * m.lifPort l + tc
    let f := fnNum .voq (2 * d)
    let m := if m.fst f = .running then m.freed else m.freed.met f
    if m.fst f = .faulted then (false, m.rsn c 0x80 (n / 8) tc) else
    match m.voqCheck (2 * d) n x false with
    | some code => (false, m.voqRefuse c (2 * d) n code)
    | none =>
      let p := m.dp.pktNext
      (true, { m with dp.pktNext := p + 1 }.voqPut (2 * d) n p x false false)

/-- Template sets sent to a collector from die d, none of them charged to the rate (R530); it knows the IDs where every message was taken. -/
def Mach.sendTemplates (m : Mach) (c : ModeCtl) (k d : Nat) (tids : List Nat) : Mach :=
  if tids.isEmpty then m
  else
    let a := (chunk (m.rd O.flColMtu k - 20) (tids.map m.templateRec) []).foldl (fun (a : Bool × Mach) b =>
      let (ok, m) := a.2.colPut c k d (a.2.ipfix k d (ipfixSet 2 b))
      (a.1 && ok, if ok then m.bump O.flColMessages k else m)) (true, m)
    let q := a.2.col k
    if a.1 then a.2.setCol k { q with known := q.known ++ (tids.filter fun t => !q.known.contains (d, t)).map fun t => (d, t) } else a.2

/-- An item put in a collector's queue for each exporter (R530, R532). -/
def Mach.colQueue (m : Mach) (k : Nat) (x : FlItem) : Mach :=
  m.setCol k { m.col k with q := (m.col k).q ++ (List.range 4).map fun d => (d, x) }

/-- Every template ID in use. -/
def Mach.allTids (m : Mach) : List Nat :=
  ((List.range 16).flatMap fun k => [m.flowTid k false, m.flowTid k true]) ++ [320, 321, 322]

/-- FL_TEMPLATE_PERIOD (R530, R531): every template set of each exporter joins the collector's queue. -/
def Mach.templatePeriod (m : Mach) (k : Nat) : Mach :=
  if !m.rdB O.flColEn k then m
  else
    let m := m.reach ((m.col k).tmplAt + 1000000000 * m.rd O.flTemplatePeriod)
    (m.setCol k { m.col k with tmplAt := m.ns }).colQueue k .templates

/-- The longest run of records that fits a number of octets of sets: the sets so far, and the records left. -/
def takeRecs (room tid : Nat) (cur done : List Byte) (n : Nat) : List FlRec → List Byte × Nat × List FlRec
  | [] => (done ++ (if cur.isEmpty then [] else ipfixSet tid cur), n, [])
  | r :: t =>
    let closed := done ++ (if cur.isEmpty then [] else ipfixSet tid cur)
    if r.tid = tid ∧ !cur.isEmpty then
      if closed.length + r.data.length ≤ room then takeRecs room tid (cur ++ r.data) done (n + 1) t else (closed, n, r :: t)
    else if closed.length + 4 + r.data.length ≤ room ∨ n = 0 then takeRecs room r.tid r.data closed (n + 1) t
    else (closed, n, r :: t)

/-- What the bucket of a collector lacks now. -/
def Mach.colLack (m : Mach) (k : Nat) : Nat := (m.col k).lack - m.rd O.flColRate k * (m.ns - (m.col k).lackAt)

/-- A message of n data records sent when the rate allows, dated as it is sent (R530, R531); one refused on its path loses them. -/
def Mach.colSend (m : Mach) (c : ModeCtl) (k d : Nat) (sets : List Byte) (n : Nat) : Mach :=
  let cost := 8000 * (m.colFrameLen k (sets.length + 16) + 4)
  let cap := 8000 * 65536
  let lack := m.colLack k
  let m := if cap < lack + cost then m.reach (m.ns + (lack + cost - cap + m.rd O.flColRate k - 1) / m.rd O.flColRate k) else m
  let (ok, m) := m.colPut c k d (m.ipfix k d sets)
  let q := m.col k
  let q := { q with lack := m.colLack k + cost, lackAt := m.ns }
  if ok then
    ((m.setCol k { q with seq := mset 0 q.seq d ((mget 0 q.seq d + n) % 2 ^ 32) }).bump O.flColRecords k n).bump O.flColMessages k
  else (m.setCol k { q with losses := q.losses + n }).bump O.flColLostPath k n

/-- Template sets for the IDs that a collector does not know from die d. -/
def Mach.templatesFor (m : Mach) (c : ModeCtl) (k d : Nat) (tids : List Nat) : Mach :=
  m.sendTemplates c k d (tids.filter fun t => !(m.col k).known.contains (d, t)).eraseDups

/-- FL_MESSAGE_SEND (R530, R531): the exporter of die d takes the oldest item of its queue: every template set, a LOSS record, or a buffer, from which
it sends one message, of the kinds then set; a buffer sent or refused to the end is freed once no other queue holds it. -/
def Mach.messageSend (m : Mach) (c : ModeCtl) (k d : Nat) : Mach :=
  let i := (m.col k).q.findIdx fun p => decide (p.1 = d)
  let pop := fun (m : Mach) => m.setCol k { m.col k with q := (m.col k).q.eraseIdx i }
  match (m.col k).q[i]? with
  | none => m
  | some (_, .templates) => (pop m).sendTemplates c k d m.allTids
  | some (_, .loss data) => ((pop m).templatesFor c k d [322]).colSend c k d (ipfixSet 322 data) 1
  | some (_, .buf x) =>
    let l := m.colLeft k x
    if l.isEmpty then (pop m).bufDone c x
    else
      let m := m.templatesFor c k d (l.map (·.2.tid))
      let (sets, n, rest) := takeRecs (m.rd O.flColMtu k - 16) 0 [] [] 0 (l.map (·.2))
      let m := m.colSend c k d sets n
      if rest.isEmpty then (pop m).bufDone c x
      else m.setCol k { m.col k with q := (m.col k).q.set i (d, .buf { x with done := (l.map (·.1)).getD n x.recs.length }) }

/-- FL_LOSS_SECOND (R532): where a count of lost records has risen in the second, a LOSS record of each exporter joins the queue of every collector of kind
LOSS (log entry 181), and one notification is sent. The second ends at a whole second of adjusted time. -/
def Mach.lossSecond (m : Mach) (c : ModeCtl) : Mach :=
  let sec : Int := 1000000000 * 65536
  let next := max (m.tb.lossSec + 1) (m.adj / sec).toNat
  let m : Mach := { m.reach (m.nsWhen (next * sec)) with tb.lossSec := next }
  let sum := m.rd O.flLossNobuf + m.rd O.flLossRefused + m.rd O.flLossPoison + m.rd O.flLossDiscard
  if sum = m.dp.lossSeen ∧ (List.range 4).all (fun k => (m.col k).losses = 0) then m
  else
    let m := { m with dp.lossSeen := sum }
    let m := (List.range 4).foldl (fun m k =>
      let m := m.setCol k { m.col k with losses := 0 }
      if !m.rdB O.flColEn k || !bit (m.rd O.flColKinds k) 4 then m
      else
        m.colQueue k (.loss (octets 48 (pack [(8, m.adjMs), (8, m.rd O.flLossNobuf), (8, m.rd O.flLossRefused), (8, m.rd O.flColLostRate k),
          (8, m.rd O.flColLostPath k), (8, m.rd O.flLossDiscard)])))) m
    m.counterNote c O.flLoss 0 2 6

/-- FL_COL_EN_WRITE (R530, R531): enabling puts every template set in the queue; disabling drops the queue. -/
def Mach.colEnable (m : Mach) (c : ModeCtl) (k v : Nat) : Mach :=
  let was := m.rdB O.flColEn k
  let m := (m.wr O.flColEn k v).st .ok
  if v = 1 ∧ !was then
    (m.setCol k { m.col k with tmplAt := m.ns, known := [] }).colQueue k .templates
  else if v = 0 ∧ was then m.colDrop c k else m

/-- FL_TEMPLATE_WRITE (R527): the mask changes and the generation bit flips; no collector knows the new IDs yet. -/
def Mach.templateWrite (m : Mach) (t mask : Nat) : Mach :=
  let e := m.ent O.flTemplate 0 t
  let g := 1 - fld 8 e 4 1 % 2
  let m := { m with dp.oldMask := mset 0x6FFF m.dp.oldMask t (fld 8 e 0 4) }
  let m := m.setEnt O.flTemplate 0 t (pack [(4, mask), (1, g), (3, 0)])
  let ids := [256 + 4 * t + 2 * g, 257 + 4 * t + 2 * g]
  (List.range 4).foldl (fun m k =>
    let q := m.col k
    m.setCol k { q with known := q.known.filter fun p => !ids.contains p.2 }) m

end Sys2Proof.Machine
end

