-- ==== Sys2Proof/Machine/Function.lean ====
section
/-! DEFINITION. Functions (spec 04): START and STOP, the configuration checks of every kind, what each kind does on its way, and the landing of
pending values. -/

namespace Sys2Proof.Machine

/-- Identifier of subindex sub of a function's control record (Table 4.3). -/
def fnId (f sub : Nat) : Nat := ((fnItem f).1 <<< 24) + ((fnItem f).2 <<< 8) + sub

/-- A function changes state: written with its time and notified (R118, Table 5.9). -/
def Mach.fnTo (m : Mach) (c : ModeCtl) (f : Nat) (st : FnState) : Mach :=
  (m.setFn f { m.fn f with state := st, since := m.now, startNext := false }).note c 3 f (fnId f 1) 0 (pack [(1, st.code), (5, 0)])

/-! Configuration checks (R118): each answers the identifier of the first object that fails. -/

/-- Octets 0 to 4 of ES-CLASS-WEIGHT and the rest of R493. -/
def Mach.egressFail (m : Mach) (b : Nat) : Option Nat :=
  let l := 2 * b + m.rd O.esGateUse b
  if !((List.range (m.rd O.esStrictFrom b)).all fun k => decide (1 ≤ m.classWeight b k)) then some (O.esClassWeight.key b)
  else if m.rd O.esPshapeRate b ≠ 0 ∧ m.rd O.esPshapeBurst b * 1024000 < m.rd O.esPshapeRate b * 8 then some (O.esPshapeBurst.key b)
  else if !m.rdB O.esGateEn b then none
  else if m.rdB O.pgFlexe (b / 8) then some (O.pgFlexe.key (b / 8))
  else if m.rd O.gclCount l < 1 ∨ 256 < m.rd O.gclCount l then some (O.gclCount.key l)
  else if !m.gclValid l then some (O.gclEntries.key l)
  else none

/-- Whether a lane map is a permutation of 0 to 7. -/
def laneMapOk (v : Nat) : Bool := (List.range 8).all fun k => (List.range 8).any fun j => bits v (3 * j + 2) (3 * j) = k

/-- R182. -/
def Mach.groupFail (m : Mach) (g : Nat) : Option Nat :=
  let fx := m.rdB O.pgFlexe g
  let cal := calTable (m.rd O.flxCalActive g)
  let member := fun b => fx && bit (m.rd O.flxMembers g) (b % 8)
  if m.rd O.pgMedia g = 2 ∧ (m.rd O.pgMode g = 2 ∨ m.rd O.pgMode g = 3) then some (O.pgMedia.key g)
  else if !laneMapOk (m.rd O.pgTxMap g) then some (O.pgTxMap.key g)
  else if !laneMapOk (m.rd O.pgRxMap g) then some (O.pgRxMap.key g)
  else if fx && !decide (m.rd O.pgMode g = 3 ∨ m.rd O.pgMode g = 4) then some (O.pgMode.key g)
  else if fx && !bit (m.rd O.flxMembers g) 0 then some (O.flxMembers.key g)
  else if fx && (List.range 320).any (fun k => decide (m.flexSlots g ≤ k ∧ m.ent cal g k ≠ 0xFFFF)) then some (cal.key g)
  else
    match ((List.range 8).map (8 * g + ·)).find? fun b => decide (m.rd O.bpFcMode b ≠ 0) && member b with
    | some b => some (O.bpFcMode.key b)
    | none =>
      match ((List.range 8).map (8 * g + ·)).find? fun b => decide (m.rd O.bpFcMode b = 2 ∧ m.rd O.bpPfcClasses b = 0) with
      | some b => some (O.bpPfcClasses.key b)
      | none => none

/-- State st of a binding's program. -/
def Mach.progState (m : Mach) (n st : Nat) : Nat := m.ent O.pbStates n st

/-- The states that a state leads to: DEFAULT-NEXT and the NEXT of its transitions, 0xFF left out (R217). -/
def Mach.progNext (m : Mach) (n st : Nat) : List Nat :=
  let s := m.progState n st
  (fld 32 s 14 1 :: (List.range (fld 32 s 11 1)).map fun k => m.entF O.pbTrans n (fld 32 s 12 2 + k) 8 1).filter (· ≠ 0xFF)

/-- States reachable from those of a list, within `fuel` rounds. -/
def Mach.progReach (m : Mach) (n : Nat) (seen todo : List Nat) (fuel : Nat) : List Nat :=
  match fuel with
  | 0 => seen
  | k + 1 =>
    let new := ((todo.flatMap (m.progNext n)).filter fun x => decide (x < 128) && !seen.contains x).eraseDups
    if new.isEmpty then seen else m.progReach n (seen ++ new) new k

/-- Items 4, 6 and 7 of R217 for a state, with the ranges of Table 7.1 for its fields (log entry 43): HDR-ID, reserved bits, LCHK, a length that can
be 1 or more, widths, and a destination of Table 7.3 in every extract. -/
def progStateOk (s item : Nat) : Bool :=
  let ctrl := fld 32 s 1 1
  match item with
  | 4 => decide (1 ≤ fld 32 s 0 1) && ctrl % 8 < 4 && decide (bits ctrl 5 3 ≠ 7) && decide (fld 32 s 7 1 < 16) &&
      (decide (1 ≤ fld 32 s 2 2) || decide (fld 32 s 6 1 ≠ 0))
  | 6 => decide (fld 32 s 10 1 ≤ 32 ∧ fld 32 s 6 1 ≤ 16)
  | _ => (List.range 4).all fun k =>
    let e := fld 32 s (16 + 4 * k) 4
    let w := e / 256 % 256
    decide (e % 256 ≤ 25 ∧ w ≤ 128) &&
      (decide (w = 0) || (match destSlot (e % 256) with | some (_, _, lo, hi) => decide (lo ≤ w ∧ w ≤ hi) | none => true))

/-- Item 5 of R217 for a state, with the range of TRANS-COUNT (Table 7.1): its own fields, then its transitions. -/
def Mach.progTransOk (m : Mach) (n s : Nat) : Bool × Bool :=
  let ok := fun x => decide (x < 128 ∨ x = 0xFF)
  (decide (fld 32 s 11 1 ≤ 16 ∧ fld 32 s 12 2 + fld 32 s 11 1 ≤ 512) && ok (fld 32 s 14 1),
    (List.range (fld 32 s 11 1)).all fun k => ok (m.entF O.pbTrans n (fld 32 s 12 2 + k) 8 1))

/-- Item 8 of R217, the limits of a graph node (R225): its own fields, then the masks of its transitions. -/
def Mach.graphNodeOk (m : Mach) (n s : Nat) : Bool × Bool :=
  (decide (fld 32 s 10 1 ≤ 16 ∧ fld 32 s 11 1 ≤ 8),
    (List.range (fld 32 s 11 1)).all fun k => decide (m.entF O.pbTrans n (fld 32 s 12 2 + k) 4 4 = 2 ^ fld 32 s 10 1 - 1))

/-- R217. -/
def Mach.bindingFail (m : Mach) (n : Nat) : Option Nat :=
  let f := m.fn (fnNum .binding n)
  let st := O.pbStates.key n
  let tr := O.pbTrans.key n
  let valid := fun k => bit (fld 32 (m.progState n k) 1 1) 7
  if f.disp = 1 ∧ (32 ≤ f.fallback ∨ f.fallback = n % 32) then some (fnId (fnNum .binding n) 5)
  else if !valid 0 then some st
  else
    let all := (m.progReach n [0] [0] 128).map (m.progState n)
    if !((m.progReach n [0] [0] 128).all valid) then some st
    else if !(all.all fun s => progStateOk s 4) then some st
    else if !(all.all fun s => (m.progTransOk n s).1) then some st
    else if !(all.all fun s => (m.progTransOk n s).2) then some tr
    else if !(all.all fun s => progStateOk s 6) then some st
    else if !(all.all fun s => progStateOk s 7) then some st
    else if n % 32 ≠ 31 then none
    else if !(all.all fun s => (m.graphNodeOk n s).1) then some st
    else if !(all.all fun s => (m.graphNodeOk n s).2) then some tr
    else none

/-- Whether two runs of entries overlap. -/
def overlap (a n b k : Nat) : Bool := decide (n ≠ 0 ∧ k ≠ 0 ∧ a < b + k ∧ b < a + n)

/-- R274: instance 64r + s. -/
def Mach.rulesetFail (m : Mach) (n : Nat) : Option Nat :=
  let r := n / 64
  let f := m.fn (fnNum .ruleset n)
  let base := m.rd O.rsTcamBase n
  let count := m.rd O.rsTcamCount n
  let others := ((List.range 64).map (64 * r + ·)).filter (· ≠ n)
  let x := m.rd O.rsExact n
  let xi := 16 * r + x
  let named := (others.map fun k => m.rd O.rsExact k).filter fun y => decide (y ≠ 0xFF ∧ y ≠ x)
  let exOk := x < 16 && decide (m.rd O.exmBase xi % 4 = 0) && isPow2 (m.rd O.exmSize xi) && decide (4 ≤ m.rd O.exmSize xi) &&
    decide (m.rd O.exmBase xi + m.rd O.exmSize xi ≤ 262144) &&
    named.all fun y => !overlap (m.rd O.exmBase xi) (m.rd O.exmSize xi) (m.rd O.exmBase (16 * r + y)) (m.rd O.exmSize (16 * r + y))
  let own := fun l => decide (l < 4096) || decide ((l - 4096) / 448 = n % 64)
  if f.disp = 1 ∧ 4096 ≤ f.fallback then some (fnId (fnNum .ruleset n) 5)
  else if 65536 < base + count ∨ others.any (fun k => overlap base count (m.rd O.rsTcamBase k) (m.rd O.rsTcamCount k)) then some (O.rsTcamBase.key n)
  else if (m.entries O.tcam r).any (fun p => decide (base ≤ p.1 ∧ p.1 < base + count) && !own (fld 176 p.2 2 2)) then some (O.tcam.key r)
  else if x ≠ 0xFF ∧ !exOk then some (O.rsExact.key n)
  else if !((octets 20 (m.rd O.rsTkSelect n)).all fun o => decide (o.toNat ≤ 50 ∨ o.toNat = 0xFF)) then some (O.rsTkSelect.key n)
  else if !(decide (m.rd O.rsDefaultList n < 32768) && own (m.rd O.rsDefaultList n)) then some (O.rsDefaultList.key n)
  else none

/-- R326; a size write starts a clear, so its second item never fails. -/
def Mach.basinFail (m : Mach) : Option Nat :=
  if m.flwStateV = 1 then some O.flwState.key else if m.dp.seedDirty then some O.flowSeed.key else none

/-- Whether an EVT-EPILOGUE octet may stand for a kind (R380). -/
def epilogueOk (kind v : Nat) : Bool := v = 0xFF || kind = 1 || kind = 2 || kind = 7 || kind = 4 || kind = 8

/-- R382. -/
def Mach.sluiceFail (m : Mach) (v : Nat) : Option Nat :=
  let l := (List.range 64).map fun k => m.ent O.schedList v k
  if !(l.all (fun x => decide (x < 4)) && (List.range 4).all fun k => l.contains k) then some (O.schedList.key v)
  else if !((List.range 256).all fun k => epilogueOk k (m.ent O.evtEpilogue v k)) then some (O.evtEpilogue.key v)
  else none

/-- The configuration check of a function. -/
def Mach.startFail (m : Mach) (f : Nat) : Option Nat :=
  match fnKind f with
  | some (.egress, b) => m.egressFail b
  | some (.basin, _) => m.basinFail
  | some (.sluice, v) => m.sluiceFail v
  | some (.ruleset, n) => m.rulesetFail n
  | some (.binding, n) => m.bindingFail n
  | some (.pgroup, g) => m.groupFail g
  | _ => none

/-- Whether a mode allows START of a function (Table 3.8). -/
def startMode (c : ModeCtl) (f : Nat) : Bool :=
  c.mode.forwards || (c.mode = .primed && (match fnKind f with | some (.pgroup, _) => true | _ => false))

/-! Landing at STOPPED (R91, R114). -/

/-- The queue shapers of a port's interfaces that have pending entries. -/
def Mach.pendQueues (m : Mach) (b : Nat) : List Nat :=
  m.com.pend.filterMap fun p =>
    let q := p.1 - O.lifQueue.ekey 0 0
    if O.lifQueue.ekey 0 0 ≤ p.1 ∧ q < 65536 ∧ m.lifPort (q / 8) = b then some q else none

/-- Every value pending for a function lands. -/
def Mach.landFn (m : Mach) (c : ModeCtl) (f : Nat) : Mach :=
  match fnKind f with
  | some (.egress, b) =>
    let was := m.portBurst b
    let m := (m.land c O.esPshapeRate b).land c O.esPshapeBurst b
    let m := m.setPort b { m.port b with tok := recut (m.port b).tok was (m.portBurst b), gateAt := none }
    let m := (m.pendQueues b).foldl (fun m q => (m.queueLand q false).queueLand q true) m
    match m.pendOf O.esGateUse b with
    | none => m
    | some v =>
      let m := m.wr O.esGateLand b 0
      if !m.rdB O.esGateEn b || m.gclValid (2 * b + v) then (m.land c O.esGateUse b).wr O.esGateActive b v
      else (m.setPend O.esGateUse b none).note c 2 0xFFFF (O.esGateUse.key b) Status.range.code 0
  | some (.pgroup, g) => m.calSwitch c g
  | _ => m

/-! State changes and what they do. -/

/-- START accepted: STARTING (Table 4.4). -/
def Mach.beginStart (m : Mach) (c : ModeCtl) (f : Nat) : Mach :=
  let m := ({ m with trn.parked := m.trn.parked.filter (· ≠ f) }).fnTo c f .starting
  match fnKind f with
  | some (.pgroup, g) => m.groupStarting c g
  | some (.basin, b) => m.setBasin b { m.basin b with tok := m.rd O.crbBurst b * 1000000000, tokAt := m.ns }
  | _ => m

/-- STOP accepted, or a stop by the mode rules: STOPPING. -/
def Mach.beginStop (m : Mach) (c : ModeCtl) (f : Nat) : Mach :=
  let m := m.fnTo c f .stopping
  match fnKind f with
  | some (.pgroup, g) => m.groupStopping c g
  | some (.sluice, v) => m.sluiceHalt c v
  | _ => m

/-- The device itself starts a function (R81, R93, R97): no mode forbids it, and one whose configuration check fails stays as it is. A stop in progress
completes first (R91). -/
def Mach.devStart1 (m : Mach) (c : ModeCtl) (f : Nat) : Mach :=
  match m.fst f with
  | .stopped =>
    (match m.startFail f with
     | none => m.beginStart c f
     | some e => m.setFn f { m.fn f with startErr := e })
  | .stopping => m.setFn f { m.fn f with startNext := true }
  | _ => m

/-- Every admitted work is complete, or lost: STOPPED. A function that the device is to start again starts from there. -/
def Mach.endStop (m : Mach) (c : ModeCtl) (f : Nat) : Mach :=
  let again := (m.fn f).startNext
  let m := (m.fnTo c f .stopped).landFn c f
  let m := match fnKind f with
    | some (.voq, r) => m.voqStopped r
    | some (.pgroup, g) => m.groupOff c g
    | _ => m
  if again then m.devStart1 c f else m

/-- A function is stopped for good: no start of the device waits for it. -/
def Mach.noStart (m : Mach) (f : Nat) : Mach := m.setFn f { m.fn f with startNext := false }

/-- Initialisation complete: RUNNING, the RS values written while it was STOPPED act (R122), and what was held is released (R128). -/
def Mach.toRunning (m : Mach) (c : ModeCtl) (f : Nat) : Mach :=
  let m := m.fnTo c f .running
  let m := match fnKind f with
    | some (.egress, b) =>
      let m := (m.setPort b { m.port b with gateFrom := some (m.adj / 65536).toNat }).rsTake [(O.esGateEn, b), (O.esGuard, b)]
      (match m.pendOf O.esGateUse b with
       | some v => m.gateSwitch b v
       | none => m)
    | some (.voq, r) => m.voqStarted r
    | some (.ruleset, n) => (m.wr O.rsGen n (if m.rd O.rsGen n = 0xFFFFFFFF then 1 else m.rd O.rsGen n + 1)).rsTake [(O.rsFlow, n)]
    | some (.pgroup, g) => m.groupRunning c g
    | _ => m
  m.release f

/-- What START draws of a function (Tables 4.5 and 5.6); `held` says that another holds it. DEFERRED stands for a start. -/
def Mach.startStatus (m : Mach) (c : ModeCtl) (f : Nat) (held : Bool) : Status :=
  let st := m.fst f
  if st = .stopped ∧ !startMode c f then .mode
  else if st = .stopped ∧ (m.startFail f).isSome then .range
  else if held then .busy
  else
    match st with
    | .stopped => .deferred
    | .stopping => .busy
    | .faulted => .functionFaulted
    | _ => .ok

/-- START judged and carried out: a failed check leaves its object in FN-START-ERROR. -/
def Mach.start (m : Mach) (c : ModeCtl) (f : Nat) (held : Bool) : Status × Mach :=
  match m.startStatus c f held with
  | .deferred => (.deferred, m.beginStart c f)
  | .range => (.range, m.setFn f { m.fn f with startErr := (m.startFail f).getD 0 })
  | r => (r, m)

/-- What STOP draws of a function. -/
def Mach.stopStatus (m : Mach) (f : Nat) (held : Bool) : Status :=
  if held then .busy
  else
    match m.fst f with
    | .starting => .deferred
    | .running => .deferred
    | .faulted => .functionFaulted
    | _ => .ok

/-- STOP judged and carried out; one that meets STARTING acts when initialisation completes (Table 4.4). -/
def Mach.stop (m : Mach) (c : ModeCtl) (f : Nat) (held : Bool) : Status × Mach :=
  match m.stopStatus f held, m.fst f with
  | .deferred, .running => (.deferred, m.beginStop c f)
  | .deferred, _ => (.deferred, m.setFn f { m.fn f with stopNext := true })
  | r, _ => (r, m)

/-- Whether a session other than its holder asks (R123). -/
def Mach.heldFrom (m : Mach) (f ses : Nat) : Bool := (m.fn f).holder ≠ 0xFF && decide ((m.fn f).holder ≠ ses)

/-- Dispositions a kind allows (Table 4.2). -/
def dispOk (f v : Nat) : Bool :=
  match fnKind f with
  | some (.chset, _) => v = 0
  | some (.pgroup, _) => v = 2
  | some (.basin, _) | some (.ruleset, _) | some (.binding, _) => v ≤ 2
  | _ => v = 0 || v = 2

/-- Whether a fallback may stand under BYPASS: a common list, or another binding's program (R215, R267). -/
def fallbackOk (f v : Nat) : Bool :=
  match fnKind f with
  | some (.ruleset, _) => v < 4096
  | some (.binding, n) => v < 32 && v ≠ n % 32
  | _ => true

/-- A function that the host stops during EBB is not started by the return from it (R93). -/
def Mach.hostStop (m : Mach) (f : Nat) : Mach := { m with trn.hostStopped := f :: m.trn.hostStopped.filter (· ≠ f) }

/-- Privilege of a subindex of a control record (Table 4.3). -/
def fnPriv (sub : Nat) : Nat := if 2 ≤ sub ∧ sub ≤ 6 then 1 else 0

/-- A write to a subindex of a control record (Table 4.3) under checks 8 to 16: START, STOP (remembered where it comes during EBB, R93),
disposition, fallback and hold age. -/
def Mach.fnWrite (m : Mach) (c : ModeCtl) (rq : Req) (f sub : Nat) (val : List Byte) : Mach :=
  let v := ofOctets val
  let r := m.fn f
  if !areaOpen c.judged (fnItem f).1 (fnItem f).2 true ∨ (sub = 2 ∧ r.state = .stopped ∧ !startMode c f) then m.st .mode
  else if rq.priv < fnPriv sub then m.st .privilege
  else
    match sub with
    | 2 =>
      if val ≠ [] then m.st .type
      else
        let x := m.start c f (m.heldFrom f rq.ses)
        x.2.st x.1
    | 3 =>
      if val ≠ [] then m.st .type
      else
        let x := m.stop c f (m.heldFrom f rq.ses)
        let y := x.2.st x.1
        if x.1 = .deferred ∧ c.mode = .ebb then y.hostStop f else y
    | 4 =>
      if val.length ≠ 1 then m.st .type
      else if !dispOk f v || (v = 1 && !fallbackOk f r.fallback) then m.st .range
      else (m.setFn f { r with disp := v }).st .ok
    | 5 =>
      if val.length ≠ 4 then m.st .type
      else if r.disp = 1 && !fallbackOk f v then m.st .range
      else (m.setFn f { r with fallback := v }).st .ok
    | 6 =>
      if val.length ≠ 4 then m.st .type
      else if v < 10 ∨ 100000 < v then m.st .range
      else (m.setFn f { r with holdAge := v }).st .ok
    | _ => m.st .access

/-- A write to a control record by a session. -/
def Mach.fnCmd (m : Mach) (c : ModeCtl) (ses f sub : Nat) (val : List Byte) : Mach :=
  if !m.sesOn ses then m.st .session
  else if fnKind f = none then m.st .unknownObject
  else m.fnWrite c (m.reqOf ses) f sub val

/-- A host's START (R119). -/
def Mach.startCmd (m : Mach) (c : ModeCtl) (ses f : Nat) : Mach := m.fnCmd c ses f 2 []

/-- A host's STOP (R119). -/
def Mach.stopCmd (m : Mach) (c : ModeCtl) (ses f : Nat) : Mach := m.fnCmd c ses f 3 []

/-- FN_INIT_COMPLETE (Table 4.4). -/
def Mach.initComplete (m : Mach) (c : ModeCtl) (f : Nat) : Mach :=
  if m.fst f ≠ .starting then m
  else if (m.fn f).stopNext then (m.setFn f { m.fn f with stopNext := false }).beginStop c f
  else m.toRunning c f

/-- Channels of a channel set (R441). -/
def chsetChans (k : Nat) : List Nat := (List.range 256).filter fun n => decide (chanSet n = some k)

/-- Whether what a function had admitted before STOP is complete (R120 and the rules of each kind). -/
def Mach.quiet (m : Mach) (f : Nat) : Bool :=
  match fnKind f with
  | some (.binding, n) => (m.pktsIn (n / 32) fun x =>
      decide ((x.stage = .ctx ∨ x.stage = .graph) ∧ x.prog = n % 32) ||
        (x.ebb && decide ((x.stage = .fifo ∨ x.stage = .graphFifo ∨ (x.stage = .held ∧ x.released = true)) ∧ m.rd O.lifBinding x.lif % 32 = n % 32))).isEmpty
  | some (.ruleset, n) => (m.pktsIn (n / 64) fun x => decide (x.stage = .pass ∧ x.w.set = n % 64 ∧ x.w.bypass = false)).isEmpty
  | some (.basin, v) =>
    ((m.ifts v).all fun p => !p.2.op.drains) && (m.basin v).inPkt.isEmpty && ((m.basin v).inOther.all fun w => !w.op.drains) &&
      (chansTo (2 * (v / 4))).all fun n => (m.chan n).msgs.all fun x => match x with | .query b _ _ => decide (m.server b ≠ v) | _ => true
  | some (.sluice, v) => (m.slu v).busy.isEmpty
  | some (.chset, k) => (chsetChans k).all fun n => (m.chan n).flight.isEmpty
  | _ => true

/-- The end of the frame that a port transmits, which its list's STOP waits for (R494). -/
def Mach.lastFrame (m : Mach) (f : Nat) : Mach :=
  match fnKind f with
  | some (.egress, b) => m.reach (m.port b).txLast
  | _ => m

/-- FN_STOP_COMPLETE (Table 4.4). -/
def Mach.stopComplete (m : Mach) (c : ModeCtl) (f : Nat) : Mach :=
  if m.fst f = .stopping ∧ m.quiet f then (m.lastFrame f).endStop c f else m

/-! Starts and stops by the mode rules (R87, R88). -/

/-- Functions of a list in start order (Table 3.7). -/
def startOrder (l : List Nat) : List Nat :=
  let ord := fun f => match fnKind f with | some (k, _) => k.order | none => 0
  (List.range 8).flatMap fun k => l.filter fun f => decide (ord f = k)

/-- Whether a batch or segment holds a function and has not issued its START yet (R124). -/
def Mach.heldStill (m : Mach) (f : Nat) : Bool :=
  (m.fn f).holder ≠ 0xFF && !(m.fst f = .running || (m.fst f = .starting && !(m.fn f).stopNext))

/-- The device stops a function that runs, or that a START in progress brings to RUNNING (R91). -/
def Mach.devStop (m : Mach) (c : ModeCtl) (f : Nat) : Mach :=
  match m.fst f with
  | .running => m.beginStop c f
  | .starting => m.setFn f { m.fn f with stopNext := true }
  | .stopping => m.noStart f
  | _ => m

/-- One step of the stop that a mode transition asks of a function (R91, R124): it waits for the START of a batch that holds the function and
for the end of a START or STOP in progress, and STOPPED is reached once the admitted work is complete. -/
def Mach.stopStep (m : Mach) (c : ModeCtl) (f : Nat) : Mach :=
  if m.heldStill f then m
  else
    (m.devStop c f).stopComplete c f

/-- Whether a function has been stopped as a transition asks: STOPPED or FAULTED, and not held for a START to come. -/
def Mach.stopDone (m : Mach) (f : Nat) : Bool := !m.heldStill f && (m.fst f = .stopped || m.fst f = .faulted)

/-- The device stops a function whose admitted work is complete or lost; a START in progress completes first (R91). -/
def Mach.devHalt (m : Mach) (c : ModeCtl) (f : Nat) : Mach :=
  let m := m.initComplete c f
  match m.fst f with
  | .running => (m.beginStop c f).endStop c f
  | .stopping => (m.noStart f).endStop c f
  | _ => m

/-- A reset takes a function to STOPPED, its work lost (Table 3.11, log entry 21). -/
def Mach.resetHalt (m : Mach) (c : ModeCtl) (f : Nat) : Mach :=
  match m.fst f with
  | .running => (m.beginStop c f).endStop c f
  | .starting => ((m.setFn f { m.fn f with stopNext := false }).beginStop c f).endStop c f
  | .stopping => (m.noStart f).endStop c f
  | _ => m

/-- Every function that a test names is stopped, in stop order. -/
def Mach.haltAll (m : Mach) (c : ModeCtl) (test : Nat → Bool) : Mach :=
  (startOrder (m.liveFns.filter test)).reverse.foldl (fun m f => m.devHalt c f) m

/-- The device starts functions in start order. -/
def Mach.devStart (m : Mach) (c : ModeCtl) (l : List Nat) : Mach := (startOrder l).foldl (fun m f => m.devStart1 c f) m

end Sys2Proof.Machine
end

