-- ==== Sys2Proof/Machine/Fault.lean ====
section
/-! DEFINITION. The snuffer (spec 20): containment of blocks and dies, what each block loses, takeover, relay, restore, handback and rebuild; and
the block and die resets of spec 03. -/

namespace Sys2Proof.Machine

/-- Events lost (R597): counted, with the pools suspect until a recount. -/
def Mach.eventsLost (m : Mach) (n : Nat) : Mach := if n = 0 then m else (m.bump O.fltEventsLost 0 n).wr O.poolState 0 1

/-! What a channel loses (R471, R594). -/

/-- A copy lost on its way: counted at its sending reach, its credit returned, and DONE sent for one whose packet waits for it. -/
def Mach.flightLost (m : Mach) (c : ModeCtl) (e : Nat) (x : Copy) : Mach :=
  let m := ((m.outLower x.inReach x.voq (x.data.length + 4)).rsn c 0x80 x.inPort x.tc).stampLost x 0x80
  if x.kind = 0 then m else m.postDone e x

/-- A packet whose message was lost is dropped (R594). -/
def Mach.msgPktLost (m : Mach) (c : ModeCtl) (p : Nat) : Mach :=
  match m.pkt p with
  | some x => m.drop c p x 0x80
  | none => m

/-- A message lost on channel n (log entry 65): credit is returned, events are counted and their flows settled, and the rest is gone. The packet of a flow message
is dropped where the link failed (R594); where the channel was reset, R341 settles it (R471). -/
def Mach.msgLost (m : Mach) (c : ModeCtl) (n : Nat) (failed : Bool) (x : Msg) : Mach :=
  match x with
  | .query _ p _ => if failed then m.msgPktLost c p else m
  | .result _ p _ => if failed then m.msgPktLost c p else m
  | .park _ p => if failed then m.msgPktLost c p else m
  | .verdict p _ => if failed then m.msgPktLost c p else m
  | .grant v k => m.outLower (n / 4 % 8) v k
  | .ret ing v k => m.outLower ing v k
  | .event _ e => (m.eventsLost 1).evLost c e
  | .request .. => m
  | .skip .. => m
  | .done .. => m
  | .portState .. => m

/-- Everything on a channel is lost: its link has failed, or it is reset. -/
def Mach.chanLose (m : Mach) (c : ModeCtl) (n : Nat) (failed : Bool) : Mach :=
  let h := m.chan n
  let m := m.setChan n { h with msgs := [], flight := [] }
  let m := h.flight.foldl (fun m x => m.flightLost c (n / 4 % 8) x) m
  h.msgs.foldl (fun m x => m.msgLost c n failed x) m

/-! What a block loses at a reset (Table 3.11 and the reset rules of each chapter). -/

/-- Packets of a map that a test picks. -/
def Mach.dropPkts (m : Mach) (c : ModeCtl) (code : Nat) (f : Pkt → Bool) : Mach :=
  m.dp.pkts.foldl (fun m p =>
    match m.pkt p.1 with
    | some x => if f x then (m.delayLost x).drop c p.1 x code else m
    | none => m) m

/-- Every cell of a reset reach freed (R439): its pools stand as at first, and no packet or frame holds one. -/
def Mach.cellsWipe (m : Mach) (r : Nat) : Mach :=
  let pkts : Map (Option Pkt) := m.dp.pkts.map fun p => (p.1, p.2.map fun x => if x.reach = r then { x with cell := none } else x)
  let eqs : Map (List Copy) := m.dp.eqs.map fun p => (p.1, if lifReach (p.1 / 8) = r then p.2.map fun x => { x with cell := none } else p.2)
  (List.range 4).foldl (fun m k => m.setPool r k {}) { m with dp.pkts := pkts, dp.eqs := eqs }

/-- The packets of a reset reach dropped (R354): no result follows their queries, so their entries at the basins become orphans (R341). -/
def Mach.orphanPkts (m : Mach) (c : ModeCtl) (r : Nat) : Mach :=
  m.dp.pkts.foldl (fun m p =>
    match m.pkt p.1 with
    | some x => if x.reach = r then (m.delayLost x).drop c p.1 { x with result := true } 0x80 else m
    | none => m) m

/-- Messages that stand for what a reset reach forgets: its requests, and the grants and credit that it had issued (R471). -/
def Msg.ofReach : Msg → Bool
  | .request .. | .ret .. | .grant .. => true
  | _ => false

/-- A reach reset (R240, R275, R354, R439, R471, R495). -/
def Mach.reachWipe (m : Mach) (c : ModeCtl) (r : Nat) : Mach :=
  let m := (m.cellsWipe r).orphanPkts c r
  let h := m.rch r
  let copies := h.mcq ++ (match h.repl with | some x => [x.copy] | none => [])
  let m := m.setRch r { view := h.view, lfsr := h.lfsr }
  let m := copies.foldl (fun m x => (m.rsn c 0x80 x.inPort x.tc).postDone r x) m
  let m := (List.range 128).foldl (fun m k => m.egressFlush c (128 * r + k) 0x80) m
  let m := (chansTo r).foldl (fun m n =>
    let h := m.chan n
    h.flight.foldl (fun m x => m.flightLost c r x) (m.setChan n { h with flight := [] })) m
  let m := (List.range 256).foldl (fun m n =>
    if n / 32 ≠ r then m
    else if chanSet n = none then m.chanLose c n false
    else m.setChan n { m.chan n with msgs := (m.chan n).msgs.filter fun x => !x.ofReach }) m
  let m := { m with
    dp.voqs := m.dp.voqs.filter fun p => decide (p.1 / 8256 ≠ r)
    dp.out := m.dp.out.filter fun p => decide (p.1 % 8 ≠ r ∧ voqReach (p.1 / 8) ≠ r)
    dp.flags := m.dp.flags.filter fun p => decide (p.1 / 8256 ≠ r ∧ voqReach (p.1 % 8256) ≠ r)
    dp.lanes := m.dp.lanes.filter fun p => decide (p.1 / 4096 ≠ r)
    dp.qdef := m.dp.qdef.filter fun p => decide (lifReach (p.1 / 8) ≠ r)
    dp.qtok := m.dp.qtok.filter fun p => decide (lifReach (p.1 / 8) ≠ r) }
  let m := (m.dp.voqs.filter fun p => decide (voqReach (p.1 % 8256) = r)).foldl (fun m p =>
    (m.setVoq (p.1 / 8256) (p.1 % 8256) { p.2 with credit := 0, pending := false }).voqSettle (p.1 / 8256) (p.1 % 8256)) m
  let m := (List.range 128).foldl (fun m k =>
    let b := 128 * r + k
    let m := m.setPort b { m.port b with tok := 0 }
    if (m.port b).xoff = 0 then m else m.fcAll c b) m
  m.polFull r

/-- The ways of a share at a basin, with their keys. -/
def Mach.waysOf (m : Mach) (v : Nat) (f : Nat → Bool) : List (Nat × Way) :=
  m.dp.eddy.filterMap fun p =>
    match p.2 with
    | some w => if p.1 / 131072 = v ∧ f (w.slot / 2 ^ 24) then some (p.1, w) else none
    | none => none

/-- A basin reset (R103, R354): its eddy and in-flight table are lost, and its tenants are recounted by the next sweep pass. -/
def Mach.basinWipe (m : Mach) (v : Nat) : Mach :=
  let m := { m with dp.eddy := m.dp.eddy.filter fun p => decide (p.1 / 131072 ≠ v) }
  let b := m.basin v
  (m.setBasin v { b with ift := [], inPkt := [], inOther := [], pendCreate := [], recount := 1 }).wr O.iftRecount v 1

/-- The in-flight entries of lost CREATE events, which R341 releases (R385). -/
def Mach.createsLost (m : Mach) (v : Nat) : Mach :=
  (m.ifts v).foldl (fun m p => if p.2.creating then m.setIft v p.1 (some { p.2 with lost := true }) else m) m

/-- A mill-group reset (R385): its lists and contexts are lost, and the in-flight entries that its events held; the pools it homes are
SUSPECT, and a recount in progress ends without result. -/
def Mach.millWipe (m : Mach) (c : ModeCtl) (v : Nat) : Mach :=
  let m := m.ctxsEnd c v
  let l := (m.slu v).events
  let m := ((m.setSlu v (m.slu v).emptied).dropMills c v).createsLost v
  let m := l.foldl (fun m e => m.evLost c e) m
  ({ m.eventsLost l.length with dp.recounting := false }).wr O.poolState 0 1

/-- A write-back request abandoned (R345): its way stays dirty, and its next write-back goes to the surviving copy only. -/
def Mach.wbAbandon (m : Mach) (g : Nat) : Mach :=
  let m := if m.wbPending g then m else { m with dp.wbq := mset none m.dp.wbq g none }
  match m.wayBySlot g with
  | none => m
  | some (k, w) => m.setWay k (some { w with wb := 0, dirty := true })

/-- Writes queued or waiting at each pseudo-channel of a stack. -/
def Mach.writesAt (m : Mach) (s : Nat) : Map Nat :=
  (List.range 64).filterMap fun k =>
    let q := m.pc (64 * s + k)
    let n := ((q.q ++ q.wait).filter fun (x : HReq) => x.write).length
    if n = 0 then none else some (64 * s + k, n)

/-- A read of a lost stack set down for its partner (R345). -/
def Mach.reissuePut (m : Mach) (o : Nat) (r : Nat × HReq) : Mach :=
  let x := mget {} m.dp.reissue o
  { m with dp.reissue := mset {} m.dp.reissue o { x with reads := x.reads ++ [r] } }

/-- The traces of the basins whose primary stack this is are lost (R393). -/
def Mach.tracesLost (m : Mach) (s : Nat) : Mach :=
  (stackBasins s).foldl (fun m b => (m.entries O.trace b).foldl (fun m p => m.setEnt O.trace b p.1 0) m) m

/-- The endpoint entries whose only copies stood in a stack and its partner are lost (R391, R599). -/
def Mach.pairEntriesLost (m : Mach) (s : Nat) : Mach :=
  (m.entries O.epTable 0).foldl (fun m p => if p.1 / 2097152 % 4 = s % 4 then m.setEnt O.epTable 0 p.1 0 else m) m

/-- A stack is lost (R393, R415, R417, R437, R599): its queued writes are abandoned, its mirrored reads reissued to the partner, its pools dropped and its traces
lost; its scrub begins anew. -/
def Mach.stackWipe (m : Mach) (s : Nat) : Mach :=
  let o := partner s
  let both := m.stackLost o || m.stackStale o
  let m := (List.range 64).foldl (fun m k =>
    let q := m.pc (64 * s + k)
    let l := q.q ++ q.wait
    let m := m.setPc (64 * s + k) {}
    l.foldl (fun m x =>
      match x.write, x.wb with
      | true, some (g, _, _) => m.wbAbandon g
      | true, none => m
      | false, _ =>
        if m.mirrored s x.line && !both then m.reissuePut o (64 * o + k, { x with line := partnerLine x.line }) else m) m) { m with
        dp.reissue := mset {} (mset {} m.dp.reissue s {}) o { ahead := m.writesAt o } }
  let m := m.reissue o
  let m := (List.range 64).foldl (fun m k => m.pcAdmit (64 * o + k)) m
  let m := (List.range 32).foldl (fun m k => m.srEnter (32 * s + k)) m
  let m := if both then ({ m with flt.lostPair := mset false m.flt.lostPair (s % 4) true }).pairEntriesLost s else m
  let m := { m with
    flt.rebuild := mset false m.flt.rebuild s false
    dp.scrubAt := mset 0 m.dp.scrubAt s 0 }
  ((m.tracesLost s).hplClear (2 * s)).hplClear (2 * s + 1)

/-- The controller runs again: the stack rejoins STALE, awake, with its pools free and its traces empty (R417, R437, R598). -/
def Mach.stackRejoin (m : Mach) (s : Nat) : Mach :=
  let m := (List.range 32).foldl (fun m k => m.setHchan (32 * s + k) { m.hchan (32 * s + k) with sr := 0, emptyAt := m.ns }) m
  let m := (m.hplRebuildDone (2 * s)).hplRebuildDone (2 * s + 1)
  ({ m with
    flt.rebuild := mset false m.flt.rebuild s true
    flt.rebuildAt := mset 0 m.flt.rebuildAt s m.ns }).wr O.fltRebuildDone s 0

/-- A block loses what a reset clears. -/
def Mach.blkWipe (m : Mach) (c : ModeCtl) (t : Nat) : Mach :=
  match tileBlk t with
  | (.reach, r) => m.reachWipe c r
  | (.basin, v) => m.basinWipe v
  | (.mill, v) => m.millWipe c v
  | (.pgroup, g) => (groupPorts g).foldl (fun m b =>
      let l := (m.port b).txf
      l.foldl (fun m x => m.copyDrop c b x 0x80) (m.setPort b { m.port b with txf := [] })) m
  | (.hbm, s) => m.stackWipe s
  | (.chset, k) => (chsetChans k).foldl (fun m n => m.chanLose c n false) m
  | (.lantern, _) => m

/-! Levels (R589, R590). -/

/-- A block's level with the time of its change. -/
def Mach.setLevel (m : Mach) (t : Nat) (b : Contain) : Mach := (m.setBlk (blkOf t) b).wr O.fltBlkSince (blkOf t) m.now

/-- Functions of a block that run or start (R590). -/
def Mach.ranIn (m : Mach) (t : Nat) : List Nat :=
  (blkFns (tileBlk t).1 (tileBlk t).2).filter fun f => decide (m.fst f = .running ∨ m.fst f = .starting)

/-- Every function of a block becomes FAULTED (R118, R589). -/
def Mach.faultFns (m : Mach) (c : ModeCtl) (t : Nat) : Mach :=
  (blkFns (tileBlk t).1 (tileBlk t).2).foldl (fun m f =>
    if m.fst f = .faulted then m
    else
      let m := (m.setFn f { m.fn f with stopNext := false }).fnTo c f .faulted
      match fnKind f with
      | some (.pgroup, g) => m.groupStopping c g
      | _ => m) m

/-- Packets that await a verdict of a basin are dropped (R592). -/
def Mach.dropAwaiting (m : Mach) (c : ModeCtl) (v : Nat) : Mach :=
  m.dropPkts c 0x80 fun x => x.query.isSome && x.verdict.isNone && decide (m.server (m.homeBasin x.hash) = v)

/-- A block's functions fault and it loses its contents. -/
def Mach.blkDown (m : Mach) (c : ModeCtl) (t : Nat) : Mach :=
  let m := match tileBlk t with
    | (.basin, v) => m.dropAwaiting c v
    | _ => m
  (m.faultFns c t).blkWipe c t

/-- PORT-STATE DOWN on behalf of an isolated reach's ports, at every other reach (R596). -/
def Mach.portsGone (m : Mach) (c : ModeCtl) (r : Nat) : Mach :=
  (List.range 8).foldl (fun m i =>
    if i = r then m
    else
      let m := (List.range 128).foldl (fun m k =>
        let h := m.rch i
        (m.setRch i { h with view := mset 0 h.view (128 * r + k) 0 }).voqFlush c i (128 * r + k)) m
      (List.range 8).foldl (fun m k =>
        let n := 8192 + 8 * r + k
        (m.voq i n).q.foldl (fun m x => match m.voqPop i n with
          | some (_, m) => (match m.pkt x.pkt with
            | some y => (m.mcRefuseAll c r (y.w.dest % 65536) y.lif k).pktSettle c x.pkt { y with refs := y.refs - 1 }
            | none => m)
          | none => m) m) m) m

/-- The die through which an isolated set is relayed (R595). -/
def Mach.relayDie (m : Mach) (k : Nat) : Option Nat :=
  let (i, j) := chsetDies k
  (List.range 4).find? fun d => decide (d ≠ i ∧ d ≠ j) && !m.isolated .chset (chsetOf i d) && !m.isolated .chset (chsetOf d j)

/-- Every isolated set is relayed where a die qualifies; where none does, the ports beyond are DOWN for the die that is cut off (R595). -/
def Mach.relaySettle (m : Mach) (c : ModeCtl) : Mach :=
  (List.range 12).foldl (fun m k =>
    if !m.isolated .chset k then m
    else if (m.relayDie k).isSome then (chsetChans k).foldl (fun m n => m.wr O.fltChState n 2) m
    else
      let m := (chsetChans k).foldl (fun m n => if m.rd O.fltChState n = 2 then m.wr O.fltChState n 0 else m) m
      let (i, j) := chsetDies k
      [2 * i, 2 * i + 1].foldl (fun m r => (List.range 256).foldl (fun m b => m.voqFlush c r (256 * j + b)) m) m) m

/-- Level 2 of a block that is not there yet (Table 20.3). -/
def Mach.isolate1 (m : Mach) (c : ModeCtl) (t : Nat) : Mach :=
  let b := m.cont t
  if 2 ≤ b.level then m
  else
    let m := (m.adt 25).setLevel t { b with level := 2, resetting := false, stableAt := none, restart := if b.resetting then b.restart else m.ranIn t }
    let m := m.blkDown c t
    match tileBlk t with
    | (.reach, r) => m.portsGone c r
    | (.basin, v) => ({ m with flt.handback := m.flt.handback.filter fun x => x.1 ≠ v }).wr O.fltBasinServer v ((v + 8) % 16)
    | (.pgroup, g) => m.groupDown c g
    | (.chset, _) => m.relaySettle c
    | _ => m

/-- Level 2: a basin and its mill group are isolated together (Table 20.3). -/
def Mach.isolate (m : Mach) (c : ModeCtl) (t : Nat) : Mach :=
  match tileBlk t with
  | (.basin, v) => (m.isolate1 c t).isolate1 c (blkTile .mill v)
  | (.mill, v) => (m.isolate1 c t).isolate1 c (blkTile .basin v)
  | _ => m.isolate1 c t

/-- Level 3 of a core die (R596). -/
def Mach.coreDown (m : Mach) (c : ModeCtl) (d : Nat) : Mach :=
  let b := mget {} m.flt.blk (dieKey d)
  let m := m.setBlk (dieKey d) { b with level := 3 }
  let m := (dieBlks d).foldl (fun (m : Mach) t => m.isolate c t) m
  ((List.range 12).filter fun k => decide ((chsetDies k).1 = d ∨ (chsetDies k).2 = d)).foldl (fun (m : Mach) k => m.isolate c (blkTile .chset k)) m

/-- Level 3 of a block: its die (R590, R596). -/
def Mach.dieDown (m : Mach) (c : ModeCtl) (t : Nat) : Mach :=
  let m := match tileBlk t, tileDie t with
    | (.pgroup, g), _ => (List.range 16).foldl (fun (m : Mach) k => m.isolate c (blkTile .pgroup (16 * (g / 16) + k))) m
    | _, some d => m.coreDown c d
    | _, none => m
  (m.adt 26).setLevel t { m.cont t with level := 3 }

/-- Whether every channel of the pair of reaches of channel n has failed (R594). -/
def Mach.pairFailed (m : Mach) (n : Nat) : Bool := (List.range 4).all fun k => decide (m.rd O.fltChState (n / 4 * 4 + k) = 1)

/-- Level 1 (R590): the block is reset and restarts; a channel set goes on without the channel that failed (R594). A record of another class than INTERPOSER
names no channel: DEDUCED, the set goes on with all of them (log entry 186). -/
def Mach.restartBlk (m : Mach) (c : ModeCtl) (t cls detail : Nat) : Mach :=
  let b := m.cont t
  match tileBlk t with
  | (.chset, k) =>
    let m := (m.adt 24).setLevel t { b with level := 1, stableAt := some m.ns }
    if cls ≠ 0x06 ∨ chanSet detail ≠ some k then m
    else
      let m := (m.wr O.fltChState detail 1).chanLose c detail true
      if m.pairFailed detail then m.isolate c t else m
  | _ => ((m.adt 24).setLevel t { b with level := 1, resetting := true, restart := m.ranIn t }).blkDown c t

/-- A block placed at a level. -/
def Mach.toLevel (m : Mach) (c : ModeCtl) (t lvl cls detail : Nat) : Mach :=
  match lvl with
  | 1 => m.restartBlk c t cls detail
  | 2 => m.isolate c t
  | _ => m.dieDown c t

/-! Deciding (R585, R586, R588). -/

/-- Level of the block or core die of a record; a shore die has none (R584, R596). -/
def Mach.keyLevel (m : Mach) (r : FltRec) : Nat :=
  if r.tile = 0xFFFF ∧ 4 ≤ r.detail then 0 else (mget {} m.flt.blk (fltKey r.tile r.detail)).level

/-- The highest level a block can be placed at: none of Lantern's islands is contained, and a channel set stops at 2. -/
def topLevel (tile : Nat) : Nat :=
  if tile = 0xFFFF then 3 else match (tileBlk tile).1 with | .lantern => 0 | .chset => 2 | _ => 3

/-- What a record does: the level to place its block at, if any, and the event (R586). -/
def Mach.verdictOf (m : Mach) (r : FltRec) : Option Nat × Nat :=
  let lvl := m.keyLevel r
  if r.init = 0 ∨ r.suppressed ∨ (r.tile = 0xFFFF ∧ 4 ≤ r.detail) then (none, 5)
  else if topLevel r.tile ≤ lvl then (none, 5)
  else if lvl = 0 then (some (min r.init (topLevel r.tile)), 0)
  else (some (lvl + 1), 1)

/-- A record in the log (R606). -/
def Mach.fltLog (m : Mach) (r : FltRec) (lvl event : Nat) : Mach :=
  let flags := ofB r.suppressed + 2 * ofB r.rescan + 4 * ofB r.overflow
  let e := pack [(4, r.seq), (12, r.time), (2, r.tile), (1, r.cls), (1, lvl), (1, event), (1, flags), (2, r.detail), (8, r.arg)]
  { m.setEnt O.fltLog 0 (m.flt.logNext % 1024) e with flt.logNext := (m.flt.logNext + 1) % 1024 }

/-- A FAULT notification of a block (R605). -/
def Mach.fltNote (m : Mach) (c : ModeCtl) (tile cls lvl event seq : Nat) : Mach :=
  let fn := if tile = 0xFFFF then 0xFFFF else (blkFns (tileBlk tile).1 (tileBlk tile).2).headD 0xFFFF
  let obj := if tile = 0xFFFF then 0 else O.fltBlk.key tile
  m.note c 5 fn obj (if lvl = 0 then 0 else 0x80) (fltArg tile cls lvl event seq)

/-- RESCAN records for every block left pending, in tile order (R588). -/
def Mach.rescan (m : Mach) (c : ModeCtl) : Mach :=
  (m.flt.blk.filter fun p => decide (p.2.pendLevel ≠ 0)).foldl (fun m p =>
    let m := m.setBlk p.1 { mget {} m.flt.blk p.1 with pendLevel := 0 }
    let die := 1000 ≤ p.1
    let r : FltRec := ⟨m.flt.seq, m.now, if die then 0xFFFF else p.1, 0x10, if die then p.1 - 1000 else 0, 0, false, true, false, p.2.pendLevel⟩
    ({ m with flt.seq := (m.flt.seq + 1) % 2 ^ 32 }).fltPut c r) m

/-- The oldest record decided. -/
def Mach.snuffDecide (m : Mach) (c : ModeCtl) : Mach :=
  match m.flt.queue with
  | [] => m
  | r :: rest =>
    let m := { m with flt.queue := rest }
    if r.overflow then ((m.fltLog r 0 3).fltNote c 0xFFFF 0 0 3 r.seq).rescan c
    else
      let v := m.verdictOf r
      let m := if r.tile = 0xFFFF then m else m.bump O.fltBlkCount (blkOf r.tile)
      let m := if r.init = 0 ∧ bit (m.rd O.fltPinMask) r.cls then { m with flt.pinLatch := true } else m
      let m := match v.1 with
        | none => m
        | some lvl => if r.tile = 0xFFFF then (m.adt 26).coreDown c (r.detail % 4) else m.toLevel c r.tile lvl r.cls r.detail
      let lvl := m.keyLevel r
      let m := if v.1.isSome ∧ 2 ≤ lvl then m.adtEvent c 6 (pack [(2, r.tile), (1, r.cls), (1, lvl), (4, 0)]) else m
      let m := m.fltLog r lvl v.2
      if r.suppressed then m else m.fltNote c r.tile r.cls lvl v.2 r.seq

/-- Every record that waits is decided, the oldest first. -/
def Mach.snuffAll (m : Mach) (c : ModeCtl) : Mach := m.flt.queue.foldl (fun m _ => m.snuffDecide c) m

/-! Ending containment (R600, R601, R603). -/

/-- Whether a block's tiles are ON in a mode, so that its restart can run (R603): the tile of a port group that LEAN parks is OFF. -/
def Mach.restartOn (m : Mach) (c : ModeCtl) (t : Nat) : Bool :=
  match c.mode, tileBlk t with
  | .dark, _ | .pilot, _ | .banked, _ | .quench, _ => false
  | .lean, (.pgroup, g) => !m.trn.parked.contains (fnNum .pgroup g)
  | _, _ => true

/-- Functions of a list that the mode lets run again after a restart. -/
def mayRun (c : ModeCtl) (f : Nat) : Bool := c.mode = .ebb || startMode c f

/-- What a restore still owes: the rebuild of the block's stack or the handback of its adopted share (R600). -/
def Mach.restoreOwes (m : Mach) (t : Nat) : Bool :=
  match tileBlk t with
  | (.hbm, s) => m.stackStale s
  | (.basin, v) => m.flt.handback.any fun x => x.1 = v
  | _ => false

/-- The stable period of a restored block begins once its restore owes nothing (R600). -/
def Mach.restoreSettle (m : Mach) (t : Nat) : Mach :=
  let b := m.cont t
  if b.level = 1 ∧ b.restore ∧ !b.resetting ∧ !m.restoreOwes t then m.setBlk (blkOf t) { b with stableAt := some m.ns, restore := false } else m

/-- BLOCK_RESTART_COMPLETE (R589, R590, R600, R603): the functions that ran run again, and the stable period begins; after a restore it begins
when the rebuild or handback is done too. It ends the host's reset of an HBM controller block too (R417). -/
def Mach.blkRestart (m : Mach) (c : ModeCtl) (t : Nat) : Mach :=
  let b := m.cont t
  if b.hostReset && decide (b.level < 2) && !b.resetting && m.restartOn c t then
    match tileBlk t with
    | (.hbm, s) => (m.setBlk (blkOf t) { b with hostReset := false }).stackRejoin s
    | _ => m
  else if b.level ≠ 1 ∨ !b.resetting ∨ !m.restartOn c t then m
  else
    let m := m.setBlk (blkOf t) { b with resetting := false, stableAt := if b.restore then none else some m.ns, hostReset := false, restart := [] }
    let m := match tileBlk t with
      | (.hbm, s) => m.stackRejoin s
      | _ => m
    let m := (blkFns (tileBlk t).1 (tileBlk t).2).foldl (fun m f => if m.fst f = .faulted then m.endStop c f else m) m
    let m := ((startOrder b.restart).filter (mayRun c)).foldl (fun m f => if m.fst f = .stopped then (m.beginStart c f).toRunning c f else m) m
    let m := match tileBlk t with
      | (.reach, r) => if b.restore then (List.range 128).foldl (fun (m : Mach) k => m.postPort (128 * r + k) (m.rd O.bpLinkState (128 * r + k))) m else m
      | (.basin, v) => if m.server v = v then m else { m with flt.handback := mset 0 m.flt.handback v (m.server v + 1) }
      | _ => m
    m.restoreSettle t

/-- The restarts of level 1 that wait among a list of blocks run, as part of a transition that switches their tiles on (R603). -/
def Mach.restartsDue (m : Mach) (c : ModeCtl) (l : List Nat) : Mach := l.foldl (fun m k => m.blkRestart c k) m

/-- The blocks whose containment is at level 1. -/
def Mach.atLevel1 (m : Mach) : List Nat := (m.flt.blk.filter fun p => decide (p.1 < 1000 ∧ p.2.level = 1)).map (·.1)

/-- No function of a block at level 1 is to be started again: the transition has stopped them all (Table 3.6, step 9). -/
def Mach.startNone (m : Mach) (l : List Nat) : Mach := l.foldl (fun m k => m.setBlk k { m.cont k with restart := [] }) m

/-- CONTAINMENT_END (R600): FLT-STABLE after the restart with no further fault. -/
def Mach.containEnd (m : Mach) (c : ModeCtl) (t : Nat) : Mach :=
  let b := m.cont t
  match b.stableAt with
  | none => m
  | some at_ =>
    if b.level ≠ 1 ∨ b.resetting then m
    else
      let m := m.reach (at_ + 1000 * m.rd O.fltStable)
      let m := m.setLevel t { endedAt := some m.ns, pendLevel := b.pendLevel }
      m.fltNote c (blkOf t) 0 0 2 0

/-- Containment keys that a FLT-RESTORE names: a die's blocks, its channel sets to dies in service, and itself; a basin with its mill group; or one
block. A block at level 3 names its die (Table 20.2). A die that is not at level 3 names nothing to restore. -/
def Mach.restoreKeys (m : Mach) (arg : Nat) : List Nat :=
  let core := fun d =>
    (dieBlks d ++ ((List.range 12).filter fun k =>
      let p := chsetDies k
      let o := if p.1 = d then p.2 else p.1
      decide (p.1 = d ∨ p.2 = d) && decide ((mget {} m.flt.blk (dieKey o)).level < 2)).map (blkTile .chset ·)) ++ [dieKey d]
  if 0xFFF0 ≤ arg then (if arg ≤ 0xFFF3 ∧ 2 ≤ (mget {} m.flt.blk (dieKey (arg - 0xFFF0))).level then core (arg - 0xFFF0) else [])
  else if 441 < arg then []
  else
    match (m.cont arg).level, tileBlk arg, tileDie arg with
    | 3, (.pgroup, g), _ => (List.range 16).map fun k => blkTile .pgroup (16 * (g / 16) + k)
    | 3, _, some d => core d
    | _, (.basin, v), _ => [blkTile .basin v, blkTile .mill v]
    | _, (.mill, v), _ => [blkTile .basin v, blkTile .mill v]
    | _, _, _ => [blkOf arg]

/-- One block begins its restore (R600). -/
def Mach.restore1 (m : Mach) (c : ModeCtl) (k : Nat) : Mach :=
  let b := mget {} m.flt.blk k
  if 1000 ≤ k then m.setBlk k { pendLevel := b.pendLevel }
  else
    let m := m.setLevel k { b with level := 1, resetting := true, restore := true, stableAt := none }
    match tileBlk k with
    | (.chset, n) => ((chsetChans n).foldl (fun m x => m.wr O.fltChState x 0) m).relaySettle c
    | _ => m

/-- FLT_RESTORE (R600). -/
def Mach.restore (m : Mach) (c : ModeCtl) (arg : Nat) : Mach :=
  let keys := (m.restoreKeys arg).filter fun k => decide (2 ≤ (mget {} m.flt.blk k).level)
  let busy := keys.any fun k => k < 1000 && m.restoreOwes k
  if keys = [] then m.st .range
  else if busy then m.st .busy
  else (keys.foldl (fun m k => m.restore1 c k) m).st .deferred

/-- HANDBACK_COMPLETE (R601): the server has no operation of the share in flight; its dirty records are written to both copies and leave its eddy,
and the share is its own basin's again. -/
def Mach.handback (m : Mach) (v : Nat) : Mach :=
  let s := m.server v
  if !(m.flt.handback.any fun x => x.1 = v) || (m.ifts s).any (fun p => decide (m.shareOf p.2.key = v)) then m
  else
    let m := (m.waysOf s (· = v)).foldl (fun m p =>
      let m := if p.2.dirty then (m.copiesOf v).foldl (fun m k => { m with dp.hbm := mset 0 m.dp.hbm (k * 2 ^ 32 + p.2.slot) p.2.rec_ }) m else m
      m.setWay p.1 none) m
    ((({ m with flt.handback := m.flt.handback.filter fun x => x.1 ≠ v }).wr O.fltBasinServer v v).release (fnNum .basin v)).restoreSettle (blkTile .basin v)

/-- Shares whose records a pair of stacks holds. -/
def pairShares (s : Nat) : List Nat := stackBasins s ++ stackBasins (partner s)

/-- When the rebuild of a stack is over at the earliest (R598): 8.25 GiB at FLT-REBUILD-RATE as it stands (log entry 188). -/
def Mach.rebuildEnd (m : Mach) (s : Nat) : Nat := mget 0 m.flt.rebuildAt s + 8250000000 / m.rd O.fltRebuildRate

/-- STACK_REBUILD_COMPLETE (R598, R599): the stale stack holds what its partner holds; where neither held a current copy, its shares are empty. -/
def Mach.rebuilt (m : Mach) (c : ModeCtl) (s : Nat) : Mach :=
  if !m.stackStale s || m.stackLost s then m
  else
    let pair := mget false m.flt.lostPair (s % 4)
    if !pair ∧ m.stackLost (partner s) then m
    else
      let m := m.reach (m.rebuildEnd s)
      let mine := stackBasins s
      let hbm : Map Nat := m.dp.hbm.filter fun p => !((pairShares s).contains (p.1 % 2 ^ 32 / 2 ^ 24))
      let m := if pair then
          let m := { m with dp.hbm := hbm, flt.lostPair := mset false m.flt.lostPair (s % 4) false }
          (pairShares s).foldl (fun m b =>
            let v := m.server b
            let m := (m.waysOf v (· = b)).foldl (fun m p => m.setWay p.1 none) m
            (m.setBasin v { m.basin v with recount := 1 }).wr O.iftRecount v 1) m
        else
          (m.dp.hbm.map (·.1 % 2 ^ 32)).eraseDups.foldl (fun m g =>
            let b := g / 2 ^ 24
            if !(pairShares s).contains b then m
            else
              let toward := if mine.contains b then 0 else 1
              { m with dp.hbm := mset 0 m.dp.hbm (toward * 2 ^ 32 + g) (mget 0 m.dp.hbm ((1 - toward) * 2 ^ 32 + g)) }) m
      let m := ({ m with flt.rebuild := mset false m.flt.rebuild s false }).wr O.fltRebuildDone s 0x210000000
      (m.fltNote c (blkTile .hbm s) 0 (m.cont (blkTile .hbm s)).level 4 0).restoreSettle (blkTile .hbm s)

/-! Acknowledging (R588, R604). -/

/-- FLT-ACK with argument 0. -/
def Mach.ackOverflow (m : Mach) : Mach :=
  if m.flt.queue.any fun r => r.overflow || r.rescan then m.st .busy else (m.wr O.fltOverflowLatch 0 0).st .ok

/-- FLT-ACK with argument 1. -/
def Mach.ackPin (m : Mach) : Mach := ({ m with flt.pinLatch := false }).st .ok

/-! Host resets (Table 3.11). -/

/-- A block reset by the host: contents cleared, functions STOPPED; one that is contained keeps its functions FAULTED. What awaits a reset basin is settled
under R341 (R354). A stack counts as lost until its controller runs again, and then rejoins (R417). -/
def Mach.resetOne (m : Mach) (c : ModeCtl) (t : Nat) : Mach :=
  let m := (blkFns (tileBlk t).1 (tileBlk t).2).reverse.foldl (fun m f => m.resetHalt c f) m
  match tileBlk t with
  | (.hbm, s) => if m.stackLost s then m else (m.stackWipe s).setBlk (blkOf t) { m.cont t with hostReset := true }
  | (.chset, k) => (chsetChans k).foldl (fun m n => if m.rd O.fltChState n = 1 then m.wr O.fltChState n 0 else m) (m.blkWipe c t)
  | _ => m.blkWipe c t

/-- RESET_BLOCK (R102). -/
def Mach.resetBlock (m : Mach) (c : ModeCtl) (t : Nat) : Mach := (m.resetOne c t).st .deferred

/-- RESET_DIE (R102): 0 to 3 a core die, 16 to 23 shore die 0 to 7. -/
def Mach.resetDie (m : Mach) (c : ModeCtl) (d : Nat) : Mach :=
  let l := if d < 4 then dieBlks d else (List.range 16).map fun k => blkTile .pgroup (16 * (d - 16) + k)
  (l.foldl (fun m t => m.resetOne c t) m).st .deferred

end Sys2Proof.Machine
end

