-- ==== Sys2Proof/Machine/Mode.lean ====
section
/-! DEFINITION. Modes (spec 03): requests and their judging, every transition of Table 3.2, parking, EBB, BANKED, QUENCH, start-up and loss of the
Lantern rail, and the assembly reset. -/

namespace Sys2Proof.Machine

/-! Entering a mode. -/

/-- Outside EBB no frame counts as admitted before it (R92, R217). -/
def Mach.ebbForget (m : Mach) : Mach :=
  m.dp.pkts.foldl (fun m p => match p.2 with | some x => if x.ebb then m.setPkt p.1 (some { x with ebb := false }) else m | none => m) m

/-- A mode is entered (R71): its time is recorded, MODE-CHANGE sent and the Adtieb record committed (R618); the working trim image is lost on
leaving TRIM (R613); a TAP instruction that the mode does not allow is BYPASS (Table 19.6); the creation budgets are brought up to now where LEAN-MILL-HALF may change their rate (R349). -/
def enterMode (c : ModeCtl) (m : Mach) (toward : Mode) : ModeCtl × Mach :=
  let c' := { c with mode := toward }
  let m := if c.mode = .lean ∨ toward = .lean then m.crbSettle c else m
  let m := if c.mode = .trim then { m with trm.work := none, trm.measuring := none } else m
  let m := (if c.mode = .ebb then m.ebbForget else m).tapFit c'
  (c', ((m.wr O.modeEntered 0 m.now).note c' 0 0xFFFF O.modeCur.key 0 (pack [(1, c.mode.code), (5, 0)])).adtCommit c')

/-- The last step of a transition: MODE-TARGET reads MODE-CUR again (R71). -/
def arrive (c : ModeCtl) (m : Mach) (toward : Mode) : ModeCtl × Mach := enterMode { c with target := toward, trans := none } m toward

/-- Whether a function is a port group, or a parse-program binding. -/
def isGroup (f : Nat) : Bool := match fnKind f with | some (.pgroup, _) => true | _ => false

/-- Whether a function is a parse-program binding. -/
def isBinding (f : Nat) : Bool := match fnKind f with | some (.binding, _) => true | _ => false

/-- Held packets, but for those already released, are dropped where the hold buffer does not operate (R90, log entry 45). -/
def Mach.dropHeld (m : Mach) (c : ModeCtl) : Mach := m.dropPkts c 0x13 fun x => x.stage = .held && !x.released

/-- Parking ends (R81). -/
def Mach.unpark (m : Mach) : Mach := { m with trn.parked := [] }

/-- Every breakout port is DOWN in a mode where no port group runs (R183). -/
def Mach.portsDown (m : Mach) (c : ModeCtl) : Mach :=
  (m.com.objs.filter fun p => decide (p.1 >>> 24 = 0x40 ∧ 0x1000 ≤ (p.1 >>> 8) % 65536 ∧ (p.1 >>> 8) % 65536 < 0x1400 ∧ p.1 % 256 = 2)).foldl
    (fun m p => m.setLink c ((p.1 >>> 8) % 65536 - 0x1000) 0) m

/-- Every function stopped and every port DOWN, where a mode runs none of them. -/
def Mach.shutAll (m : Mach) (c : ModeCtl) : Mach := (m.haltAll c fun _ => true).portsDown c

/-- The core, shore and HBM rails as an entry to PILOT leaves them (R632): enables low, rails off. -/
def Mach.railsOff (m : Mach) : Mach := (List.range 10).foldl (fun m r => m.wr O.railState r 0) (m.wr O.railEn 0 0)

/-- The four core rails commanded to a voltage and read back (R65, R80). DESIGN CHOICE (log entries 152 and 153): a rail whose loop is FAILED is commanded
too, and VCORE-START is taken as it reads, be it outside VCORE-MIN to VCORE-MAX, until the first interval brings the setpoint into that range. -/
def Mach.coreRails (m : Mach) (mv : Nat) : Mach :=
  (List.range 4).foldl (fun m d =>
    ((((m.setAvs d { m.avs d with acked := mv, moved := false, below := 0, at_ := none }).wr O.coreVcoreSet d mv).wr O.coreVcoreRead d mv).emit (.avs d mv))) m

/-- The loops of all dies take over what they steer by. -/
def Mach.avsStart (m : Mach) (c : ModeCtl) : Mach := (List.range 4).foldl (fun m d => m.avsLatch c d) m

/-- Objects outside the Lantern areas at their defaults, and the table contents of the tiles cleared (R109). -/
def Mach.coreDefaults (m : Mach) : Mach :=
  { m with
    com.objs := m.com.objs.filter fun p => lanternArea (p.1 / 2 ^ 24 % 256)
    com.tabs := m.com.tabs.filter fun p => lanternArea (p.1 / 2 ^ 56)
    com.pend := m.com.pend.filter fun p => lanternArea (if p.1 < 2 ^ 32 then p.1 / 2 ^ 24 else p.1 / 2 ^ 56) }

/-- Entry to PILOT (R66, R86, R413, R632): tiles and rails off, the data plane and its key gone, pace objects at their defaults. -/
def enterPilot (c : ModeCtl) (m : Mach) : ModeCtl × Mach :=
  let m := (m.shutAll c).unpark
  let m := { m with dp := {}, sec.reserve := none }
  arrive c ((((m.eraseSlots c [65]).paceDefaults).railsOff).wr O.ebbDrained 0 0) .pilot

/-- Leaving PROBE (R576, R578): a wick of level 2 or 4 ends. -/
def leaveProbe (c : ModeCtl) (m : Mach) : Mach :=
  if c.mode ≠ .probe then m
  else
    let m := { m with dbg.scanned := false, dbg.scanEnd := false }
    match m.dbg.wick with
    | some w => if w.level = 2 ∨ w.level = 4 then { m.wickEnd c 8 0xFF with dbg.scanEnd := false } else m
    | none => m

/-- KINDLE starts every HBM controller anew: no reset of the host's is in progress. -/
def Mach.resetsEnd (m : Mach) : Mach :=
  m.flt.blk.foldl (fun m p => if p.2.hostReset then m.setBlk p.1 { p.2 with hostReset := false } else m) m

/-- KINDLE begins (Table 3.6, R564, R611, R631): the reserve is drawn, the trim set read, the rails enabled, every function STOPPED. -/
def beginKindle (c : ModeCtl) (m : Mach) (goal : Mode) (t : Trans) : ModeCtl × Mach :=
  let m := (leaveProbe c m).reserveDraw
  let m := { (m.shutAll c).unpark.resetsEnd with dp := {} }
  let m := ((m.wr O.kindleResult 0 0).adt 3).trimCheck c 2
  let m := (List.range 4).foldl (fun m d => (m.wr O.corePaceDeficit d 0).setAvs d { m.avs d with ceil := none, deficit := none }) m
  let m := (List.range 10).foldl (fun m r => m.wr O.railState r 1) (m.wr O.railEn 0 7)
  let m := m.coreRails (m.rd O.vcoreStart)
  enterMode { c with target := goal, trans := some t } (m.wr O.ebbDrained 0 0) .kindle

/-! LIT, LEAN and GUARD. -/

/-- Whether GUARD is called for (R77). -/
def Mach.guardDue (m : Mach) : Bool := m.anyContained || m.rdB O.fltOverflowLatch

/-- The flow clock runs again (R94). -/
def Mach.clockResume (m : Mach) : Mach :=
  match m.trn.suspendAt with
  | some t => { m with trn.suspendAt := none, trn.suspended := m.trn.suspended + (m.ns - t) }
  | none => m

/-- The flow clock stops (R94, R318). -/
def Mach.clockStop (m : Mach) : Mach := if m.trn.suspendAt.isSome then m else { m with trn.suspendAt := some m.ns }

/-- The first tile of a port group's function. -/
def groupTile (f : Nat) : Nat := match fnKind f with | some (.pgroup, n) => blkTile .pgroup n | _ => 441

/-- Entry to LIT: every parked port group is started (R81), once a restart that waited for its tile has run (R603). -/
def enterLit (c : ModeCtl) (m : Mach) : ModeCtl × Mach :=
  let (c, m) := arrive c (m.clockResume.wr O.ebbDrained 0 0) .lit
  let l := m.trn.parked
  (c, (m.unpark.restartsDue c (l.map groupTile)).devStart c l)

/-- Whether the landed LEAN-PARK names a function (R81). -/
def Mach.parkNames (m : Mach) (f : Nat) : Bool :=
  match fnKind f with
  | some (.pgroup, n) => if n < 64 then bit (m.rd O.leanParkLo) n else bit (m.rd O.leanParkHi) (n - 64)
  | _ => false

/-- Entry to LEAN (R81): the parking objects land, running groups that the mask names are parked, and parked groups that it no longer names are
started. -/
def enterLean (c : ModeCtl) (m : Mach) : ModeCtl × Mach :=
  let (c, m) := arrive c (m.clockResume.wr O.ebbDrained 0 0) .lean
  let m := ((m.land c O.leanParkLo 0).land c O.leanParkHi 0).land c O.leanMillHalf 0
  let go := m.trn.parked.filter fun f => !m.parkNames f
  let stop := m.liveFns.filter fun f => isGroup f && m.parkNames f && decide (m.fst f = .running)
  let m := { m with trn.parked := m.trn.parked.filter (m.parkNames ·) }
  let m := (m.restartsDue c (go.map groupTile)).devStart c go
  let m := stop.foldl (fun m f => m.devStop c f) m
  (c, { m with trn.parked := m.trn.parked ++ stop })

/-- Entry to GUARD with its return mode (R77, R78). -/
def enterGuard (c : ModeCtl) (m : Mach) (back : Mode) : ModeCtl × Mach :=
  arrive { c with ret := back } (m.clockResume.wr O.ebbDrained 0 0) .guard

/-- Entry to LIT or LEAN, or to GUARD where containment or an overflow stood at the request (R78). -/
def enterService (c : ModeCtl) (m : Mach) (guard : Bool) (goal : Mode) : ModeCtl × Mach :=
  if guard then enterGuard c m goal else if goal = .lean then enterLean c m else enterLit c m

/-- What stood at a request for LIT or LEAN is remembered until the entry (R78). -/
def Mach.guardMark (m : Mach) : Mach := { m with trn.guardAsk := m.guardDue }

/-- GUARD entered and left as R77 says, and the assembly reset that follows the end of level 4 in PROBE (R581). A request for LIT in
progress in LEAN becomes MODE-RETURN; a request for EBB or BANKED that waits goes on in GUARD. -/
def settleMode (c : ModeCtl) (m : Mach) : ModeCtl × Mach :=
  if m.dbg.scanEnd then
    if c.mode = .probe ∧ c.trans = none then beginKindle c m .primed .assembly
    else (c, { m with dbg.scanEnd := false })
  else
    match c.mode, m.guardDue, c.trans with
    | .lit, true, some (.stops _) => enterMode { c with ret := .lit } m .guard
    | .lean, true, some (.stops _) => enterMode { c with ret := .lean } m .guard
    | .lit, true, _ => enterGuard c m .lit
    | .lean, true, t => enterGuard c m (if t = some .toLit then .lit else .lean)
    | .guard, false, none => if c.ret = .lean then enterLean c m else enterLit c m
    | _, _, _ => (c, m)

/-- Powered core dies that do not read TRACKING at the raised target, which an interval must have taken over (R64, R76). -/
def Mach.lateDies (m : Mach) (c : ModeCtl) : List Nat :=
  (List.range 4).filter fun d => m.diePowered c d && decide (m.avsState c d ≠ 0 ∨ (m.avs d).tgt ≠ m.paceTarget c)

/-- PACE-DEFICIT for a die that is late (R76): its deficit time accumulates only while it is AT-CEILING (R62). -/
def Mach.lateNote (m : Mach) (c : ModeCtl) (d : Nat) : Mach :=
  (if m.avsState c d = 3 then m.setAvs d { m.avs d with deficit := some ((m.avs d).deficit.getD m.ns) } else m).deficitNote c d

/-- LEAN_TO_LIT_ENTRY (R76): LIT is entered once every powered core die reads TRACKING, or when the time is over, with PACE-DEFICIT
for the dies that do not. -/
def leanToLit (c : ModeCtl) (m : Mach) (timeout : Bool) : ModeCtl × Mach :=
  if c.trans ≠ some .toLit ∨ (!timeout ∧ m.lateDies c ≠ []) then (c, m)
  else
    let m := if timeout then (m.lateDies c).foldl (fun m d => m.lateNote c d) (m.reach (m.trn.acceptAt + 30 * m.rd O.avsInterval * 1000)) else m
    enterLit c m

/-! PRIMED and PROBE. -/

/-- Entry to PRIMED from EBB: every function but port groups is stopped. DESIGN CHOICE (log entry 155): Table 3.8 keeps the port groups, and Table 3.2 says
"all functions stopped"; Table 3.8, which is about functions, is followed. -/
def enterPrimed (c : ModeCtl) (m : Mach) : ModeCtl × Mach :=
  arrive c (((m.haltAll c fun f => !isGroup f).unpark).wr O.ebbDrained 0 0) .primed

/-- Entry to PROBE (R579). -/
def enterProbe (c : ModeCtl) (m : Mach) : ModeCtl × Mach :=
  arrive c { (m.shutAll c) with dbg.scanned := false } .probe

/-! Transitions that stop functions (R91, R124). -/

/-- The functions that a transition to a mode stops, in stop order (Table 3.8): entries to PRIMED leave the port groups running. -/
def Mach.goalStops (m : Mach) (goal : Mode) : List Nat :=
  (startOrder (m.liveFns.filter fun f => goal ≠ .primed || !isGroup f)).reverse

/-! EBB (R92, R93). -/

/-- Write-back of every dirty way that has none under way (R92). -/
def Mach.ebbWrites (m : Mach) (c : ModeCtl) : Mach :=
  if c.mode ≠ .ebb then m
  else m.dp.eddy.foldl (fun m p => match p.2 with | some w => if w.dirty ∧ w.wb = 0 then (m.writeBackOrdered w.slot).2 else m | none => m) m

/-- Entry to EBB: bindings stop, what runs is remembered, flow clocks stop, write-back begins, and the hold buffer empties (R90). -/
def enterEbb (c : ModeCtl) (m : Mach) (goal : Mode) (t : Option Trans) : ModeCtl × Mach :=
  let m := (m.clockStop).wr O.ebbDrained 0 0
  let ran := m.liveFns.filter fun f => decide (m.fst f = .running ∨ m.fst f = .starting)
  let stop := ran.filter isBinding
  let m := { m with trn.ran := ran, trn.devStopped := stop, trn.hostStopped := [], trn.drained := false, trn.limitOver := false }
  let c := if c.mode = .guard then c else { c with ret := c.mode }
  let (c, m) := enterMode { c with target := goal, trans := t } m .ebb
  let m := stop.foldl (fun m f => m.devStop c f) ((m.dropHeld c).admitFifo)
  (c, m.ebbWrites c)

/-- Entry to QUENCH (R100, R541, R542): no function runs and the requester's key is kept. -/
def enterQuench (c : ModeCtl) (m : Mach) : ModeCtl × Mach :=
  let on := coreOn c m
  let ses := m.trn.quenchSession
  let m := { m with trn.quenchCore := on, trn.quenchKey := true, trn.quenchCopy := m.sesKey ses, dbg.scanEnd := false, dbg.scanned := false }
  let m := ((m.shutAll c).dropHeld c).unpark
  let m := (m.adt 5).adtEvent c 2 (pack [(1, m.rd O.quenchTarget), (7, 0)])
  enterMode { c with target := .quench, trans := some (.quench false) } (m.wr O.ebbDrained 0 0) .quench

/-- A transition that stops functions goes on (R91, R124): the mode is entered once they have all stopped. EBB is entered once no batch holds a
binding that it has yet to start. -/
def stopsOn (c : ModeCtl) (m : Mach) (goal : Mode) : ModeCtl × Mach :=
  match goal with
  | .ebb => if m.liveFns.any fun f => isBinding f && m.heldStill f then (c, m) else enterEbb c m .ebb none
  | .banked => if m.liveFns.any fun f => isBinding f && m.heldStill f then (c, m) else enterEbb c m .banked (some .drain)
  | _ =>
    let l := m.goalStops goal
    let m := l.foldl (fun m f => m.stopStep c f) m
    if l.all m.stopDone then
      match goal with
      | .primed => enterPrimed c m
      | .probe => enterProbe c m
      | .quench => enterQuench c m
      | _ => enterPilot c m
    else ({ c with target := goal, trans := some (.stops goal) }, m)

/-- A request whose transition stops functions (Table 3.2). -/
def beginStops (c : ModeCtl) (m : Mach) (goal : Mode) : ModeCtl × Mach :=
  stopsOn { c with target := goal, trans := some (.stops goal) } m goal

/-- The transition in progress that waits for functions goes on. -/
def stopsSettle (c : ModeCtl) (m : Mach) : ModeCtl × Mach :=
  match c.trans with
  | some (.stops goal) => stopsOn c m goal
  | _ => (c, m)

/-- Whether a message carries work that R92 drains: a packet's query, operation or verdict, or an event. -/
def Msg.drains : Msg → Bool
  | .query .. | .result .. | .park .. | .verdict .. | .event .. => true
  | _ => false

/-- Whether the drain is complete (R92, R93): nothing in a reach, channel, queue, lane, sluice, basin, transmit FIFO,
export buffer or collector queue (R533), and no dirty way. -/
def Mach.drainedNow (m : Mach) : Bool :=
  m.dp.pkts.isEmpty && m.dp.eqs.isEmpty && (m.dp.ports.all fun p => p.2.txf.isEmpty) &&
    (m.dp.rch.all fun p => p.2.mcq.isEmpty && p.2.repl.isNone) && (m.dp.chans.all fun p => !p.2.msgs.any Msg.drains && p.2.flight.isEmpty) &&
    m.dp.xbuf.isEmpty && (m.dp.cols.all fun p => p.2.q.isEmpty) &&
    (m.dp.slu.all fun p => p.2.inbox.isEmpty && p.2.flow.isEmpty && p.2.age.isEmpty && p.2.exp.isEmpty && p.2.maint.isEmpty && p.2.busy.isEmpty) &&
    (m.dp.bsn.all fun p => p.2.inPkt.isEmpty && p.2.inOther.isEmpty && p.2.ift.isEmpty) &&
    (m.dp.eddy.all fun p => match p.2 with | some w => !w.dirty && w.wb = 0 | none => true) && m.dp.wbq.isEmpty

/-- EBB_DRAINED (R93): all the work is done. -/
def ebbDrained (c : ModeCtl) (m : Mach) : Mach :=
  if c.mode = .ebb ∧ m.drainedNow then { m.wr O.ebbDrained 0 1 with trn.drained := true } else m

/-- Events a sluice still holds are refused under 0x70 (R93). -/
def Mach.sluiceEmpty (m : Mach) (c : ModeCtl) (v : Nat) : Mach :=
  let m := m.ctxsEnd c v
  let l := (m.slu v).events
  let m := (m.setSlu v (m.slu v).emptied).dropMills c v
  l.foldl (fun m e => (m.refuseEv c v e).posted c e) m

/-- References in VOQs counted under 0x13 as R465 counts them: against the egress port, a multicast one against the ingress port. -/
def Mach.voqsCounted (m : Mach) (c : ModeCtl) : Mach :=
  m.dp.voqs.foldl (fun m q =>
    let n := q.1 % 8256
    q.2.q.foldl (fun m v =>
      m.rsn c 0x13 (if n < 8192 then n / 8 else match m.pkt v.pkt with | some x => x.bport | none => 0) (n % 8)) m) m

/-- Everything still queued is dropped under 0x13 (R93): packets, and frames on their way and in egress queues, with the messages about them;
port states stay. -/
def Mach.framesEmpty (m : Mach) (c : ModeCtl) : Mach :=
  let sent := fun (x : Pkt) => x.refs ≠ 0 || x.done ≠ []
  let m := (m.voqsCounted c).dropPkts c 0x13 fun x => !sent x
  let m := m.dp.pkts.foldl (fun m p => match m.pkt p.1 with | some x => m.forget c p.1 x | none => m) m
  let chs := m.dp.chans
  let kept := chs.filterMap fun p =>
    match p.2.msgs.filter fun x => match x with | .portState .. => true | _ => false with
    | [] => none
    | l => some (p.1, ({ msgs := l, last := p.2.last } : ChSt))
  let m := { m with dp.chans := kept, dp.voqs := [], dp.lanes := [], dp.out := [], dp.flags := [] }
  let m := chs.foldl (fun m p => p.2.flight.foldl (fun m x => m.rsn c 0x13 x.inPort x.tc) m) m
  let m := m.dp.rch.foldl (fun m p =>
    let l := p.2.mcq ++ (match p.2.repl with | some x => [x.copy] | none => [])
    let m := m.setRch p.1 { m.rch p.1 with mcq := [], repl := none }
    l.foldl (fun m x => (match x.cell with | some i => m.cellFree c p.1 i 42 | none => m).rsn c 0x13 x.inPort x.tc) m) m
  let m := m.dp.ports.foldl (fun m p => p.2.txf.foldl (fun m x => m.copyDrop c p.1 x 0x13) (m.setPort p.1 { m.port p.1 with txf := [] })) m
  let m := (m.dp.eqs.map fun p => m.lifPort (p.1 / 8)).eraseDups.foldl (fun m b => m.egressFlush c b 0x13) m
  m.dp.bsn.foldl (fun m p =>
    let b := m.basin p.1
    m.setBasin p.1 { b with inPkt := [], pendCreate := [], ift := b.ift.filter fun q => match q.2 with | some x => !x.op.isPacket | none => false }) m

/-- Events on their way refused under 0x70, each by the basin it was for (R93). -/
def Mach.transitEmpty (m : Mach) (c : ModeCtl) : Mach :=
  let chs := m.dp.chans
  let left := chs.filterMap fun p =>
    let x : ChSt := { p.2 with msgs := p.2.msgs.filter fun x => match x with | .event .. => false | _ => true }
    if x == {} then none else some (p.1, x)
  let m := { m with dp.chans := left }
  chs.foldl (fun m p => p.2.msgs.foldl (fun m x => match x with | .event b e => (m.refuseEv c b e).posted c e | _ => m) m) m

/-- Every queued event refused (R93). -/
def Mach.eventsEmpty (m : Mach) (c : ModeCtl) : Mach := (List.range 16).foldl (fun m v => m.sluiceEmpty c v) (m.transitEmpty c)

/-- Whether a return from EBB is in progress (R93). -/
def ModeCtl.returning (c : ModeCtl) : Bool := match c.trans with | some (.ebbReturn _) => true | _ => false

/-- EBB_LIMIT_EXPIRY (R93), unless a return is in progress: the remaining functions are stopped in stop order, queued frames dropped and queued events refused: twice, since a
refused link posts one more event (R372). -/
def ebbLimit (c : ModeCtl) (m : Mach) : Mach :=
  if c.mode ≠ .ebb ∨ m.trn.drained ∨ m.trn.limitOver ∨ c.returning then m
  else
    let m := m.reach ((m.trn.suspendAt.getD m.ns) + m.rd O.ebbLimit * 1000000)
    let left := m.liveFns.filter fun f => decide (m.fst f = .running ∨ m.fst f = .starting ∨ m.fst f = .stopping)
    let m := { m with trn.limitOver := true, trn.devStopped := m.trn.devStopped ++ left.filter fun f => m.trn.ran.contains f && !m.trn.devStopped.contains f }
    let m := (m.eventsEmpty c).eventsEmpty c
    (((m.framesEmpty c).flareDown c).haltAll c fun _ => true).ebbWrites c

/-- The functions that a return from EBB or BANKED starts again (R93, R97). -/
def Mach.comeBack (m : Mach) (l : List Nat) : List Nat :=
  l.filter fun f => m.trn.ran.contains f && !m.trn.hostStopped.contains f && decide (m.fst f ≠ .faulted) && !m.trn.parked.contains f

/-- A request for LIT or LEAN in EBB (R93): what the device stopped starts again in start order, after a stop in progress (R91). -/
def beginReturn (c : ModeCtl) (m : Mach) (goal : Mode) : ModeCtl × Mach :=
  let m := m.guardMark
  let l := m.comeBack m.trn.devStopped
  let m := l.foldl (fun m f => m.setFn f { m.fn f with stopNext := false }) m
  ({ c with target := goal, trans := some (.ebbReturn goal) }, m.devStart c l)

/-- EBB_RETURN (R93): the mode is entered when the last of them has reached RUNNING. -/
def ebbReturn (c : ModeCtl) (m : Mach) : ModeCtl × Mach :=
  match c.trans with
  | some (.ebbReturn goal) =>
    if (m.comeBack m.trn.devStopped).any fun f => decide (m.fst f = .starting) || (m.fn f).startNext then (c, m) else enterService c m m.trn.guardAsk goal
  | _ => (c, m)

/-! BANKED (Tables 3.9 and 3.10). -/

/-- Every channel of every stack in self-refresh (R406). -/
def Mach.stacksSleep (m : Mach) : Mach := (List.range 256).foldl (fun m k => if m.stackLost (k / 32) then m else m.srEnter k) m

/-- Every channel of every stack out of it. -/
def Mach.stacksWake (m : Mach) : Mach :=
  (List.range 256).foldl (fun m k =>
    if m.stackLost (k / 32) then m else m.setHchan k { m.hchan k with sr := 0, srAt := m.ns, emptyAt := m.ns }) m

/-- The short retraining of every channel at the exit from BANKED (Table 3.10, R401, R402). -/
def Mach.stacksRetrained (m : Mach) (c : ModeCtl) : Mach :=
  (List.range 256).foldl (fun m k =>
    let s := k / 32
    if m.stackLost s then m
    else (((m.setHchan k { m.hchan k with trainAt := m.ns }).bump O.stkRetrains s).wr O.stkRetrainLast s m.now).pulse c (416 + s) 0x32 0) m

/-- Whether the stacks have nothing left to do: every pseudo-channel idle, and no record to be written (R96, Table 3.9). -/
def Mach.stacksIdle (m : Mach) : Bool :=
  (m.dp.pcs.all fun p => p.2.q.isEmpty && p.2.wait.isEmpty) && m.dp.wbq.isEmpty &&
    m.dp.eddy.all fun p => match p.2 with | some w => !w.dirty && w.wb = 0 | none => true

/-- Tiles that go OFF lose what they hold (R79, R240, R471): frames that came after the drain are dropped as EBB drops them (R92), and the reaches and the
confluence are empty. -/
def Mach.tilesOff (m : Mach) (c : ModeCtl) : Mach :=
  let m := m.dropPkts c 0x13 fun _ => true
  { m with dp.eddy := [], dp.chans := [], dp.voqs := [], dp.lanes := [], dp.flags := [], dp.out := [], dp.rch := [] }

/-- The counter tables of area 98 as they are stored. -/
def Mach.counterTabs (m : Mach) : Map Nat :=
  m.com.tabs.filter fun p => [O.portCnt, O.rsnCnt, O.rsnBasin, O.gecValues].any fun o => decide (p.1 / 2 ^ 32 = o.key)

/-- Counting resumes from the copy of BANKED (R518). -/
def Mach.countersBack (m : Mach) : Mach :=
  let m := m.counterTabs.foldl (fun m p => { m with com.tabs := mset 0 m.com.tabs p.1 0 }) m
  let m := m.trn.counters.foldl (fun m p => { m with com.tabs := mset 0 m.com.tabs p.1 p.2 }) m
  { m with trn.counters := [], dp.gec := [] }

/-- BANKED_ENTRY (Table 3.9), once every pseudo-channel is idle (R96): the remaining functions stop, the counters are copied, the stacks enter self-refresh,
tiles go OFF or RET and the core rails to retention. -/
def bankedEntry (c : ModeCtl) (m : Mach) : ModeCtl × Mach :=
  if c.trans ≠ some .drain ∨ !m.trn.drained ∨ !m.stacksIdle ∨ m.liveFns.any m.heldStill then (c, m)
  else
    let m := ((m.shutAll c).tilesOff c).stacksSleep
    let m := m.gecSettle c
    let m := { m with trn.copyAt := m.now, trn.counters := m.counterTabs }
    let m := (m.wr O.railEn 0 (m.rd O.railEn &&& 5)).coreRails (m.rd O.vcoreRetention)
    let m := [4, 5, 6].foldl (fun m r => m.wr O.railState r 0) m
    arrive c m .banked

/-- A request for LIT or LEAN in BANKED (Table 3.10, steps 1 and 2). -/
def beginBankedExit (c : ModeCtl) (m : Mach) (goal : Mode) : ModeCtl × Mach :=
  ({ c with target := goal, trans := some (.bankedExit goal) }, m.guardMark.wr O.railEn 0 (m.rd O.railEn ||| 2))

/-- Functions started and brought to RUNNING in start order. -/
def Mach.startNow (m : Mach) (c : ModeCtl) (l : List Nat) : Mach :=
  (startOrder l).foldl (fun m f =>
    let m := m.devStart1 c f
    if m.fst f = .starting then m.toRunning c f else m) m

/-- BANKED_EXIT_COMPLETE (Table 3.10): rails, tiles and stacks are back, the functions that ran run again, and the mode is entered. -/
def bankedExit (c : ModeCtl) (m : Mach) : ModeCtl × Mach :=
  match c.trans with
  | some (.bankedExit goal) =>
    let m := (((m.countersBack.coreRails (m.rd O.vcoreStart)).avsStart { c with mode := goal }).stacksWake).stacksRetrained c
    let m := [4, 5, 6].foldl (fun m r => m.wr O.railState r 2) m
    let m := m.startNow c (m.comeBack m.trn.ran)
    let m := m.restartsDue { c with mode := goal } m.atLevel1
    enterService { c with ret := goal } m m.trn.guardAsk goal
  | _ => (c, m)

/-! KINDLE's end. -/

/-- The windows of the tables outside the Lantern areas at their defaults (R109, Table 4.7). -/
def Mach.winDefaults (m : Mach) : Mach := { m with clk.wins := m.clk.wins.filter fun p => lanternArea (p.1 / 2 ^ 24 % 256) }

/-- Functions as step 9 of Table 3.6 leaves them: default records, FAULTED where the block is contained (log entry 15). -/
def Mach.fnsReset (m : Mach) : Mach :=
  { m with com.fns := m.com.fns.filterMap fun p => if p.2.state = .faulted then some (p.1, { state := .faulted, since := p.2.since }) else none }

/-- KINDLE_ABORT (R84). -/
def kindleAbort (c : ModeCtl) (m : Mach) (cause : KindleCause) : ModeCtl × Mach :=
  if c.mode ≠ .kindle then (c, m)
  else
    let code := match cause with | .rail => 3 | .interposer => 4 | .hbm => 5
    enterPilot c (((m.wr O.kindleResult 0 code).adt 4).adtEvent c 10 (pack [(1, code), (7, 0)]))

/-- Whether two stacks that would be mirror partners are among the tiles that failed (R84). -/
def pairFails (failed : List Nat) : Bool := (List.range 4).any fun s => failed.contains (416 + s) && failed.contains (416 + partner s)

/-- KINDLE_COMPLETE (Table 3.6, R84, R85): the data plane and every object outside Lantern at their defaults, CONFIG-MEASURE zero (R554), slot 65 and FLOW-SEED from the
reserve; restarts that waited have run (R603); the blocks of tiles that failed are reported to the snuffer and placed under containment, and KINDLE goes on. Where both stacks of a mirror pair have
failed, it aborts instead. -/
def kindleComplete (c : ModeCtl) (m : Mach) (failed : List Nat) : ModeCtl × Mach :=
  if c.mode ≠ .kindle then (c, m)
  else if pairFails failed then kindleAbort c m .hbm
  else
    let m := m.coreDefaults.fnsReset.winDefaults
    let open_ := m.ns / 100000000 * 100000000
    let m := { m with dp := { bwFirst := (open_, t96Of (m.adjAt (open_ * 65536))) } }
    let m := (List.range 256).foldl (fun m k => if m.stackLost (k / 32) then m else m.setHchan k { emptyAt := m.ns, trainAt := m.ns }) m
    let m := match m.sec.reserve with
      | some (key, seed) => ({ m with sec.reserve := none }.setSlot 65 { state := 1, key := key, loaded := m.now }).wr O.flowSeed 0 seed
      | none => m
    let l := m.atLevel1
    let m := (m.startNone l).restartsDue c l
    let m := { m with flt.rebuild := [], flt.rebuildAt := [], flt.lostPair := [], trn.suspended := m.ns, trn.suspendAt := some m.ns }
    let m := l.foldl (fun m k => m.restoreSettle k) m
    let m := (List.range 10).foldl (fun m r => m.wr O.railState r 2) m
    let m := m.avsStart c
    let m := (m.wr O.kindleResult 0 (if failed = [] then 1 else 2)).wr O.configMeasure 0 0
    let m := if failed = [] then m else (failed.foldl (fun m t => m.faultAt c t 0x0E t) m).snuffAll c
    match c.trans with
    | some (.kindle .trim) => arrive c m.trimLoad .trim
    | _ => arrive c m .primed

/-! QUENCH (R100, R541, R542). -/

/-- Whether functions may run in a mode (Table 3.8). -/
def fnsRun (mode : Mode) : Bool := mode.forwards || mode = .primed || mode = .ebb

/-- Acceptance of QUENCH (R72, R91, R124, R576): any wick ends, the transition in progress is abandoned, and QUENCH is entered once the functions have
stopped. -/
def beginQuench (c : ModeCtl) (m : Mach) (ses : Nat) : ModeCtl × Mach :=
  let m := if c.trans = some (.stops .quench) then m else { m with trn.quenchSession := ses }
  let m := if m.dbg.wick.isSome then { m.wickEnd c 9 ses with dbg.scanEnd := false } else m
  if fnsRun c.mode then beginStops c m .quench else enterQuench c m

/-- QUENCH_ZEROISE (steps 1 to 3 of R100): keys by QUENCH-TARGET (Table 18.4), other sessions, stacks and on-die memories. -/
def quenchZeroise (c : ModeCtl) (m : Mach) : ModeCtl × Mach :=
  if c.trans ≠ some (.quench false) then (c, m)
  else
    let spent := decide (m.rd O.quenchTarget = 1)
    let owned := decide (m.sec.life = .owned)
    let ks := if spent then List.range 69 else List.range 64 ++ [65]
    let hit := ks.filter fun k => decide ((m.slot k).state ≠ 0)
    let m := ks.foldl (fun m k => m.eraseSlot k) m
    let m := if spent = false ∧ owned = true ∧ (m.slot 64).state = 3 then m.setSlot 64 { m.slot 64 with state := 1 } else m
    let m := (({ m with sec.root := [] }).wr O.ownerRootFpr 0 0).wr O.secFloorOwner 0 0
    let m := if spent then (List.range 64).foldl (fun m s => m.wr O.sesEnable s 0) m
      else (List.range 63).foldl (fun m k => (m.sesDefaults (k + 1)).seqZero (k + 1)) (if owned then m.sesDefaults 0 else m)
    let m := if spent then (if m.sec.life = Life.spent then m else m.lifeTo c .spent) else if owned then m.lifeTo c .shipped else m
    let m := (List.range 64).foldl (fun m s => if s = m.trn.quenchSession then m else m.sesClose s) m
    let m := m.keystoreSettle c
    let m := hit.foldl (fun m k => m.lifeNote c 6 k (O.slot.key k)) m
    let m := m.lifeNote c 4 0xFF O.modeReq.key
    let m := if m.trn.quenchCore then { m.coreDefaults with dp := {} } else m
    ({ c with trans := some (.quench true) }, m)

/-- QUENCH_COMPLETE (step 4 of R100): the core rails are off and PILOT is entered; the copy of the key is erased (R542). -/
def quenchComplete (c : ModeCtl) (m : Mach) : ModeCtl × Mach :=
  if c.trans ≠ some (.quench true) then (c, m)
  else
    let (c, m) := enterPilot c m
    let s := m.trn.quenchSession
    let m := { m with trn.quenchKey := false, trn.quenchCopy := 0, trn.quenchCore := false }
    (c, if m.sesOn s then m else m.sesClose s)

/-! Requests (R69 to R73, R647). -/

/-- Whether Table 3.2 allows a request in a mode. -/
def modeAllows (cur req : Mode) : Bool :=
  match cur, req with
  | .pilot, .trim | .pilot, .primed | .trim, .primed | .probe, .primed => true
  | .primed, .lit | .primed, .lean | .primed, .pilot | .primed, .probe => true
  | .lit, .lean | .lit, .ebb | .lit, .banked | .lean, .lit | .lean, .ebb | .lean, .banked => true
  | .guard, .lit | .guard, .lean | .guard, .ebb | .guard, .banked => true
  | .ebb, .lit | .ebb, .lean | .ebb, .primed | .ebb, .banked | .banked, .lit | .banked, .lean | .banked, .pilot => true
  | .dark, _ => false
  | _, .quench => true
  | _, _ => false

/-- Whether a request passes through KINDLE (R73). -/
def viaKindle (cur req : Mode) : Bool :=
  (cur = .pilot && (req = .primed || req = .trim)) || ((cur = .trim || cur = .probe) && req = .primed)

/-- Whether a transition is in progress (R72); a commit of the trim set counts as one (R615). -/
def Mach.inTransition (m : Mach) (c : ModeCtl) : Bool := c.trans.isSome || m.trm.committing.isSome

/-- What a request draws (R647): DEFERRED stands for acceptance. -/
def Mach.modeStatus (m : Mach) (c : ModeCtl) (ses : Nat) (req : Mode) : Status :=
  if (req = .trim ∨ req = .quench ∨ req = .probe) ∧ m.sesP ses < 2 ∨ (req = .probe ∧ m.dbg.level < 2) then .privilege
  else if m.inTransition c ∧ req ≠ .quench then .busy
  else if req = c.mode then .ok
  else if (m.sec.life = .shipped ∧ req ≠ .pilot ∧ req ≠ .quench) ∨ (viaKindle c.mode req ∧ m.trngFailed) then .lifecycle
  else if !modeAllows c.mode req then .mode
  else .deferred

/-- An accepted request. -/
def acceptMode (c : ModeCtl) (m : Mach) (ses : Nat) (req : Mode) : ModeCtl × Mach :=
  let m := { m with trn.acceptAt := m.ns }
  match req, c.mode with
  | .quench, _ => beginQuench c m ses
  | .pilot, _ => beginStops c m .pilot
  | .trim, _ => beginKindle c m .trim (.kindle .trim)
  | .primed, .ebb => beginStops c m .primed
  | .primed, _ => beginKindle c m .primed (.kindle .primed)
  | .probe, _ => beginStops c m .probe
  | .ebb, _ => beginStops c m .ebb
  | .banked, .ebb => ({ c with target := .banked, trans := some .drain }, m)
  | .banked, _ => beginStops c m .banked
  | goal, .guard => ({ c with ret := goal }, m)
  | goal, .ebb => beginReturn c m goal
  | goal, .banked => beginBankedExit c m goal
  | .lit, .lean => ({ c with target := .lit, trans := some .toLit }, m.crbSettle c)
  | goal, _ => enterService c m m.guardDue goal

/-- A write of MODE-REQ that has passed checks 7 to 11 (R647). A request equal to the present mode has no effect, and MODE-REQ, which reads the
last mode requested (Table 3.12), takes it all the same: DESIGN CHOICE (log entry 135). -/
def modeReqWrite (c : ModeCtl) (m : Mach) (ses : Nat) (req : Mode) : ModeCtl × Mach :=
  match m.modeStatus c ses req with
  | .deferred =>
    let r := acceptMode c (m.wr O.modeReq 0 req.code) ses req
    (r.1, r.2.st .deferred)
  | .ok => (c, (m.wr O.modeReq 0 req.code).st .ok)
  | r => (c, m.st r)

/-- MODE_REQ of a session. -/
def modeReq (c : ModeCtl) (m : Mach) (ses : Nat) (req : Mode) : ModeCtl × Mach :=
  if !m.sesOn ses then (c, m.st .session)
  else
    match m.writeCheck c (m.reqOf ses) O.modeReq 0 [BitVec.ofNat 8 req.code] with
    | some r => (c, m.st r)
    | none => modeReqWrite c m ses req

/-! The assembly reset (Table 3.11). -/

/-- RESET-ASSEMBLY past its mode and privilege checks: BUSY in a transition, LIFECYCLE with the TRNG failed (R564), else a full KINDLE. -/
def assemblyReset (c : ModeCtl) (m : Mach) : ModeCtl × Mach :=
  if m.inTransition c then (c, m.st .busy)
  else if m.trngFailed then (c, m.st .lifecycle)
  else
    let r := beginKindle c m .primed .assembly
    (r.1, r.2.st .deferred)

/-- RESET_ASSEMBLY of a session. -/
def resetAssembly (c : ModeCtl) (m : Mach) (ses : Nat) : ModeCtl × Mach :=
  if !m.sesOn ses then (c, m.st .session)
  else
    match m.writeCheck c (m.reqOf ses) O.resetAssembly 0 [] with
    | some r => (c, m.st r)
    | none => assemblyReset c m

/-! The Lantern rail (R74, R82, R83, R101). -/

/-- Whether MRAM keeps an object (R109): the objects marked so, and the Adtieb record's events and commit numbers. -/
def mramKey (k : Nat) : Bool :=
  (k / 2 ^ 24 = 0xB8 && (k / 256 % 65536 = 0x103 || k / 256 % 65536 = 0x104)) ||
    match target k with
    | some (.obj o _) => o.mram
    | some (.win o _ _) => o.mram
    | _ => false

/-- LANTERN_RAIL_LOSS: all volatile state is lost; MRAM is kept, and a trim commit that was running leaves the set corrupt (R615). -/
def darken (m : Mach) : Mach :=
  let stored := match m.trm.committing with
    | some g => some { g with sound := false }
    | none => m.trm.stored
  { com :=
      { free := m.com.free
        objs := m.com.objs.filter fun p => mramKey p.1
        tabs := m.com.tabs.filter fun p => mramKey (p.1 / 2 ^ 32)
        out := m.com.out }
    clk := { floor := m.clk.floor, injFloor := m.clk.injFloor }
    sec := { life := m.sec.life, slots := mset {} m.sec.slots 65 {}, root := m.sec.root, drbgCtr := m.sec.drbgCtr }
    dbg := { wick := m.dbg.wick, level := m.dbg.level, logNext := m.dbg.logNext }
    trm := { stored := stored, evSeq := m.trm.evSeq, images := m.trm.images, measures := m.trm.measures } }

/-- The straps as sampled at step 5 of Table 3.5 (R143, and spec 22). -/
def Mach.strap (m : Mach) (v : Nat) : Mach :=
  let m := ((m.wr O.straps 0 v).wr O.mgtSpeed 0 (v % 2)).wr O.mgtSpeed 1 (v / 2 % 2)
  m.wr O.inbandEn 0 (if v / 4 % 2 = 1 ∧ m.rd O.inbandLock = 0 then 1 else 0)

/-- Table 3.5 from step 2: trim set, Adtieb record, key store, random numbers, straps, sessions; then PILOT, at whose entry NOTE-LOG is emptied and the
numbering of notifications begins (R172, R174). -/
def powerUp (c : ModeCtl) (m : Mach) (straps : Nat) (trngPass imageOk : Bool) (corrupt : List Nat) : ModeCtl × Mach :=
  let c' : ModeCtl := { mode := .pilot, target := .pilot }
  let m := { m with pwr.held := false }
  let (was, m) := m.adtLoad imageOk
  let m := (m.trimCheck c' 1).adtPowerOn c' was
  let m := corrupt.foldl (fun m k => if (m.slot k).state = 0 then m else m.setSlot k { m.slot k with state := 2 }) m
  let m := m.keystoreSettle c'
  let m := if trngPass then m.wr O.trngState 0 0 else (m.bump O.trngFails).trngTo c' 2
  let m := (m.strap straps).paceDefaults
  let m := [10, 11].foldl (fun m r => m.wr O.railState r 2) m
  let m := if m.dbg.wick.isSome then m.wickEnd c' 7 0xFF else m.dbgSettle c' 7 0xFF 0
  let m := m.nextEpoch c'
  let m := m.clk.floor.foldl (fun m p => m.wr O.sesSeqHigh p.1 p.2) m
  let m := { m with clk.injHigh := m.clk.injFloor, clk.noteNum := 0, com.tabs := m.com.tabs.filter fun p => decide (p.1 / 2 ^ 32 ≠ O.noteLog.key) }
  arrive { c with ret := .lit } m.nonceDraw .pilot

/-- LANTERN_RAIL_VALID (R82): with no reference clock start-up is held at step 4 (R635). -/
def lanternUp (c : ModeCtl) (m : Mach) (straps : Nat) (refclk trngPass imageOk : Bool) (corrupt : List Nat) : ModeCtl × Mach :=
  if c.mode ≠ .dark then (c, m)
  else if !refclk then (c, { m with pwr.held := true })
  else powerUp c m straps trngPass imageOk corrupt

end Sys2Proof.Machine
end

