-- ==== Sys2Proof/Machine/View.lean ====
section
/-! DEFINITION. What a read returns (R7 to R12, R111, R130 to R133): the value of every object, control record and table
entry, computed where the object shows live state, and the objects that a read clears. -/

namespace Sys2Proof.Machine

/-! Values of objects that show live state; every other object reads as stored. -/

/-- Areas 10 and 20. -/
def Mach.viewHost (m : Mach) (o : ObjDef) (i : Nat) : Nat :=
  if o.is O.devSerial then Config.devSerial.toNat
  else if o.is O.lifecycle then m.sec.life.code
  else if o.is O.pendingTotal then m.com.pend.length
  else if o.is O.devIdFpr then (Config.sha3 (Config.publicKey 0)).toNat
  else if o.is O.inbandEn then ofB m.inbandOn
  else if o.is O.sesEnable then ofB (m.sesEn i)
  else if o.is O.sesKeySlot then m.sesSlot i
  else if o.is O.sesPriv then m.sesP i
  else if o.is O.sesPaths then m.sesPath i
  else m.rd o i

/-- Area 30. -/
def Mach.viewMode (m : Mach) (c : ModeCtl) (o : ObjDef) (i : Nat) : Nat :=
  if o.is O.modeCur then c.mode.code
  else if o.is O.modeTarget then c.target.code
  else if o.is O.modeReturn then c.ret.code
  else m.rd o i

/-- FLX-SKEW (R192): the skew last measured between the group's members; before the first measurement of a run of the group, a free value (log entry 122). -/
def Mach.skewOf (m : Mach) (g : Nat) : Nat := ((m.port (8 * g)).skew).getD (m.freeVal 32)

/-- Area 40. -/
def Mach.viewPort (m : Mach) (o : ObjDef) (i : Nat) : Nat :=
  if o.is O.bpDefects then m.defectsOf i
  else if o.is O.bpTxPaused then m.txPaused i
  else if o.is O.flxSkew then m.skewOf i
  else m.rd o i

/-- Area 48. -/
def Mach.viewTime (m : Mach) (o : ObjDef) (i : Nat) : Nat :=
  if o.is O.tbFrc then m.ns % 2 ^ 64
  else if o.is O.tbTime then m.now
  else if o.is O.tsTxqCount then m.tb.txq.length
  else m.rd o i

/-- Areas 50 and 58. -/
def Mach.viewReach (m : Mach) (o : ObjDef) (i : Nat) : Nat :=
  if o.is O.ppfOccupancy then m.octsOf (m.rch i).fifo
  else if o.is O.gpfOccupancy then m.octsOf (m.rch i).gfifo
  else if o.is O.ctxBusy then m.ctxBusy i
  else if o.is O.rtValid then ((m.entries O.rtTable 0).filter fun p => bit (fld 32 p.2 0 1) 7).length
  else if o.is O.exmValid then
    ((m.entries O.exmMem (i / 16)).filter fun p =>
      bit (fld 64 p.2 0 1) 7 && decide (m.rd O.exmBase i ≤ p.1 ∧ p.1 < m.rd O.exmBase i + m.rd O.exmSize i)).length
  else if o.is O.bwOccupancy then (m.rch i).water.length
  else m.rd o i

/-- Areas 60, 68 and 70. -/
def Mach.viewFlow (m : Mach) (c : ModeCtl) (o : ObjDef) (i : Nat) : Nat :=
  if o.is O.flwState then m.flwStateV
  else if o.is O.flwClock then m.flwClockMs
  else if o.is O.flwClockS then m.flwClockSec
  else if o.is O.laneHandlesUsed then m.handles i
  else if o.is O.iftUsed then (m.ifts i).length
  else if o.is O.iftCreating then m.iftCreating i
  else if o.is O.crbTokens then m.crbTok c i / 1000000000
  else if o.is O.crbEffective then m.crbEffective c i
  else if o.is O.poolState then m.poolStateV
  else if o.is O.sluReadyFlow then (m.slu i).flow.length
  else if o.is O.sluReadyAge then (m.slu i).age.length
  else if o.is O.sluReadyExport then (m.slu i).exp.length
  else if o.is O.sluReadyMaint then (m.slu i).maint.length
  else if o.is O.sluReservedUsed then
    (((m.slu i).flow ++ (m.slu i).age ++ (m.slu i).exp ++ (m.slu i).maint).filter fun e => e.flag 7).length
  else if o.is O.sluCtxBusy then (m.slu i).busy.length
  else if o.is O.sweepLag then m.sweepLagMs i
  else m.rd o i

/-- STK-STATE (R401, R415 to R417, Table 12.5). -/
def Mach.stkState (m : Mach) (c : ModeCtl) (s : Nat) : Nat :=
  if c.mode = .dark ∨ c.mode = .pilot then 0
  else if c.mode = .kindle then 1
  else if m.stackLost s then 4
  else if m.stackStale s then 5
  else if (List.range 32).all fun ch => m.srCommitted (32 * s + ch) then 3 else 2

/-- Areas 78 and 80. -/
def Mach.viewMem (m : Mach) (c : ModeCtl) (o : ObjDef) (i : Nat) : Nat :=
  if o.is O.hbmState then ofB m.dp.remapping
  else if o.is O.stkState then m.stkState c i
  else if o.is O.stkPartner then partner i
  else if o.is O.pcQueue then (m.pc i).held
  else if o.is O.pcSrEntries then m.srEntries (pcChan i)
  else if o.is O.bufpCellSize then cellSize (i % 4)
  else if o.is O.bufpCells then poolCells (i % 4)
  else if o.is O.bufpFree then (m.pool (i / 4) (i % 4)).free (i % 4)
  else if o.is O.bufpFreeMin then poolCells (i % 4) - m.rd O.bufpFreeMin i
  else if o.is O.bufpRot then (m.pool (i / 4) (i % 4)).rot
  else if o.is O.hplSize then bufSize i
  else if o.is O.hplFree then (m.hpool i).free
  else if o.is O.hplFreeMin then 262144 - m.rd O.hplFreeMin i
  else if o.is O.hplState then m.hpoolState c i
  else if o.is O.hplRot then (m.hpool i).rot
  else m.rd o i

/-- Areas 88 and 90. -/
def Mach.viewSwitch (m : Mach) (o : ObjDef) (i : Nat) : Nat :=
  if o.is O.voqReachOcc then m.voqReachOcc i
  else if o.is O.holdOcc then m.holdOcc i
  else if o.is O.gclOpenMax then m.openMaxView i
  else m.rd o i

/-- SLOT-CLASS (Table 18.5). -/
def slotClass (k : Nat) : Nat := if k < 64 then 0 else k - 63

/-- SLOT-KCV (R543): the digest of 0x4B 0x43 0x56 and the key, or of the public key of an identity slot; zero while the slot is EMPTY. -/
def Mach.slotKcvOf (m : Mach) (i : Nat) : Nat :=
  if (m.slot i).state = 0 then 0
  else if i = 66 ∨ i = 67 then digest8 (Config.publicKey (if i = 66 then 0 else 3))
  else digest8 ([0x4B, 0x43, 0x56] ++ octets (if i = 65 then 64 else 32) (m.slot i).key)

/-- Areas 98, A0 and A8. -/
def Mach.viewSec (m : Mach) (o : ObjDef) (i : Nat) : Nat :=
  if o.is O.flPen then Config.flPen.toNat
  else if o.is O.vendorRootFpr then (Config.sha3 (Config.publicKey 2)).toNat
  else if o.is O.slotClass then slotClass i
  else if o.is O.slotState then (m.slot i).state
  else if o.is O.slotPurpose then (m.slot i).purpose
  else if o.is O.slotKcv then m.slotKcvOf i
  else if o.is O.slotNonce then (m.slot i).nonce
  else if o.is O.slotLoaded then (m.slot i).loaded
  else if o.is O.dbgLevel then m.dbg.level
  else if o.is O.wickNonce then m.nonceNow
  else if o.is O.wickRootFpr then (Config.sha3 (Config.publicKey 1)).toNat
  else m.rd o i

/-- Areas B0, B8 and C0. A tile of a block shows the block's state; a powered tile's reading stands, an unpowered one reads 0. -/
def Mach.viewFault (m : Mach) (c : ModeCtl) (o : ObjDef) (i : Nat) : Nat :=
  if o.is O.fltQueueUsed then m.flt.queue.length
  else if o.is O.fltRebuildDone then (if m.stackStale i then m.freeVal 34 % 0x210000000 else m.rd o i)
  else if o.is O.fltBlkLevel then (m.cont i).level
  else if o.is O.fltBlkSince then m.rd o (blkOf i)
  else if o.is O.fltBlkCount then m.rd o (blkOf i)
  else if o.is O.fltBlkPending then ofB (decide ((m.cont i).pendLevel ≠ 0))
  else if o.is O.trimState then m.trimState
  else if o.is O.trimDigest then (match m.trimValid with | some g => g.digest | none => 0)
  else if o.is O.trimGeneration then (match m.trimValid with | some g => g.generation | none => 0)
  else if o.is O.trimWritten then (match m.trimValid with | some g => g.written | none => 0)
  else if o.is O.trimFactoryDigest then factoryDigest
  else if o.is O.coreAvsState then m.avsState c i
  else if o.is O.corePaceDeficit then m.paceDeficitNs i
  else if o.is O.tilePaceEq then (if m.tilePower c i = 1 then m.rd o i else 0)
  else if o.is O.tileState then m.tileState c i
  else if o.is O.tileMargin then m.tileMargin i
  else m.rd o i

/-- The value of an object that is no table and no command. -/
def Mach.view (m : Mach) (c : ModeCtl) (o : ObjDef) (i : Nat) : Nat :=
  match o.area with
  | 0x10 | 0x20 => m.viewHost o i
  | 0x30 => m.viewMode c o i
  | 0x40 => m.viewPort o i
  | 0x48 => m.viewTime o i
  | 0x50 | 0x58 => m.viewReach o i
  | 0x60 | 0x68 | 0x70 => m.viewFlow c o i
  | 0x78 | 0x80 => m.viewMem c o i
  | 0x88 | 0x90 => m.viewSwitch o i
  | 0x98 | 0xA0 | 0xA8 => m.viewSec o i
  | _ => m.viewFault c o i

/-! Function control records (Table 4.3). -/

/-- The kinds' first functions, by area (Table 4.2). -/
def fnFirsts : List (Nat × Nat) :=
  [(0, 1024), (0x400, 8), (0x408, 12), (0x420, 16), (0x430, 16), (0x440, 512), (0x640, 256), (0x740, 128)]

/-- Length of subindex sub of a control record, and whether it is a command. -/
def fnSubLen (sub : Nat) : Nat :=
  match sub with
  | 2 | 3 => 0
  | 5 | 6 | 8 => 4
  | 7 => 12
  | 9 => 2
  | 10 => 8
  | _ => 1

/-- FN-DISPOSITION: DROP for a port group, which knows no other (Table 4.2). -/
def Mach.fnDisp (m : Mach) (f : Nat) : Nat := match fnKind f with | some (.pgroup, _) => 2 | _ => (m.fn f).disp

/-- Value of a subindex of a control record. -/
def Mach.fnView (m : Mach) (f sub : Nat) : Nat :=
  let r := m.fn f
  match sub with
  | 0 => 11
  | 1 => r.state.code
  | 4 => m.fnDisp f
  | 5 => r.fallback
  | 6 => r.holdAge
  | 7 => r.since
  | 8 => r.startErr
  | 9 => m.fnPending f
  | 10 => r.met
  | 11 => r.holder
  | _ => 0

/-! Directories (R140 to R142). -/

/-- Code of a type (R141). -/
def Ty.code : Ty → Nat
  | .b => 1 | .u8 => 2 | .u16 => 3 | .u32 => 4 | .u64 => 5 | .s32 => 6 | .s64 => 7 | .e8 => 8 | .m32 => 9 | .m64 => 10
  | .t96 => 11 | .os => 12 | .tbl => 13 | .cmd => 14

/-- Code of an access (R141). -/
def Acc.code : Acc → Nat
  | .ro => 1 | .rw => 2 | .rs => 3 | .rl => 4 | .wo => 5 | .cm => 6

/-- An OBJ-DIR entry (Table 4.11). -/
def dirEntry (id ty acc priv flags count len : Nat) : Nat :=
  pack [(4, id), (1, ty), (1, acc), (1, priv), (1, flags), (2, count), (2, if 1 < count then 1 else 0), (4, len)]

/-- OBJ-DIR entry of an object of the dictionary. -/
def ObjDef.dir (o : ObjDef) : Nat :=
  dirEntry o.key o.ty.code o.acc.code o.priv (ofB (decide (o.own ≠ .none)) + 2 * ofB o.mram) o.count o.len

/-- Types and access codes of a control record's subindexes (Table 4.3). -/
def fnSubTy : List (Ty × Acc) :=
  [(.u8, .ro), (.e8, .ro), (.cmd, .cm), (.cmd, .cm), (.e8, .rw), (.u32, .rw), (.u32, .rw), (.t96, .ro), (.u32, .ro), (.u16, .ro), (.u64, .ro), (.u8, .ro)]

/-- OBJ-DIR: the dictionary's objects, then the control records' subindexes by kind (log entry 66). -/
def objDirList : List Nat :=
  dict.map ObjDef.dir ++ fnFirsts.flatMap fun p =>
    fnSubTy.zipIdx.map fun x =>
      let a := fnItem p.1
      dirEntry ((a.1 <<< 24) + (a.2 <<< 8) + x.2) x.1.1.code x.1.2.code (if x.1.2 = .ro then 0 else 1) 1 p.2 (fnSubLen x.2)

/-- An FN-DIR entry (Table 4.12). -/
def Mach.fnDirEntry (m : Mach) (f : Nat) : Nat :=
  let a := fnItem f
  pack [(4, (a.1 <<< 24) + (a.2 <<< 8)), (1, (m.fst f).code), (1, m.fnDisp f), (1, (m.fn f).holder), (1, min 255 (m.fnPending f))]

/-! Table entries. -/

/-- Entries of a table (TBL-ENTRIES). -/
def Mach.tblEntries (m : Mach) (o : ObjDef) : Nat :=
  if o.is O.flwSlots then 2 ^ m.rd O.flwSizeLog2 else if o.is O.objDir then objDirList.length else o.entries

/-- Where a session's entry of a table is kept: FLW-REQ and CIPHER-REQ have one set for each session (R322, R562). -/
def sesIdx (o : ObjDef) (ses idx : Nat) : Nat := if o.is O.flwReq ∨ o.is O.cipherReq then o.entries * ses + idx else idx

/-- Whether a counter's block is off, contained or banked (Table 17.1). -/
def Mach.cntStale (m : Mach) (c : ModeCtl) (tile : Nat) : Bool := decide (m.tilePower c tile ≠ 1 ∨ (m.cont tile).level ≠ 0)

/-- The tile that counts an entry of a counter table. -/
def Mach.cntTile (m : Mach) (o : ObjDef) (idx : Nat) : Nat :=
  if o.is O.portCnt then blkTile .pgroup (idx / 128)
  else if o.is O.rsnCnt then blkTile .reach (idx / 32768)
  else if o.is O.rsnBasin then blkTile .basin (idx / 32)
  else bits (m.rd O.gecSelect idx) 47 32

/-- A counter entry as read (R516, R518, Table 17.1): the copy, its time and STALE in BANKED. -/
def Mach.cntView (m : Mach) (c : ModeCtl) (o : ObjDef) (idx : Nat) : Nat :=
  let banked := decide (c.mode = .banked)
  let e := if banked then mget (o.entDflt 0 idx) m.trn.counters (o.ekey 0 idx) else m.ent o 0 idx
  let e := setFld 24 e 8 12 (if banked then m.trn.copyAt else m.now)
  if banked || m.cntStale c (m.cntTile o idx) then setFld 24 e 20 1 (fld 24 e 20 1 ||| 2) else e

/-- A fault record that waits, as FLT-QUEUE shows it (Table 20.7). -/
def FltRec.view (r : FltRec) : Nat :=
  pack [(4, r.seq), (12, r.time), (2, r.tile), (1, r.cls), (1, 0xFF), (1, 0), (1, ofB r.suppressed + 2 * ofB r.rescan + 4 * ofB r.overflow),
    (2, r.detail), (8, r.arg)]

/-- Slot n of the device as the model keys it (R280). -/
def Mach.slotAt (m : Mach) (n : Nat) : Nat :=
  let per := 2 ^ (m.rd O.flwSizeLog2 - 4)
  slotKey (n / per) (n % per)

/-- A slot of the device by the host's number, as FLW-SLOTS reads it (R321): zero where it holds no record. -/
def Mach.slotView (m : Mach) (n : Nat) : Nat :=
  let g := m.slotAt n
  let r := m.slotRec g
  if rValid r && !mget false m.dp.gone g then r else 0

/-- An image's entry of the trim tables; none where there is no image. -/
def trimEnt (g : Option TrimImg) (o : ObjDef) (idx : Nat) : Nat :=
  match g with
  | none => 0
  | some g => if o.is O.trimTile then g.tile idx else if o.is O.trimDie then g.die idx else ofOctets g.octets

/-- Entries of the tables of areas 10, B0 and B8 that show live state. -/
def Mach.entLantern (m : Mach) (o : ObjDef) (idx : Nat) : Nat :=
  if o.is O.objDir then objDirList.getD idx 0
  else if o.is O.fnDir then m.fnDirEntry (allFns.getD idx 0)
  else if o.is O.devCerts then (Config.devCert idx).toNat
  else if o.is O.fltQueue then (match m.flt.queue[idx]? with | some r => r.view | none => 0)
  else if o.is O.trimSet then trimEnt m.trm.stored o idx
  else if o.is O.trimWork ∨ o.is O.trimTile ∨ o.is O.trimDie then trimEnt m.trm.work o idx
  else if o.is O.trimFloor then (Config.trimFloor idx).toNat
  else if o.is O.adtCounters then mget 0 m.trm.counters idx
  else if o.is O.adtHistTemp then mget 0 m.trm.hists idx
  else if o.is O.adtHistVcore then mget 0 m.trm.hists (525 + idx)
  else m.ent o 0 idx

/-- Entries of the other tables that show live state. -/
def Mach.entCore (m : Mach) (c : ModeCtl) (o : ObjDef) (i idx : Nat) : Nat :=
  if o.is O.flwSlots then m.slotView idx
  else if o.is O.poolCount then (if m.entF O.epTable 0 idx 0 1 = 3 then (m.ppool idx).count else 0)
  else if o.is O.bufOcc then m.ingressOcc (128 * i + idx / 8) (idx % 8)
  else if o.is O.bufOwner then pack ((List.range 4).map fun k => (4, m.ownerCells i k idx))
  else if o.is O.voqOcc then m.voqOcc i idx
  else if o.is O.esEqOcc then m.eqOcc (idx / 8) (idx % 8)
  else if o.is O.lifQueueOcc then octsIn (m.eq idx)
  else if o.is O.polTable then (m.polTokens i idx).1
  else if o.is O.portCnt ∨ o.is O.rsnCnt ∨ o.is O.rsnBasin ∨ o.is O.gecValues then m.cntView c o idx
  else m.ent o i idx

/-- An entry of a table as a read returns it, with whether it holds a pending value (R111, R153). -/
def Mach.entView (m : Mach) (c : ModeCtl) (ses : Nat) (o : ObjDef) (i idx : Nat) : Nat × Bool :=
  match m.pendEnt o i idx with
  | some v => (v, true)
  | none =>
    (if lanternArea o.area then m.entLantern o (sesIdx o ses idx) else m.entCore c o i (sesIdx o ses idx), false)

/-! Reads. -/

/-- What a read that clears an object leaves in it: the value at that moment (log entry 67). -/
def Mach.readEffect (m : Mach) (c : ModeCtl) (o : ObjDef) (i : Nat) : Mach :=
  if o.is O.tilePaceSlowest then m.wr o i 0
  else if o.is O.ppfPeak then m.wr o i (m.view c O.ppfOccupancy i)
  else if o.is O.ctxPeak then m.wr o i (m.view c O.ctxBusy i)
  else if o.is O.laneHandlesPeak then m.wr o i (m.view c O.laneHandlesUsed i)
  else if o.is O.iftPeak then m.wr o i (m.view c O.iftUsed i)
  else if o.is O.pcQueuePeak then m.wr o i (m.view c O.pcQueue i)
  else if o.is O.bufpFreeMin then m.wr o i (poolCells (i % 4) - m.view c O.bufpFree i)
  else if o.is O.hplFreeMin then m.wr o i (262144 - m.view c O.hplFree i)
  else if o.is O.holdPeak then m.wr o i (m.view c O.holdOcc i)
  else if o.is O.flxSkew ∨ (o.is O.fltRebuildDone ∧ m.stackStale i) then m.freed
  else if o.is O.dieTempPeak then m.wr o i (m.rd O.dieTemp i)
  else if o.is O.tsTxqNext then m.tsNext
  else m

/-- A session's window into a table. -/
def Mach.win (m : Mach) (ses : Nat) (o : ObjDef) (i : Nat) : Win := mget {} m.clk.wins (ses * 2 ^ 32 + o.key i)

/-- The machine with a session's window replaced. -/
def Mach.setWin (m : Mach) (ses : Nat) (o : ObjDef) (i : Nat) (w : Win) : Mach :=
  { m with clk.wins := mset {} m.clk.wins (ses * 2 ^ 32 + o.key i) w }

/-- What a read record draws: status, value octets, whether a pending value shows, and the machine. -/
structure ReadRes where
  status : Status
  data : List Byte := []
  pending : Bool := false
  mach : Mach

/-- A read of a table's window data (R132): RANGE where the window passes the table's end or 16 MiB. -/
def Mach.readWin (m : Mach) (c : ModeCtl) (ses : Nat) (o : ObjDef) (i base count : Nat) : ReadRes :=
  if m.tblEntries o < base + count ∨ 16777216 < count * o.len then { status := .range, mach := m }
  else
    let l := (List.range count).map fun k => m.entView c ses o i (base + k)
    { status := .ok, data := l.flatMap fun p => octets o.len p.1, pending := l.any (·.2), mach := m.setWin ses o i ⟨base, count, base + count⟩ }

/-- A read of what an identifier names, past check 7 (checks 8 to 12 of Table 5.6). -/
def Mach.readTgt (m : Mach) (c : ModeCtl) (rq : Req) (t : Tgt) : ReadRes :=
  match t with
  | .fn f sub =>
    if !areaOpen c.judged (fnItem f).1 (fnItem f).2 false then { status := .mode, mach := m }
    else if rq.priv < fnPriv sub then { status := .privilege, mach := m }
    else { status := .ok, data := octets (fnSubLen sub) (m.fnView f sub), mach := m }
  | .win o i sub =>
    if !areaOpen c.judged o.area o.item false ∨ (sub = 3 ∧ recRefused c o) then { status := .mode, mach := m }
    else if (sub = 1 ∨ sub = 2 ∨ sub = 3 ∨ sub = 6) ∧ rq.priv < o.priv then { status := .privilege, mach := m }
    else
      let w := m.win rq.win o i
      match sub with
      | 0 => { status := .ok, data := octets 1 6, mach := m }
      | 1 => { status := .ok, data := octets 4 w.base, mach := m }
      | 2 => { status := .ok, data := octets 4 w.count, mach := m }
      | 3 => m.readWin c rq.win o i w.base w.count
      | 4 => { status := .ok, data := octets 4 (m.tblEntries o), mach := m }
      | 5 => { status := .ok, data := octets 2 o.len, mach := m }
      | _ => { status := .ok, data := octets 4 w.next, mach := m }
  | .obj o i =>
    match readCheck c rq o with
    | some r => { status := r, mach := m }
    | none =>
      if o.ty = .cmd then { status := .ok, data := octets o.len 0, mach := m }
      else if o.is O.tsTxqNext then
        let m' := m.tsNext
        { status := .ok, data := octets 32 m'.com.value, mach := m' }
      else
        match m.pendOf o i with
        | some v => { status := .ok, data := octets o.len v, pending := true, mach := m }
        | none => { status := .ok, data := octets o.len (m.view c o i), mach := m.readEffect c o i }

/-- A read of an identifier by a session: status and value are what it leaves in the machine (R110, R153). -/
def Mach.readObj (m : Mach) (c : ModeCtl) (ses id : Nat) : Mach :=
  if !m.sesOn ses then m.st .session
  else
    match target id with
    | none => m.st .unknownObject
    | some t =>
      let r := m.readTgt c (m.reqOf ses) t
      (if r.status = .ok then r.mach.val (ofOctets r.data) else r.mach).st r.status

end Sys2Proof.Machine
end

