-- ==== Sys2Proof/Machine/Entry.lean ====
section
/-! DEFINITION. Table entries as they are written: the entry rules of every table (R132, R133 and each table's own), and
what an accepted entry does. -/

namespace Sys2Proof.Machine

/-! Entry rules. -/

/-- A DSCP field: 0 to 63, or 0xFF for none. -/
def dscpOk (v : Nat) : Bool := v < 64 || v = 0xFF

/-- A PORT destination word (Table 8.3). -/
def portDest (w : Nat) : Bool := w >>> 28 = 1

/-- One action of Table 8.7 (R260). -/
def actionOk (x : Nat) : Bool :=
  let a := fld 8 x 1 1
  let b := fld 8 x 2 2
  let c := fld 8 x 4 4
  match fld 8 x 0 1 with
  | 0x00 | 0x02 | 0x06 => a = 0 && b = 0 && c = 0
  | 0x01 => a ≤ 1 && b = 0 && destOk c
  | 0x03 => a < 8 && b = 0 && c = 0
  | 0x04 => a < 64 && b = 0 && c = 0
  | 0x05 => a ≤ 1 && b < 256 && c = 0
  | 0x07 => a < 8 && b = 0 && portDest c && destOk c
  | 0x08 => a = 0 && b < 16384 && c = 0
  | 0x09 => a = 0 && c = 0
  | 0x0A => a < 64 && b = 0 && c = 0
  | _ => false

/-- One epilogue step of Table 11.6 (R381). -/
def stepOk (x : Nat) : Bool :=
  let a := fld 8 x 1 1
  let b := fld 8 x 2 2
  let c := fld 8 x 4 4
  match fld 8 x 0 1 with
  | 0x00 => a = 0 && b = 0 && c = 0
  | 0x01 => a ≤ 9 && 1 ≤ b && b ≤ 7 && c < 256
  | 0x02 => a = 0 && b < 64 && c = 0
  | 0x03 => a ≤ 1 && b < 16 && c = 0
  | 0x04 => a ≤ 1 && b = 0 && c = 0
  | 0x05 => a = 0 && b < 4096 && c = 0
  | _ => false

/-- The eight 8-octet items of a list of 64 octets. -/
def listItems (v : Nat) : List Nat := (List.range 8).map fun k => fld 64 v (8 * k) 8

/-- A route entry (Table 8.4, R254). -/
def Mach.routeOk (m : Mach) (idx v : Nat) : Bool :=
  let key := fun e => (fld 32 e 2 2, fld 32 e 1 1, fld 32 e 4 16)
  let plen := fld 32 v 1 1
  fld 32 v 0 1 % 128 = 0 && plen ≤ 128 && fld 32 v 2 2 < 4096 && fld 32 v 4 16 % 2 ^ (128 - plen) = 0 && destOk (fld 32 v 20 4) &&
    (!bit (fld 32 v 0 1) 7 || (m.entries O.rtTable 0).all fun p => p.1 = idx || !bit (fld 32 p.2 0 1) 7 || key p.2 ≠ key v)

/-- An exact entry (Table 8.5, R256): a valid one lies in a bucket of its key under some table of the reach, alone there with that key. By
which table's geometry an entry in two of them is judged is not stated: DESIGN CHOICE, one that it meets is enough (log entry 166). -/
def Mach.exactOk (m : Mach) (r idx v : Nat) : Bool :=
  let key := fld 64 v 8 48
  fld 64 v 0 1 % 128 = 0 && fld 64 v 1 1 = 0 &&
    (!bit (fld 64 v 0 1) 7 ||
      (fld 64 v 2 2 < 4096 && (List.range 16).any fun x =>
        let s := m.exactSlots r x key
        s.contains idx && s.all fun j => j = idx || !(bit (m.entF O.exmMem r j 0 1) 7 && m.entF O.exmMem r j 8 48 = key)))

/-- A ternary entry (Table 8.6, R258): its list is common, or private to the rule set whose region holds it. -/
def Mach.tcamOk (m : Mach) (r idx v : Nat) : Bool :=
  let list := fld 176 v 2 2
  fld 176 v 0 1 % 128 = 0 && fld 176 v 1 1 = 0 && list < 32768 &&
    (list < 4096 || (m.regionOwners r idx).all fun s => (list - 4096) / 448 = s)

/-- Rate fields shared by meters and policers (Tables 9.11, 15.4): those of KIND NONE count for nothing. -/
def rateOk (size v : Nat) : Bool :=
  let kind := fld size v 0 1
  kind ≤ 2 && dscpOk (fld size v 2 1) && dscpOk (fld size v 3 1) &&
    (kind = 0 || (1 ≤ fld size v 4 4 && fld size v 4 4 ≤ 1600000 && 1 ≤ fld size v 12 2 &&
      (if kind = 2 then fld size v 4 4 ≤ fld size v 8 4 else fld size v 8 4 = 0)))

/-- An endpoint entry (Table 9.13, R317). -/
def Mach.endpointOk (m : Mach) (v : Nat) : Bool :=
  let f := fld 64 v
  let kind := f 0 1
  kind ≤ 3 && f 27 1 = 0 && f 34 2 = 0 && f 48 16 = 0 && (if kind = 1 ∨ kind = 2 then f 1 1 ≤ 1 else f 1 1 = 0) &&
    (if kind = 2 then portDest (f 20 4) && destOk (f 20 4) else f 20 4 = 0) && (kind ≠ 3 || (f 2 2 = 0 && f 30 2 ≤ f 32 2)) &&
    (kind ≠ 1 || (1 ≤ f 28 2 && f 24 3 + f 28 2 ≤ 16777216 && (List.range (f 28 2)).all fun k => m.entF O.epTable 0 (f 24 3 + k) 0 1 = 2))

/-- A flow class entry (Table 9.12). -/
def classOk (v : Nat) : Bool :=
  let f := fld 32 v
  f 0 1 % 4 = 0 && bits (f 0 1) 3 2 ≠ 3 && f 1 1 = 0 && f 2 2 < 4096 && f 7 1 = 0 && f 8 4 ≤ 2000000000 && f 28 4 = 0

/-- Fields of a record that a group of Table 9.14 writes; group 6 stands for the fields that only an INSERT gives. -/
def recGroupOk (r k : Nat) : Bool :=
  match k with
  | 1 => !rbit r 50 2 && rbits r 50 1 0 ≠ 3
  | 3 => rf r 88 2 < 4096
  | 4 => if rbit r 48 2 then portDest (rf r 108 4) && destOk (rf r 108 4) else rf r 108 4 = 0 || (portDest (rf r 108 4) && destOk (rf r 108 4))
  | 5 => rbits r 51 5 4 ≠ 3
  | 6 => rf r 54 2 < 8192 && rf r 93 1 = 0 && rbits r 51 7 6 ≠ 3 && rbits r 51 2 0 = 0
  | _ => true

/-- A request entry (Table 9.14, R322): the RECORD of an INSERT is checked whole, its KEY too. -/
def flwReqOk (v : Nat) : Bool :=
  let f := fld 192 v
  let r := f 64 128
  let op := f 0 1
  op ≤ 4 && f 2 2 < 64 && f 6 2 = 0 && f 12 4 = 0 && f 16 2 < 4096 && f 18 1 < 64 &&
    (op ≠ 2 || ((List.range 7).all fun k => recGroupOk r k) && rf r 0 2 < 4096 && rf r 2 1 < 64) && (op ≠ 3 || (List.range 6).all fun k => !bit (f 2 2) k || recGroupOk r k)

/-- A rewrite entry (Table 15.2, R475): entry 0 is not written. -/
def rewriteOk (idx v : Nat) : Bool :=
  let f := fld 24 v
  let op := bits (f 0 1) 4 3
  idx ≠ 0 && f 0 1 % 4 = 0 && f 1 1 = 0 && f 18 6 = 0 &&
    (if op = 1 then f 14 2 = 0x8100 || f 14 2 = 0x88A8 || f 14 2 = 0x9100 else f 14 2 = 0) && (op ≠ 3 || f 16 2 < 4096)

/-- A LIF-QUEUE entry (Table 15.3). -/
def queueEntOk (v : Nat) : Bool :=
  let f := fld 16 v
  1 ≤ f 0 1 && f 1 3 = 0 && f 4 4 ≤ 1600000 && 16 ≤ f 8 4 && f 8 4 ≤ 65536 && f 4 4 * 128 ≤ f 8 4 * 1024000 && f 12 4 = 0

/-- Entry rules of areas 40 to 58. -/
def Mach.entOkPort (m : Mach) (o : ObjDef) (i idx v : Nat) : Bool :=
  if o.is O.flxCalA ∨ o.is O.flxCalB then v < 64 || v = 0xFFFF
  else if o.is O.flxClient then fld 8 v 0 2 ≤ 0xFFFE && fld 8 v 2 2 = 0
  else if o.is O.pbStates then fld 32 v 7 1 < 16 && fld 32 v 15 1 = 0
  else if o.is O.pbTrans then fld 12 v 9 3 = 0
  else if o.is O.tenKeyProfile then v < 64
  else if o.is O.rtTable then m.routeOk idx v
  else if o.is O.tenDomain then v < 4096
  else if o.is O.lifMap then
    fld 4 v 0 1 ≤ 3 && fld 4 v 1 1 < 8 && (if fld 4 v 0 1 = 2 then 1 ≤ fld 4 v 2 2 && fld 4 v 2 2 ≤ 4094 else fld 4 v 2 2 = 0)
  else if o.is O.tcam then m.tcamOk i idx v
  else if o.is O.exmMem then m.exactOk i idx v
  else if o.is O.actCommon ∨ o.is O.actPrivate then (listItems v).all actionOk
  else if o.is O.indMem then destOk v && v >>> 28 ≠ 2
  else true

/-- Entry rules of areas 60 to 80. -/
def Mach.entOkFlow (m : Mach) (o : ObjDef) (idx v : Nat) : Bool :=
  if o.is O.basinMap then v < 16
  else if o.is O.mtrProfile then rateOk 16 v && fld 16 v 1 1 ≤ 1
  else if o.is O.epTable then m.endpointOk v
  else if o.is O.flwClass then classOk v
  else if o.is O.flwReq then flwReqOk v
  else if o.is O.schedList then v < 4
  else if o.is O.millLists then (listItems v).all stepOk
  else if o.is O.evtEpilogue then epilogueOk idx v
  else if o.is O.bufQuota then 1 ≤ v && v ≤ 40704
  else true

/-- Entry rules of areas 88 to A8. -/
def entOkSwitch (o : ObjDef) (i idx v : Nat) : Bool :=
  if o.is O.voqLimit ∨ o.is O.esEqLimit then 16 ≤ v && v ≤ 40704
  else if o.is O.ecnProfile then fld 8 v 0 2 < fld 8 v 2 2 && fld 8 v 2 2 ≤ 40704 && fld 8 v 5 1 ≤ 1 && fld 8 v 6 2 = 0
  else if o.is O.gntWindow then 16 ≤ v && v ≤ 16384
  else if o.is O.mcGroup then
    fld 8 v 0 4 < 262144 && fld 8 v 4 2 ≤ 4096 && fld 8 v 0 4 + fld 8 v 4 2 ≤ 262144 && fld 8 v 6 1 < 4 && fld 8 v 7 1 = 0
  else if o.is O.mcMember then bits v 30 28 = 0 && v % 8192 / 1024 = i
  else if o.is O.lifQueue then queueEntOk v
  else if o.is O.gclEntries then fld 8 v 1 3 = 0
  else if o.is O.polTable then rateOk 48 v && fld 48 v 1 1 % 64 = 0
  else if o.is O.rwTable then rewriteOk idx v
  else if o.is O.flTemplate then fld 8 v 0 4 < 2 ^ 19 && fld 8 v 5 3 = 0
  else if o.is O.cipherReq then cipherEntryOk (octets 4160 v)
  else true

/-- The entry rules of a table (check 12); the trim tables are judged where they are written. -/
def Mach.entryOk (m : Mach) (o : ObjDef) (i idx v : Nat) : Bool :=
  if o.area ≤ 0x58 then m.entOkPort o i idx v else if o.area ≤ 0x80 then m.entOkFlow o idx v else entOkSwitch o i idx v

/-! What an accepted entry does. -/

/-- The read-only octets of an entry kept as they stand. -/
def keepFld (size old new off n : Nat) : Nat := setFld size new off n (fld size old off n)

/-- An entry's new value with its read-only fields kept. -/
def Mach.entKeep (m : Mach) (o : ObjDef) (i idx v : Nat) : Nat :=
  let old := m.ent o i idx
  if o.is O.rtTable then keepFld 32 old v 24 8
  else if o.is O.exmMem then keepFld 64 old v 56 8
  else if o.is O.tcam then keepFld 176 old v 168 8
  else if o.is O.epTable then keepFld 64 old v 36 12
  else if o.is O.flxClient then keepFld 8 old v 4 4
  else v

/-- Tokens of a queue or port shaper after a write while its list is STOPPED, as what they lack of a burst (R484). -/
def Mach.resetLack (m : Mach) (b : Nat) (burst : Int) : Int := if m.rd O.esTokenReset b = 0 then 0 else burst

/-- A LIF-QUEUE entry written (R111, R484). -/
def Mach.queueEntPut (m : Mach) (q v : Nat) : Mach :=
  let b := m.lifPort (q / 8)
  if m.fst (fnNum .egress b) = .stopped then
    let m := m.setEnt O.lifQueue 0 q v
    { m with dp.qtok := mset 0 m.dp.qtok q (m.resetLack b (m.queueBurst q)) }.st .ok
  else (m.setPendEnt O.lifQueue 0 q (some v)).st .deferred

/-- A request entry written (R322, R324): its operation starts. One that has not ended is not written over (log entry 68). -/
def Mach.flwReqPut (m : Mach) (c : ModeCtl) (ses i v : Nat) : Mach :=
  if m.reqBusy ses i then m.st .busy
  else if fld 192 v 0 1 ≠ 0 && decide (m.fst (fnNum .basin (m.server (m.shareOf (fld 192 v 16 48)))) = .faulted) then m.st .functionFaulted
  else
    let m := m.setEnt O.flwReq 0 (reqIdx ses i) (setFld 192 (setFld 192 v 1 1 0) 8 4 0)
    if fld 192 v 0 1 = 0 then m.st .ok else (m.hostStart c ses i).st .ok

/-- A cipher entry written (R561, R562): the request is carried out. The service is refused outside OWNED (Table 18.3). -/
def Mach.cipherPutEnt (m : Mach) (c : ModeCtl) (ses i v : Nat) : Mach :=
  if m.sec.life ≠ .owned then m.st .lifecycle
  else
    let r := m.cipher c (octets 4160 (setFld 4160 v 1 1 0))
    (r.2.setEnt O.cipherReq 0 (16 * ses + i) (ofOctets r.1)).st .ok

/-- The view of the working trim image that a table is. -/
def trimView (o : ObjDef) : Nat := if o.is O.trimWork then 0 else if o.is O.trimTile then 1 else 2

/-- An entry that has passed its checks put in place, with what its table makes of it. -/
def Mach.entryPut (m : Mach) (c : ModeCtl) (rq : Req) (o : ObjDef) (i idx v : Nat) : Mach :=
  if o.is O.flwReq then m.flwReqPut c rq.win idx v
  else if o.is O.cipherReq then m.cipherPutEnt c rq.win idx v
  else if o.is O.trimWork ∨ o.is O.trimTile ∨ o.is O.trimDie then
    let r := m.trimEntry c (trimView o) idx (octets o.len v)
    r.2.st r.1
  else if o.is O.lifQueue then m.queueEntPut idx v
  else if o.is O.tenKeyProfile then (m.setPendEnt o i idx (some v)).st .deferred
  else if o.is O.polTable then (m.polWrite i idx v).st .ok
  else if o.is O.flTemplate then (m.templateWrite idx (fld 8 v 0 4)).st .ok
  else (m.setEnt o i idx (m.entKeep o i idx v)).st .ok

/-- One entry written under checks 12 to 15. -/
def Mach.entryWrite (m : Mach) (c : ModeCtl) (rq : Req) (o : ObjDef) (i idx v : Nat) : Mach :=
  if !m.entryOk o i idx v then m.st .range
  else
    match m.holdCheck rq o i idx with
    | some r => m.st r
    | none => m.entryPut c rq o i idx v

/-- Whether a status lets what it answers go on. -/
def Status.fine (r : Status) : Bool := r = .ok || r = .deferred

/-- The status of several parts: the first that fails, else DEFERRED where any was (R164). -/
def Status.join (a b : Status) : Status := if !a.fine then a else if !b.fine then b else if a = .deferred ∨ b = .deferred then .deferred else .ok

/-- Entries written in rising index order from idx on (R132): the index after the last one written, and the machine, whose status is the
run's. -/
def Mach.entriesWrite (m : Mach) (c : ModeCtl) (rq : Req) (o : ObjDef) (i idx : Nat) (acc : Status) : List Nat → Nat × Mach
  | [] => (idx, m.st acc)
  | v :: r =>
    let m := m.entryWrite c rq o i idx v
    if m.com.status.fine then m.entriesWrite c rq o i (idx + 1) (acc.join m.com.status) r else (idx, m)

/-- The entries that a string of octets spells, whole ones only. -/
def chunks (size : Nat) (fuel : Nat) (l : List Byte) : List Nat :=
  match fuel with
  | 0 => []
  | k + 1 => ofOctets (l.take size) :: chunks size k (l.drop size)

/-- Privilege of a window's subindexes that are not its data: TBL, TBL-ENTRIES and TBL-ENTRY-SIZE are P0, the rest the table's (Table 4.7). -/
def subPriv (o : ObjDef) (sub : Nat) : Nat := if sub = 0 ∨ sub = 4 ∨ sub = 5 then 0 else o.priv

/-- Checks 8 to 10 of a write to a table's window data. -/
def Mach.winCheck (m : Mach) (c : ModeCtl) (rq : Req) (o : ObjDef) : Option Status :=
  if !areaOpen c.judged o.area o.item true || m.modeRefuses c o then some .mode
  else if rq.priv < o.priv then some .privilege
  else if o.acc = .ro then some .access
  else none

/-- A whole run of entries written to a table (R132): RANGE where it passes the table's end or 16 MiB, TYPE for a wrong length; answers the
index after the last entry written. -/
def Mach.winWrite (m : Mach) (c : ModeCtl) (rq : Req) (o : ObjDef) (i base count : Nat) (data : List Byte) : Nat × Mach :=
  match m.winCheck c rq o with
  | some r => (base, m.st r)
  | none =>
    if data.length ≠ count * o.len then (base, m.st .type)
    else if m.tblEntries o < base + count ∨ 16777216 < count * o.len then (base, m.st .range)
    else m.entriesWrite c rq o i base .ok (chunks o.len count data)

end Sys2Proof.Machine
end

