-- ==== Sys2Proof/Machine/Reply.lean ====
section
/-! DEFINITION. What the Clelek engine sends back (R150 to R155, R164, R169): replies, object records, the early end of a message, and
replies that wait for request entries (R322). -/

namespace Sys2Proof.Machine

/-- Octets of body that one device frame holds on a path (R147, R149): in band 1,500 octets of payload bound it too. -/
def Mach.frameRoom (m : Mach) (path : Nat) : Nat :=
  (if path = 2 then min (m.rd O.clkFrameMax) 1500 else m.rd O.clkFrameMax) - 48

/-- A device frame sent on a session under a key (R150, R151). -/
def Mach.sendUnder (m : Mach) (c : ModeCtl) (key : Nat) (toward : RepTo) (more : Bool) (st : Status) (count : Nat) (body : List Byte) : Mach :=
  let (e, n) := m.ivOf toward.ses
  let iv := clIv 1 toward.ses e n
  let flags := 1 + (if toward.conf then 2 else 0) + if more then 4 else 0
  let x := sealed key iv toward.conf (clHead toward.op toward.ses flags toward.seq count st.code body.length iv) body
  ((m.emit (.reply toward.ses toward.path toward.dest toward.op toward.seq toward.conf more st count x.1 e n x.2)).inbandOut toward.path toward.dest
    (48 + body.length)).ivUsed c toward.ses

/-- A device frame sent on a session under its own key. -/
def Mach.sendFrame (m : Mach) (c : ModeCtl) (toward : RepTo) (more : Bool) (st : Status) (count : Nat) (body : List Byte) : Mach :=
  m.sendUnder c (m.sesKey toward.ses) toward more st count body

/-- Where the object records of a body begin (Table 5.4), for RECORD-COUNT (Table 5.2). -/
def recStarts (fuel off : Nat) (l : List Byte) : List Nat :=
  match fuel, l with
  | _, [] => []
  | 0, _ => []
  | k + 1, l =>
    let size := (8 + oct l 6 2 + 3) / 4 * 4
    off :: recStarts k (off + size) (l.drop size)

/-- The frames of a reply longer than one: MORE on all but the last, each counting the records that begin in it (log entry 31). -/
def Mach.answerCut (m : Mach) (c : ModeCtl) (toward : RepTo) (st : Status) (starts : List Nat) (off : Nat) : List (List Byte) → Mach
  | [] => m
  | x :: r =>
    let n := (starts.filter fun k => decide (off ≤ k ∧ k < off + x.length)).length
    (m.sendFrame c toward (!r.isEmpty) st n x).answerCut c toward st starts (off + x.length) r

/-- A string in pieces of at most n octets. -/
def pieces (n fuel : Nat) (l : List Byte) : List (List Byte) :=
  match fuel with
  | 0 => []
  | k + 1 => if l.length ≤ n then [l] else l.take n :: pieces n k (l.drop n)

/-- A reply, in as many frames as CLK-FRAME-MAX and its path ask for (R147, R149); one owed to a session that is disabled is withheld (R159). -/
def Mach.answer (m : Mach) (c : ModeCtl) (toward : RepTo) (st : Status) (count : Nat) (body : List Byte) : Mach :=
  let room := m.frameRoom toward.path
  if !m.sesOn toward.ses then m
  else if body.length ≤ room then m.sendFrame c toward false st count body
  else m.answerCut c toward st (recStarts body.length 0 body) 0 (pieces room body.length body)

/-- A reply of several device frames, MORE on all but the last (R169, R553). -/
def Mach.answerParts (m : Mach) (c : ModeCtl) (toward : RepTo) : List (List Byte) → Mach
  | [] => m
  | [x] => m.sendFrame c toward false .ok 0 x
  | x :: r => (m.sendFrame c toward true .ok 0 x).answerParts c toward r

/-- A string padded with zero octets to a multiple of 4 (R153). -/
def pad4 (l : List Byte) : List Byte := l ++ List.replicate ((4 - l.length % 4) % 4) 0

/-- An object record of a reply (Table 5.4). A value longer than a U16 LENGTH counts, which only WIN-DATA has, has no stated outcome: DESIGN CHOICE, it is
carried whole and LENGTH holds the low 16 bits of its length (log entry 157). -/
def replyRec (id : Nat) (st : Status) (pending : Bool) (val : List Byte) : List Byte :=
  pad4 (octets 4 id ++ octets 1 st.code ++ octets 1 (ofB pending) ++ octets 2 val.length ++ val)

/-- The open message of a session. -/
def Mach.msg (m : Mach) (ses : Nat) : Option OpenMsg := mget none m.clk.msgs ses

/-- The machine with a session's open message replaced. -/
def Mach.setMsg (m : Mach) (ses : Nat) (x : Option OpenMsg) : Mach := { m with clk.msgs := mset none m.clk.msgs ses x }

/-- A session's message in progress ends early (R155): BATCH-ABORTED answers its last frame; a window write keeps what it has written. -/
def Mach.endMsg (m : Mach) (c : ModeCtl) (ses : Nat) : Mach :=
  match m.msg ses with
  | none => m
  | some x => (m.setMsg ses none).answer c x.toward .batchAborted 0 []

/-! Slots read as operations at their basins (R321, R324, R335, R338). -/

/-- The basin that serves slot n of the device. -/
def Mach.slotBasin (m : Mach) (n : Nat) : Nat := m.server (m.slotAt n / 2 ^ 24)

/-- Whether a slot of a run is of a FAULTED basin: its read fails (R324). -/
def Mach.slotsFaulted (m : Mach) (base count : Nat) : Bool :=
  (List.range count).any fun k => decide (m.fst (fnNum .basin (m.slotBasin (base + k))) = .faulted)

/-- The read of one slot, whose octets stand at `off` of a reply: an operation in the chain of the slot's key, made at once where it heads that chain and its
basin serves host operations; answers what is left to wait for. -/
def Mach.slotRead (m : Mach) (c : ModeCtl) (n off : Nat) : List SlotRead × Mach :=
  let v := m.slotBasin n
  let id := m.clk.reads
  let x : SlotRead := ⟨off, n, id, false⟩
  match ({ m with clk.reads := id + 1 }).enterOther c v (.read id) (rKey (m.slotRec (m.slotAt n))) with
  | (some e, m) => (match m.ift v e with
    | some y => if m.isHead v y && m.hostServes v y.key then ([], m.freeIft c v e) else ([x], m)
    | none => ([x], m))
  | (none, m) => ([x], m)

/-- The reads of a run of slots, in slot order. -/
def Mach.slotReads (m : Mach) (c : ModeCtl) (base count off : Nat) : List SlotRead × Mach :=
  (List.range count).foldl (fun a k => let r := a.2.slotRead c (base + k) (off + 128 * k); (a.1 ++ r.1, r.2)) ([], m)

/-- A slot of a waiting reply read, if its turn has come: its octets put in the body. One whose operation was lost with its basin fails the reply. -/
def Mach.slotSettle (m : Mach) (c : ModeCtl) (x : Owed) (s : SlotRead) : Owed × Mach :=
  let v := m.slotBasin s.slot
  if s.done then ({ x with slots := x.slots ++ [s] }, m)
  else
    match m.mover v (.read s.id) with
    | some (e, y) =>
      if m.isHead v y && m.hostServes v y.key then
        ({ x with
            slots := x.slots ++ [{ s with done := true }]
            body := x.body.take s.off ++ octets 128 (m.slotView s.slot) ++ x.body.drop (s.off + 128) }, m.freeIft c v e)
      else ({ x with slots := x.slots ++ [s] }, m)
    | none =>
      if m.atDoor v (.read s.id) then ({ x with slots := x.slots ++ [s] }, m)
      else ({ x with slots := x.slots ++ [{ s with done := true }], status := x.status.join .functionFaulted }, m)

/-- The slots of a waiting reply read as far as their turns have come. -/
def Mach.slotsSettle (m : Mach) (c : ModeCtl) (x : Owed) : Owed × Mach :=
  x.slots.foldl (fun a s => a.2.slotSettle c a.1 s) ({ x with slots := [] }, m)

/-- Slot reads whose reply is not wanted any more leave their chains. -/
def Mach.readsDrop (m : Mach) (c : ModeCtl) : Mach :=
  let stray := fun (m : Mach) (op : IOp) => match op with
    | .read id => !(m.clk.owed.any fun x => x.slots.any fun s => decide (s.id = id))
    | _ => false
  (List.range 16).foldl (fun m v =>
    let b := m.basin v
    let m := if b.inOther.any fun w => stray m w.op then m.setBasin v { b with inOther := b.inOther.filter fun w => !stray m w.op } else m
    (m.ifts v).foldl (fun m p => if stray m p.2.op then m.freeIft c v p.1 else m) m) m

/-! Replies that wait. -/

/-- The device frames of a window read (R169): whole entries, or an entry too long for a frame in parts. -/
def winFrames (id len room base : Nat) (data : List Byte) (count : Nat) : List (List Byte) :=
  let head := fun b n => octets 4 id ++ octets 4 0 ++ octets 4 b ++ octets 4 n
  if room < len then
    (List.range count).flatMap fun k =>
      let parts := pieces room (len + 1) ((data.drop (k * len)).take len)
      parts.zipIdx.map fun p => head (base + k) (if p.2 + 1 = parts.length then 1 else 0) ++ p.1
  else
    let per := room / len
    (List.range ((count + per - 1) / per)).map fun j =>
      let n := min per (count - j * per)
      head (base + j * per) n ++ (data.drop (j * per * len)).take (n * len)

/-- A waiting reply sent: the frames of a window read of 128-octet slots, or one body; what a READ_CLEAR waited for comes with no frame. -/
def Mach.owedSend (m : Mach) (c : ModeCtl) (x : Owed) (st : Status) : Mach :=
  if x.toward.op = 0 then m.emit (.slots x.toward.ses st (if st = .ok then x.body else []))
  else
  match x.frames with
  | some (id, base, count) =>
    if !m.sesOn x.toward.ses then m
    else if st.fine then m.answerParts c x.toward (winFrames id 128 (m.frameRoom x.toward.path - 16) base x.body count)
    else m.answer c x.toward st 0 []
  | none => m.answer c x.toward st x.count x.body

/-- A reply that is sent now, or once the request entries it has started are complete (R322) and the slots it reads have been read (R321). -/
def Mach.answerOwed (m : Mach) (c : ModeCtl) (toward : RepTo) (wait : List Nat) (st : Status) (count : Nat) (body : List Byte) (slots : List SlotRead := [])
    (frames : Option (Nat × Nat × Nat) := none) : Mach :=
  let x : Owed := ⟨toward, wait, st, count, body, slots, frames⟩
  if wait.isEmpty && slots.isEmpty then m.owedSend c x st else { m with clk.owed := m.clk.owed ++ [x] }

/-- The request entries of a session, of a run of them, whose operations have not ended (R322). -/
def Mach.openReqs (m : Mach) (ses base count : Nat) : List Nat :=
  ((List.range 256).filter fun i => decide (base ≤ i ∧ i < base + count)).filter fun i => m.reqBusy ses i

/-- One waiting reply: sent once its entries and its slots are done; an entry that ended without a result was lost with its basin (R324). -/
def Mach.owedOne (m : Mach) (c : ModeCtl) (x : Owed) : Mach :=
  let r := m.slotsSettle c x
  let x := r.1
  let m := r.2
  if (x.wait.any fun i => m.reqBusy x.toward.ses i) || x.slots.any fun s => !s.done then { m with clk.owed := m.clk.owed ++ [x] }
  else
    let lost := x.wait.any fun i => decide (fld 192 (m.reqEnt x.toward.ses i) 1 1 = 0)
    m.owedSend c x (if lost then x.status.join .functionFaulted else x.status)

/-- Waiting replies whose entries and slots are done are sent. -/
def Mach.owedSettle (m : Mach) (c : ModeCtl) : Mach :=
  (m.clk.owed.foldl (fun (m : Mach) x => m.owedOne c x) { m with clk.owed := [] }).readsDrop c

end Sys2Proof.Machine
end

