-- ==== Sys2Proof/Machine/Write.lean ====
section
/-! DEFINITION. What a write to each object does once its checks have passed: the objects whose write acts, by area, and the plain rest. -/

namespace Sys2Proof.Machine

/-- A value stored (RW and RS objects, R12). -/
def Mach.plain (m : Mach) (o : ObjDef) (i v : Nat) : Mach := (m.wr o i v).st .ok

/-- The modes that may be requested, by code (R69). -/
def modeOfCode (v : Nat) : Option Mode :=
  match v with
  | 1 => some .pilot | 3 => some .trim | 4 => some .primed | 5 => some .lit | 6 => some .lean | 7 => some .ebb | 8 => some .banked
  | 10 => some .probe | 11 => some .quench | _ => none

/-- A write to a session object (R159, R538, R648): session 0 takes none in SHIPPED, nor of its enable, slot and privilege in TEST and RETURNED;
a change of any but SES-CONFID ends the session's message in progress, and disabling closes the session, whose replies are withheld. -/
def Mach.sesPut (m : Mach) (c : ModeCtl) (o : ObjDef) (i v : Nat) : Mach :=
  if i = 0 ∧ (m.sec.life = .shipped ∨
      ((m.sec.life = .test ∨ m.sec.life = .returned) ∧ (o.is O.sesEnable ∨ o.is O.sesKeySlot ∨ o.is O.sesPriv))) then m.st .lifecycle
  else
    let off := o.is O.sesEnable && v = 0
    let m := if o.is O.sesConfid ∨ off ∨ m.rd o i = v then m else m.endMsg c i
    let m := m.wr o i v
    (if off then m.sesClose i else m).st .ok

/-- A write of SUB-RATE (R172): the bucket is brought up to now under the old rate. -/
def Mach.subRatePut (m : Mach) (i v : Nat) : Mach :=
  let s := mget {} m.clk.subs i
  let t := m.subTok i
  ({ m with clk.subs := mset {} m.clk.subs i { s with tok := min t (v * 1000000000), at_ := m.ns } }).plain O.subRate i v

/-- Areas 10 and 20. -/
def Mach.putHost (m : Mach) (c : ModeCtl) (o : ObjDef) (i v : Nat) : Mach :=
  if o.is O.lcShip then m.lcShip c
  else if o.item = 0x1000 then m.sesPut c o i v
  else if o.is O.subRate then m.subRatePut i v
  else if o.is O.mgtSpeed then ((m.wr O.mgtSpeed i v).wr O.mgtLink i 0).st .ok
  else m.plain o i v

/-- VCORE-RETENTION written (R80): in BANKED the core rails carry it at once. -/
def Mach.retentionPut (m : Mach) (c : ModeCtl) (v : Nat) : Mach :=
  (if c.mode = .banked then (m.wr O.vcoreRetention 0 v).coreRails v else m.wr O.vcoreRetention 0 v).st .ok

/-- Areas 30 and C0. -/
def Mach.putPower (m : Mach) (c : ModeCtl) (o : ObjDef) (i v : Nat) : Mach :=
  if o.is O.resetBlock then m.resetBlock c v
  else if o.is O.resetDie then m.resetDie c v
  else if o.is O.avsLoopEn then m.avsLoopEnSet c v
  else if o.is O.coreVcoreSet then m.vcoreSet i v
  else if o.is O.vcoreRetention then m.retentionPut c v
  else if o.acc = .rl then m.writeRl o i v
  else m.plain o i v

/-- Areas 40, 50 and 58. -/
def Mach.putPort (m : Mach) (c : ModeCtl) (o : ObjDef) (i v : Nat) : Mach :=
  if o.is O.bpEnable then m.enableWrite c i v
  else if o.is O.bpDownHold then m.holdWrite c i false v
  else if o.is O.bpUpHold then m.holdWrite c i true v
  else if o.is O.flxCalUse then m.calUse i v
  else if o.is O.bpXoff ∨ o.is O.bpXon then (m.plain o i v).fcAll c i
  else if o.is O.flowSeed then ({ m with dp.seedDirty := true }).plain o i v
  else if o.acc = .rl then m.writeRl o i v
  else m.plain o i v

/-- Area 48. -/
def Mach.putTime (m : Mach) (o : ObjDef) (i v : Nat) : Mach :=
  if o.is O.tbRate then m.tbRate v
  else if o.is O.tbAdjust then m.tbStep (.adjust (sgn 64 v))
  else if o.is O.tbSet then m.tbStep (.set v)
  else if o.is O.tbSetAtPps then m.tbStep (.setAtPps v)
  else if o.is O.tbRefSource then m.refSource v
  else if o.is O.ppsInEdge then m.ppsEdgeSet v
  else m.plain o i v

/-- A write of CRB-RATE or CRB-BURST: the tokens are brought up to now first (R349). -/
def Mach.crbPut (m : Mach) (c : ModeCtl) (o : ObjDef) (i v : Nat) : Mach :=
  (m.setBasin i { m.basin i with tok := m.crbTok c i, tokAt := m.ns }).plain o i v

/-- Areas 60 to 80. -/
def Mach.putFlow (m : Mach) (c : ModeCtl) (o : ObjDef) (i v : Nat) : Mach :=
  if o.is O.flwClear then m.flwClear
  else if o.is O.flwGrow then m.flwGrow
  else if o.is O.flwSizeLog2 then m.flwSize v
  else if o.is O.crbRate ∨ o.is O.crbBurst then m.crbPut c o i v
  else if o.is O.poolRecount then m.poolRecount
  else if o.is O.trcArm then m.trcArm i
  else if o.is O.hbmMapOrder then m.remap v
  else if o.is O.hplRebuild then m.hplRebuild v
  else m.plain o i v

/-- A write of a port shaper (R484): one to a STOPPED list sets its tokens. -/
def Mach.pshapePut (m : Mach) (o : ObjDef) (i v : Nat) : Mach :=
  let m := m.writeRl o i v
  if m.fst (fnNum .egress i) = .stopped ∧ m.com.status = .ok then m.setPort i { m.port i with tok := m.resetLack i (m.portBurst i) } else m

/-- Areas 88 to 98. -/
def Mach.putSwitch (m : Mach) (c : ModeCtl) (o : ObjDef) (i v : Nat) : Mach :=
  if o.is O.esGateUse then m.gateUse i v
  else if o.is O.esPshapeRate ∨ o.is O.esPshapeBurst then m.pshapePut o i v
  else if o.is O.cntStickyClear then m.stickyClear v
  else if o.is O.gecSelect then (m.gecSettle c).gecWrite c i v
  else if o.is O.flColEn then m.colEnable c i v
  else if o.is O.flColRate then (m.setCol i { m.col i with lack := m.colLack i, lackAt := m.ns }).plain o i v
  else m.plain o i v

/-- Areas A0 to B8, by the session that writes. The signature of a wick and the outcome of a retest, which no row supplies here, are free values
(log entry 2). -/
def Mach.putSec (m : Mach) (c : ModeCtl) (ses : Nat) (o : ObjDef) (i v : Nat) : Mach :=
  if o.is O.ownerClaim then m.ownerClaim c v
  else if o.is O.ownerTransfer then m.ownerTransfer c v
  else if o.is O.ownerReturn then m.ownerReturn c v
  else if o.is O.slotErase then m.slotErase c i
  else if o.is O.trngRetest then m.freed.trngRetest c (decide (m.freeVal 1 = 1))
  else if o.is O.wickApply then m.freed.wickApply c ses (decide (m.freeVal 1 = 1))
  else if o.is O.wickRevoke then m.wickRevoke c ses
  else if o.is O.dbgLevelReq then m.levelReq c ses v
  else if o.is O.dbgOwnerConsent then ((m.wr o i v).dbgSettle c 5 ses (match m.dbg.wick with | some w => w.ticket | none => 0)).st .ok
  else if o.is O.dbgObserveEn then ((m.wr o i v).dbgSettle c 2 ses 0).st .ok
  else if o.is O.fltAck then (if v = 0 then m.ackOverflow else m.ackPin)
  else if o.is O.fltRestore then m.restore c v
  else if o.is O.trimMeasure then m.trimMeasure v
  else if o.is O.trimCommit then m.trimCommit
  else m.plain o i v

/-- A value that has passed its checks, put to its object. -/
def Mach.put (m : Mach) (c : ModeCtl) (ses : Nat) (o : ObjDef) (i v : Nat) : Mach :=
  if o.area = 0x10 ∨ o.area = 0x20 then m.putHost c o i v
  else if o.area = 0x30 ∨ o.area = 0xC0 then m.putPower c o i v
  else if o.area = 0x48 then m.putTime o i v
  else if o.area ≤ 0x58 then m.putPort c o i v
  else if o.area ≤ 0x80 then m.putFlow c o i v
  else if o.area ≤ 0x98 then m.putSwitch c o i v
  else m.putSec c ses o i v

/-- The two objects whose write moves the mode, and the rest. -/
def objPut (c : ModeCtl) (m : Mach) (rq : Req) (o : ObjDef) (i v : Nat) : ModeCtl × Mach :=
  if o.is O.modeReq then
    (match modeOfCode v with
     | some k => modeReqWrite c m rq.win k
     | none => (c, m.st .range))
  else if o.is O.resetAssembly then assemblyReset c m
  else (c, m.put c rq.win o i v)

/-- A write to a table's own window (Table 4.7). -/
def Mach.winSub (m : Mach) (c : ModeCtl) (rq : Req) (o : ObjDef) (i sub : Nat) (val : List Byte) : Mach :=
  let w := m.win rq.win o i
  let v := ofOctets val
  if !areaOpen c.judged o.area o.item true then m.st .mode
  else
    match sub with
    | 1 =>
      if rq.priv < o.priv then m.st .privilege
      else if val.length ≠ 4 then m.st .type
      else (m.setWin rq.win o i { w with base := v }).st .ok
    | 2 =>
      if rq.priv < o.priv then m.st .privilege
      else if val.length ≠ 4 then m.st .type
      else if v = 0 ∨ 65536 < v then m.st .range
      else (m.setWin rq.win o i { w with count := v }).st .ok
    | 3 =>
      let r := m.winWrite c rq o i w.base w.count val
      r.2.setWin rq.win o i { w with next := r.1 }
    | _ => m.st (if rq.priv < subPriv o sub then .privilege else .access)

/-- A write to what an identifier names, past check 7. -/
def writeTgt (c : ModeCtl) (m : Mach) (rq : Req) (t : Tgt) (val : List Byte) : ModeCtl × Mach :=
  match t with
  | .fn f sub => (c, m.fnWrite c rq f sub val)
  | .win o i sub => (c, m.winSub c rq o i sub val)
  | .obj o i =>
    match m.writeCheck c rq o i val with
    | some r => (c, m.st r)
    | none => objPut c m rq o i (ofOctets val)

/-- A write of an identifier (R110): status in the machine. -/
def writeId (c : ModeCtl) (m : Mach) (rq : Req) (id : Nat) (val : List Byte) : ModeCtl × Mach :=
  match target id with
  | none => (c, m.st .unknownObject)
  | some t => writeTgt c m rq t val

/-- OBJECT_WRITE: a write of one object by a session, with no frame around it. -/
def objectWrite (c : ModeCtl) (m : Mach) (ses id : Nat) (val : List Byte) : ModeCtl × Mach :=
  if m.sesOn ses then writeId c m (m.reqOf ses) id val else (c, m.st .session)

end Sys2Proof.Machine
end

