-- ==== Sys2Proof/Machine/Batch.lean ====
section
/-! DEFINITION. Batches and bundles (R135 to R139, R165 to R168, R554 to R557): their records, the checks before any effect, and execution with
its holds (R123, R124). -/

namespace Sys2Proof.Machine

/-! Records (Table 4.9). -/

/-- A record from its op, reserved octet and payload. -/
def brec (op rsvd : Nat) (p : List Byte) : BRec :=
  if rsvd ≠ 0 then .bad
  else
    match op with
    | 1 =>
      let k := oct p 0 2
      if 1 ≤ k ∧ k ≤ 32 ∧ p.length = 2 + 2 * k then .segBegin ((List.range k).map fun j => oct p (2 + 2 * j) 2) else .bad
    | 2 => if 4 ≤ p.length then .write (oct p 0 4) (p.drop 4) else .bad
    | 3 => if 12 ≤ p.length then .winWrite (oct p 0 4) (oct p 4 4) (oct p 8 4) (p.drop 12) else .bad
    | 4 => if p.length = 1 ∧ oct p 0 1 ≤ 1 then .segEnd (oct p 0 1) else .bad
    | _ => .bad

/-- The records of a string of octets; what runs past its end is not well formed. -/
def brecs (fuel : Nat) (l : List Byte) : List BRec :=
  match fuel, l with
  | 0, _ => []
  | _, [] => []
  | k + 1, l =>
    let n := oct l 2 2
    if l.length < 4 + n then [.bad] else brec (oct l 0 1) (oct l 1 1) ((l.drop 4).take n) :: brecs k (l.drop (4 + n))

/-- WRITE records that have begun in a string of octets (R165). -/
def writesBegun (fuel : Nat) (l : List Byte) : Nat :=
  match fuel, l with
  | 0, _ => 0
  | _, [] => 0
  | k + 1, l => (if oct l 0 1 = 2 then 1 else 0) + writesBegun k (l.drop (4 + oct l 2 2))

/-- Whether a BATCH body has passed a limit of R165. -/
def batchTooBig (body : List Byte) : Bool := decide (1048576 < body.length) || decide (1024 < writesBegun body.length body)

/-- Whether records form exactly one segment (R165). -/
def oneSegment (l : List BRec) : Bool :=
  match l with
  | .segBegin _ :: r =>
    (match r.reverse with
     | .segEnd _ :: mid => mid.all fun x => match x with | .write _ _ => true | .winWrite _ _ _ _ => true | _ => false
     | _ => false)
  | _ => false

/-! Checks before any effect (R137, R166). -/

/-- Staging: the machine as the records so far would leave its tables, the open segment, its WRITE records and segments begun. -/
structure Stg where
  m : Mach
  seg : Option (List Nat)
  writes : Nat
  segs : Nat

/-- Whether the rules of R137 forbid a record that names an object's instance or entry: areas A0 and A8, MODE-REQ, and RS objects whose owners
the segment does not name. -/
def Mach.forbids (m : Mach) (o : ObjDef) (i idx : Nat) (seg : List Nat) : Bool :=
  decide (o.area = 0xA0) || decide (o.area = 0xA8) || o.is O.modeReq || (decide (o.acc = .rs) && !(m.owners o i idx).all fun f => seg.contains f)

/-- The effect that later checks see of a write: its value; a command has none. -/
def Mach.stagePut (m : Mach) (o : ObjDef) (i v : Nat) : Mach := if o.ty = .cmd then m else m.wr o i v

/-- A WRITE to an object, staged. -/
def Mach.stageObj (m : Mach) (c : ModeCtl) (rq : Req) (seg : List Nat) (o : ObjDef) (i : Nat) (val : List Byte) : Status × Mach :=
  match m.writeCheck c rq o i val with
  | some .mode => (.mode, m)
  | some .privilege => (.privilege, m)
  | r =>
    if m.forbids o i 0 seg then (.access, m)
    else
      match r with
      | some st => (st, m)
      | none => (.ok, m.stagePut o i (ofOctets val))

/-- A WRITE to a control record, staged with the function treated as STOPPED (R166). -/
def Mach.stageFn (m : Mach) (c : ModeCtl) (rq : Req) (f sub : Nat) (val : List Byte) : Status × Mach :=
  if sub ≠ 2 ∧ sub ≠ 3 then
    let r := m.fnWrite c rq f sub val
    (r.com.status, r)
  else if !areaOpen c.judged (fnItem f).1 (fnItem f).2 true ∨ (sub = 2 ∧ !startMode c f) then (.mode, m)
  else if rq.priv < 1 then (.privilege, m)
  else if val ≠ [] then (.type, m)
  else if sub = 2 ∧ (m.startFail f).isSome then (.range, m)
  else (.ok, m)

/-- Entries staged: the first that breaks its table's rules decides. -/
def Mach.stageEnts (m : Mach) (o : ObjDef) (i idx : Nat) : List Nat → Status × Mach
  | [] => (.ok, m)
  | v :: r => if m.entryOk o i idx v then (m.setEnt o i idx (m.entKeep o i idx v)).stageEnts o i (idx + 1) r else (.range, m)

/-- A run of entries of a table, staged. -/
def Mach.stageWin (m : Mach) (c : ModeCtl) (rq : Req) (seg : List Nat) (o : ObjDef) (i base count : Nat) (data : List Byte) : Status × Mach :=
  match m.winCheck c rq o with
  | some .mode => (.mode, m)
  | some .privilege => (.privilege, m)
  | r =>
    if (List.range (max 1 (min count (data.length / o.len + 1)))).any fun k => m.forbids o i (base + k) seg then (.access, m)
    else if r.isSome then (.access, m)
    else if data.length ≠ count * o.len then (.type, m)
    else if m.tblEntries o < base + count ∨ 16777216 < count * o.len then (.range, m)
    else m.stageEnts o i base (chunks o.len count data)

/-- A WIN-WRITE, staged: what is no table draws ACCESS, past mode and privilege (Table 5.6). -/
def Mach.stageWinWrite (m : Mach) (c : ModeCtl) (rq : Req) (seg : List Nat) (id base count : Nat) (data : List Byte) : Status × Mach :=
  match target id with
  | none => (.unknownObject, m)
  | some (.win o i 0) => m.stageWin c rq seg o i base count data
  | some (.win o _ _) => ((m.winCheck c rq o).getD .access, m)
  | some (.obj o _) => (if !areaOpen c.judged o.area o.item true then .mode else if rq.priv < o.priv then .privilege else .access, m)
  | some (.fn f _) => (if areaOpen c.judged (fnItem f).1 (fnItem f).2 true then .access else .mode, m)

/-- A WRITE, staged. -/
def Mach.stageWrite (m : Mach) (c : ModeCtl) (rq : Req) (seg : List Nat) (id : Nat) (val : List Byte) : Status × Mach :=
  match target id with
  | none => (.unknownObject, m)
  | some (.obj o i) => m.stageObj c rq seg o i val
  | some (.fn f sub) => m.stageFn c rq f sub val
  | some (.win o i 3) =>
    let w := m.win rq.win o i
    m.stageWin c rq seg o i w.base w.count val
  | some (.win o i sub) =>
    let r := m.winSub c rq o i sub val
    if (r.com.status = .mode ∨ r.com.status = .privilege) ∨ !(decide (o.area = 0xA0) || decide (o.area = 0xA8)) then (r.com.status, r) else (.access, m)

/-- The first function that keeps a segment from beginning (R137, R166): a reserved number; in a batch one that is held or FAULTED too. -/
def Mach.segStatus (m : Mach) (batch : Bool) : List Nat → Status
  | [] => .ok
  | f :: r =>
    if fnKind f = none then .range
    else if batch ∧ (m.fn f).holder ≠ 0xFF then .busy
    else if batch ∧ m.fst f = .faulted then .functionFaulted
    else m.segStatus batch r

/-- One record staged. A segment's 1,025th WRITE (R137) draws ACCESS where checks 7 to 9 pass. -/
def stageRec (c : ModeCtl) (rq : Req) (batch : Bool) (s : Stg) (x : BRec) : Status × Stg :=
  let seg := s.seg.getD []
  match x with
  | .bad => (.type, s)
  | .segBegin fs => if s.seg.isSome then (.access, s) else (s.m.segStatus batch fs, { s with seg := some fs, writes := 0, segs := s.segs + 1 })
  | .segEnd _ => if s.seg.isSome then (.ok, { s with seg := none }) else (.access, s)
  | .write id val =>
    let r := s.m.stageWrite c rq seg id val
    if s.seg.isSome ∧ 1024 ≤ s.writes ∧ r.1 ≠ .unknownObject ∧ r.1 ≠ .mode ∧ r.1 ≠ .privilege then (.access, s)
    else (r.1, { s with m := r.2, writes := s.writes + 1 })
  | .winWrite id base count data =>
    let r := s.m.stageWinWrite c rq seg id base count data
    (r.1, { s with m := r.2 })

/-- Records staged in order: how many passed, the status, and the staging after them (R137, R166). -/
def stageAll (c : ModeCtl) (rq : Req) (batch : Bool) (s : Stg) : List BRec → Nat × Status × Stg
  | [] => (0, .ok, s)
  | x :: r =>
    let y := stageRec c rq batch s x
    if y.1 = .ok then
      let z := stageAll c rq batch y.2 r
      (z.1 + 1, z.2)
    else (0, y.1, y.2)

/-- A reply record of a batch record; the identifier of one that names no object is a free value (log entry 2). -/
def Mach.recReply (m : Mach) (x : BRec) (st : Status) : List Byte × Mach :=
  match x with
  | .write id _ => (replyRec id st false [], m)
  | .winWrite id _ _ _ => (replyRec id st false [], m)
  | _ => (replyRec (m.freeVal 32) st false [], m.freed)

/-- Reply records of the first records that passed, then of one that failed. -/
def Mach.stagedReply (m : Mach) (n : Nat) (st : Status) : List BRec → List Byte × Mach
  | [] => ([], m)
  | x :: r =>
    match n with
    | 0 => m.recReply x st
    | k + 1 =>
      let a := m.recReply x .ok
      let b := a.2.stagedReply k st r
      (a.1 ++ b.1, b.2)

/-- A BATCH body after its last frame (R165, R166): refused whole, or staged for execution. A fifth staged batch draws BUSY (R168). -/
def Mach.batchStage (m : Mach) (c : ModeCtl) (toward : RepTo) (body : List Byte) : Mach :=
  let l := brecs body.length body
  if !oneSegment l then m.answer c toward .type 0 []
  else if 4 ≤ m.clk.staged.length then m.answer c toward .busy 0 []
  else
    let r := stageAll c { ses := toward.ses, priv := m.sesP toward.ses, win := toward.ses, staged := true } true ⟨m, none, 0, 0⟩ l
    if r.2.1 = .ok then
      let s : Staged := { toward := toward, mute := false, holder := toward.ses, priv := m.sesP toward.ses, recs := l, bundle := false, id := 0, digest := 0 }
      { m with clk.staged := m.clk.staged ++ [s] }
    else
      let b := m.stagedReply r.1 r.2.1 l
      b.2.answer c toward r.2.1 (r.1 + 1) b.1

/-! Bundles (R135, R137, R556). -/

/-- Whether a signer is accepted in the lifecycle state (Table 18.3). -/
def Mach.signerOk (m : Mach) (vendor : Bool) : Bool :=
  match m.sec.life, vendor with
  | .owned, false => true
  | .owned, true => m.rdB O.vendorBundleOk
  | .test, true => true
  | .returned, true => true
  | _, _ => false

/-- Whether a bundle's header and length are well formed (Table 4.8). -/
def bundleHeaderOk (b : List Byte) : Bool :=
  decide (2484 ≤ b.length) && oct b 0 4 = 0x56424E44 && oct b 4 2 = 1 && oct b 6 2 = 64 && oct b 36 2 ≤ 256 && oct b 38 1 ≤ 1 &&
    oct b 40 24 = 0 && oct b 32 4 ≤ 67108864 && decide (b.length = 64 + oct b 32 4 + 2420)

/-- The outcome of a bundle recorded and notified (R139, Table 4.10, Table 5.9). -/
def Mach.bundleDone (m : Mach) (c : ModeCtl) (id : Nat) (st : Status) (failRec segs : Nat) : Mach :=
  let m := ((m.wr O.bundleResult 0 st.code).wr O.bundleFailRec 0 failRec).wr O.bundleSegsDone 0 segs
  m.note c 4 0xFFFF 0 st.code (id % 2 ^ 48)

/-- The floor of a signer (R557). -/
def floorObj (vendor : Bool) : ObjDef := if vendor then O.secFloorVendor else O.secFloorOwner

/-- The key that verifies a signer's bundles (R555): the owner root, or the vendor bundle key. -/
def Mach.bundleKey (m : Mach) (vendor : Bool) : List Byte := if vendor then Config.publicKey 2 else m.sec.root

/-- A bundle checked whole after its last frame (R556): refused with no effect, or the signer's floor raised and the bundle set to be carried
out. `sigOk` is the public key under which its signature verifies. -/
def Mach.bundleStage (m : Mach) (c : ModeCtl) (toward : RepTo) (body : List Byte) (sigOk : Option (List Byte)) : Mach :=
  let id := oct body 8 8
  let vendor := decide (oct body 38 1 = 1)
  let fail := fun (m : Mach) (st : Status) (k : Nat) => (m.bundleDone c id st k 0).answer c toward st 0 []
  let m := m.wr O.bundleLastId 0 id
  if !m.signerOk vendor || m.keysFailed then fail m .lifecycle 0xFFFFFFFF
  else if !bundleHeaderOk body then fail m .type 0xFFFFFFFF
  else if sigOk ≠ some (m.bundleKey vendor) then fail m .signature 0xFFFFFFFF
  else if (oct body 24 8 ≠ 0 ∧ oct body 24 8 ≠ Config.devSerial.toNat) ∨ (oct body 39 1 ≠ 0 ∧ oct body 39 1 ≠ 0xA1) then
    fail m .signature 0xFFFFFFFF
  else if oct body 16 8 < m.rd (floorObj vendor) then fail m .signature 0xFFFFFFFF
  else
    let n := oct body 32 4
    let l := brecs n ((body.drop 64).take n)
    let priv := if vendor then 3 else 2
    let r := stageAll c { ses := 0xFE, priv := priv, win := toward.ses, staged := true } false ⟨m, none, 0, 0⟩ l
    if r.2.1 ≠ .ok then fail m r.2.1 r.1
    else if r.2.2.seg.isSome then fail m .access r.1
    else if r.2.2.segs ≠ oct body 36 2 then fail m .type 0xFFFFFFFF
    else
      let m := m.wr (floorObj vendor) 0 (max (m.rd (floorObj vendor)) (oct body 16 8))
      let s : Staged :=
        { toward := toward, mute := false, holder := 0xFE, priv := priv, recs := l, bundle := true, id := id
          digest := (Config.sha3 (body.take (64 + n))).toNat }
      { m with clk.staged := m.clk.staged ++ [s] }

/-! Execution (R123, R124, R138, R166, R554). -/

/-- The machine with the job in execution replaced. -/
def Mach.setJob (m : Mach) (j : Option Job) : Mach := { m with clk.job := j }

/-- The hold of a segment ends (R123). -/
def Mach.unholdFns (m : Mach) (holder : Nat) (l : List Nat) : Mach :=
  l.foldl (fun m f => if (m.fn f).holder = holder then m.setFn f { m.fn f with holder := 0xFF } else m) m

/-- A job ends: its hold ends, a bundle's outcome and measure are recorded (R139, R554), and it is answered, once the request entries it has
started are complete (R322). Of the records no longer waiting, the last `back` are those at which it ends. -/
def Mach.jobEnd (m : Mach) (c : ModeCtl) (j : Job) (st : Status) (back : Nat := 0) : Mach :=
  let m := (m.unholdFns j.st.holder j.seg).setJob none
  let m :=
    if !j.st.bundle then m
    else
      let k := if st.fine then m.freeVal 32 else j.st.recs.length - j.rest.length - back
      let m := (m.freed.bundleDone c j.st.id st k j.segs).wr O.bundleTime 0 m.now
      m.wr O.configMeasure 0 (Config.sha3 (octets 32 (m.rd O.configMeasure) ++ octets 32 j.st.digest ++ octets 1 st.code)).toNat
  if j.st.mute then m
  else if j.st.bundle then m.answerOwed c j.st.toward (m.openReqs j.st.toward.ses 0 256) st 0 []
  else m.answerOwed c j.st.toward (m.openReqs j.st.toward.ses 0 256) st j.n j.out

/-- A record's status joins the reply. -/
def Mach.jobNote (m : Mach) (j : Job) (x : BRec) (st : Status) : Job × Mach :=
  let r := m.recReply x st
  ({ j with out := j.out ++ r.1, n := j.n + 1, acc := j.acc.join st }, r.2)

/-- A job stopped after taking effect, at record x (R124, R138). Which records its reply holds is not stated: DESIGN CHOICE, those so far and the failing
one under its own status, with BATCH-ABORTED in the header (log entry 142). -/
def Mach.jobAbort (m : Mach) (c : ModeCtl) (j : Job) (x : BRec) (st : Status) : Mach :=
  let r := m.jobNote j x st
  r.2.jobEnd c r.1 .batchAborted

/-- A function held and stopped at SEG-BEGIN (R123); one stopped during EBB is remembered as the host's (R93). -/
def Mach.holdFn (m : Mach) (c : ModeCtl) (holder f : Nat) : Mach :=
  let m := m.setFn f { m.fn f with holder := holder }
  let m := if c.mode = .ebb then m.hostStop f else m
  match m.fst f with
  | .running => m.beginStop c f
  | .starting => m.setFn f { m.fn f with stopNext := true }
  | _ => m

/-- Functions started at SEG-END in start order; the first refusal ends it. -/
def Mach.startSeg (m : Mach) (c : ModeCtl) : List Nat → Status × Mach
  | [] => (.ok, m)
  | f :: r =>
    let x := m.start c f false
    if x.1.fine then x.2.startSeg c r else x

/-- Whether a segment's functions are still its own, and none has become FAULTED (R124). -/
def Mach.segLives (m : Mach) (j : Job) : Bool := j.seg.all fun f => decide ((m.fn f).holder = j.st.holder ∧ m.fst f ≠ .faulted)

/-- One record carried out. A WIN-WRITE of request entries is done once every one of them has completed (R322). -/
def jobRec (c : ModeCtl) (m : Mach) (j : Job) (x : BRec) (r : List BRec) : ModeCtl × Mach :=
  let rq : Req := { ses := j.st.holder, priv := j.st.priv, win := j.st.toward.ses }
  let done := fun (c : ModeCtl) (m : Mach) (j : Job) =>
    let y := m.jobNote j x m.com.status
    if m.com.status.fine then (c, y.2.setJob (some { y.1 with rest := r })) else (c, y.2.jobEnd c y.1 .batchAborted)
  let held := fun (c : ModeCtl) (m : Mach) (j : Job) (wait : List Nat) =>
    if m.com.status.fine && !wait.isEmpty then (c, m.setJob (some { j with wait := wait, phase := .entries })) else done c m j
  match x with
  | .segBegin fs =>
    let fs := fs.eraseDups
    if fs.any fun f => (m.fn f).holder ≠ 0xFF && decide ((m.fn f).holder ≠ j.st.holder) then (c, m.jobAbort c j x .busy)
    else if fs.any fun f => decide (m.fst f = .faulted) then (c, m.jobAbort c j x .functionFaulted)
    else
      let m := (startOrder fs).reverse.foldl (fun m f => m.holdFn c j.st.holder f) m
      let y := m.jobNote j x .ok
      (c, y.2.setJob (some { y.1 with rest := r, seg := fs, phase := .stops }))
  | .write id val =>
    let z := writeId c m rq id val
    let wait := match target id with
      | some (.win o _ 3) => if o.is O.flwReq then z.2.openReqs rq.win 0 256 else []
      | _ => []
    held z.1 z.2 j wait
  | .winWrite id base count data =>
    match target id with
    | some (.win o i 0) =>
      let m := (m.winWrite c rq o i base count data).2
      let wait := if o.is O.flwReq then m.openReqs rq.win base count else []
      held c m j wait
    | _ => done c (m.st .access) j
  | .segEnd leave =>
    let s := if leave = 1 then (.ok, m) else m.startSeg c (startOrder j.seg)
    if s.1.fine then
      let y := s.2.jobNote j x .ok
      (c, y.2.setJob (some { y.1 with rest := r, phase := .starts }))
    else (c, s.2.jobAbort c j x s.1)
  | .bad => (c, m.jobAbort c j x .type)

/-- The job in execution taken as far as it goes: it waits for its functions to stop after SEG-BEGIN and to reach RUNNING after SEG-END. -/
def jobGo (fuel : Nat) (c : ModeCtl) (m : Mach) : ModeCtl × Mach :=
  match fuel, m.clk.job with
  | k + 1, some j =>
    (match j.phase with
     | .stops =>
       if !m.segLives j then (c, m.jobEnd c j .batchAborted 1)
       else if j.seg.all fun f => decide (m.fst f = .stopped) then jobGo k c (m.setJob (some { j with phase := .run }))
       else (c, m)
     | .starts =>
       if !m.segLives j then (c, m.jobEnd c j .batchAborted 1)
       else if j.seg.any fun f => decide (m.fst f = .starting) then (c, m)
       else
         let m := m.unholdFns j.st.holder j.seg
         jobGo k c (m.setJob (some { j with phase := .run, seg := [], segs := j.segs + 1 }))
     | .entries =>
       if !m.segLives j then (c, m.jobEnd c j .batchAborted)
       else if j.wait.any fun i => m.reqBusy j.st.toward.ses i then (c, m)
       else
         let lost := j.wait.any fun i => decide (fld 192 (m.reqEnt j.st.toward.ses i) 1 1 = 0)
         let x := j.rest.headD .bad
         let y := m.jobNote { j with wait := [], phase := .run } x (if lost then .functionFaulted else .ok)
         if lost then (c, y.2.jobEnd c y.1 .batchAborted) else jobGo k c (y.2.setJob (some { y.1 with rest := j.rest.tail }))
     | .run =>
       match j.rest with
       | [] => (c, m.jobEnd c j j.acc)
       | x :: r =>
         let y := jobRec c m j x r
         jobGo k y.1 y.2)
  | _, _ => (c, m)

/-- The job in execution, if any, goes on. -/
def jobOn (c : ModeCtl) (m : Mach) : ModeCtl × Mach :=
  match m.clk.job with
  | none => (c, m)
  | some j => jobGo (3 * j.rest.length + 4) c m

/-- BATCH_EXECUTE and BUNDLE_EXECUTE (R138, R166, R168): the job of the kind in execution goes on; with none, the one that has waited longest
begins. -/
def jobTake (c : ModeCtl) (m : Mach) (bundle : Bool) : ModeCtl × Mach :=
  match m.clk.job, m.clk.staged with
  | some j, _ => if j.st.bundle = bundle then jobOn c m else (c, m)
  | none, s :: r =>
    if s.bundle = bundle then jobOn c ({ m with clk.staged := r }.setJob (some ⟨s, s.recs, [], .run, [], 0, .ok, 0, []⟩)) else (c, m)
  | none, [] => (c, m)

end Sys2Proof.Machine
end

