-- ==== Sys2Proof/Machine/Clelek.lean ====
section
/-! DEFINITION. The Clelek engine (spec 05, R143 to R174): management ports, frames and their checks, messages, reads and writes, windows,
subscriptions, attestation and import. -/

namespace Sys2Proof.Machine

/-! Arrival (R144 to R149). -/

/-- A frame put in the engine's queue (R146). -/
def Mach.queueFrame (m : Mach) (f : ClFrame) : Mach :=
  if m.clk.engineQ.length < 128 then { m with clk.engineQ := m.clk.engineQ ++ [f] } else m.bump O.clkQueueDrop

/-- Whether an IPv6 address is one the port holds (R144). -/
def Mach.mgtHas6 (m : Mach) (p a : Nat) : Bool := a = m.linkLocal p || (m.rd O.mgtIpv6 p ≠ 0 && a = m.rd O.mgtIpv6 p)

/-- Whether an IPv4 address is the port's own. -/
def Mach.mgtHas4 (m : Mach) (p a : Nat) : Bool := m.rd O.mgtIpv4 p ≠ 0 && a = m.rd O.mgtIpv4 p

/-- Whether a UDP datagram is for an address of the port (R144). -/
def Mach.udpMine (m : Mach) (p : Nat) (t : UdpTo) : Bool := if t.v6 then m.mgtHas6 p t.dst else m.mgtHas4 p t.dst

/-- The status and reason codes that Tables 5.6 and 17.3 list. -/
def listedCodes : List Nat :=
  [0x10, 0x11, 0x12, 0x13, 0x14, 0x15, 0x16, 0x17, 0x20, 0x21, 0x22, 0x30, 0x31, 0x32, 0x33, 0x34, 0x40, 0x41, 0x42, 0x50, 0x51, 0x52, 0x53, 0x60, 0x61,
    0x70, 0x71, 0x80]

/-- A refusal of an inject counted under its code (R178). -/
def Mach.injRefuse (m : Mach) (code : Nat) : Mach := m.bumpF O.hpInjRefused 0 code 0 8

/-- A host-path frame that fails check 1, which has no code: the one it is counted under is a free value among those listed, since no reserved code
is reported (R19, log entry 35). -/
def Mach.injMalformed (m : Mach) : Mach := m.freed.injRefuse (listedCodes.getD (m.freeVal 64 % listedCodes.length) 0x10)

/-- Whether a port accepts a destination MAC address: its own, broadcast, or the groups of neighbour discovery, all nodes and the
solicited-node groups of its addresses (R144). -/
def Mach.mgtMacOk (m : Mach) (p d : Nat) : Bool :=
  d = m.rd O.mgtMac p || d = 0xFFFFFFFFFFFF || d = 0x333300000001 || d = 0x3333FF000000 + m.linkLocal p % 2 ^ 24 ||
    (m.rd O.mgtIpv6 p ≠ 0 && d = 0x3333FF000000 + m.rd O.mgtIpv6 p % 2 ^ 24)

/-- MGT_FRAME_RX (R144, R146): answers to ARP (0), neighbour solicitation (1) and echo (2, 3), Clelek into the engine's queue, and the rest
counted. Host-path frames arrive by their own rows; a Clelek frame sent to the host-path port fails check 1 there. -/
def Mach.mgtFrame (m : Mach) (p : Nat) (f : MgtFrame) : Mach :=
  let lost := m.bump O.mgtDiscard p
  if f.fifoFull then m.bump O.mgtFifoDrop p
  else if f.tagged || !m.mgtMacOk p f.dmac then lost
  else
    match f.body with
    | .arp t => if m.mgtHas4 p t then m.emit (.mgt p 0 (octets 6 f.smac ++ octets 6 (m.rd O.mgtMac p) ++ octets 4 t)) else lost
    | .neighbour t => if m.mgtHas6 p t then m.emit (.mgt p 1 (octets 6 f.smac ++ octets 6 (m.rd O.mgtMac p) ++ octets 16 t)) else lost
    | .echo4 d data => if m.mgtHas4 p d then m.emit (.mgt p 2 data) else lost
    | .echo6 d data => if m.mgtHas6 p d then m.emit (.mgt p 3 data) else lost
    | .clelek t g =>
      if !m.udpMine p t then lost
      else if t.port = m.rd O.clkUdpPort then m.queueFrame { g with path := p }
      else if t.port = m.rd O.hpUdpPort then m.injMalformed else lost
    | .other => lost

/-- A frame taken in band (R149): at most 20,000 in a second of FRC reach the engine's queue. Its source is the port with the sender's MAC address. -/
def Mach.inbandTake (m : Mach) (b : Nat) (f : ClFrame) : Mach :=
  let sec := m.ns / 1000000000
  let n := if m.clk.inbandSec = sec then m.clk.inbandN else 0
  if 20000 ≤ n then m.bump O.clkQueueDrop
  else ({ m with clk.inbandSec := sec, clk.inbandN := n + 1 }).queueFrame { f with path := 2, src := inbandSrc b f }

/-- INBAND_CLELEK_RX (R148, R520): the MAC receives and counts the frame like any other, and it is taken to Lantern (log entry 8). -/
def Mach.inbandRx (m : Mach) (c : ModeCtl) (b : Nat) (f : ClFrame) : Mach :=
  let len := inbandLen (bit f.src 96) f.len
  if !m.inbandOn || !m.inbandPort b || !m.pcsDelivers b then m
  else if 16384 < len + 4 then (m.wireIn b len).portCnt c b 7
  else if m.corrupts b then (m.wireIn b len).fcsFail c b
  else (((m.wireIn b len).frameCnt c b 0 len (bits f.src 95 48)).portCnt c b 15).inbandTake b f

/-! Checks 1 to 5 of Table 5.6. -/

/-- Check 1: the form of a frame. RESP, STATUS and NONCE of a request have the values of Table 5.2, and no check refuses others: DESIGN CHOICE, they are
accepted and not looked at (log entry 141). -/
def Mach.frameOk (m : Mach) (f : ClFrame) : Bool :=
  decide (48 ≤ f.len) && decide (f.len ≤ m.rd O.clkFrameMax) && decide (f.version = 1) && decide (f.bodyLen + 48 = f.len) &&
    decide (f.body.length = f.bodyLen) && decide (f.rsvd = 0) && decide (f.flags < 8)

/-- Check 2: the session exists and its slot holds a key. -/
def Mach.sesKeyed (m : Mach) (ses : Nat) : Bool := m.sesOn ses && decide ((m.slot (m.sesSlot ses)).state = 1)

/-- Check 4: path, peer and, for a Clelek frame, CONF. In band there is no IP address that a peer could match. -/
def Mach.sesAccepts (m : Mach) (ses path src : Nat) (conf : Bool) : Bool :=
  bit (m.sesPath ses) path && (m.rd O.sesPeer ses = 0 || (path ≠ 2 && m.rd O.sesPeer ses = src)) && (conf || !m.rdB O.sesConfid ses)

/-- A failed tag (check 3): counted for life and notified (R173). -/
def Mach.authFail (m : Mach) (c : ModeCtl) (ses path : Nat) : Mach := (m.adt 35).note c 9 0xFFFF 0 0x20 (pack [(1, ses), (1, path), (4, 0)])

/-- A sequence accepted (R157, R158): the highest, and the floor kept in MRAM, which leads it by 2^20. What the floor becomes where that passes 2^64 - 1 is
not stated: DESIGN CHOICE, it stays at 2^64 - 1 (log entry 156). -/
def Mach.seqTake (m : Mach) (ses seq : Nat) : Mach :=
  let m := m.wr O.sesSeqHigh ses seq
  if mget 0 m.clk.floor ses ≤ seq then { m with clk.floor := mset 0 m.clk.floor ses (min (seq + 2 ^ 20) (2 ^ 64 - 1)) } else m

/-- Where a frame's reply goes. -/
def replyTo (f : ClFrame) : RepTo := ⟨f.session, f.path, f.src * 65536 + f.sport, f.op, f.seq, bit f.flags 1⟩

/-- MORE of a frame. -/
def moreOf (f : ClFrame) : Bool := bit f.flags 2

/-- Checks 1 to 5 of a frame (R157, R163): whether it passed, and the machine. -/
def Mach.front (m : Mach) (c : ModeCtl) (f : ClFrame) : Bool × Mach :=
  if !m.frameOk f then (false, m.bump O.clkFormatDrop)
  else if !m.sesKeyed f.session then (false, m.bump O.clkSessionDrop)
  else if !m.opens f.session (seqIv 0 f.session f.seq) f.tag then (false, (m.bump O.clkAuthDrop).authFail c f.session f.path)
  else
    let m := m.bump O.clkServed
    let high := m.rd O.sesSeqHigh f.session
    let m := if high < f.seq then m.seqTake f.session f.seq else m
    if !m.sesAccepts f.session f.path f.src (bit f.flags 1) then (false, m.answer c (replyTo f) .session 0 [])
    else if f.seq ≤ high then (false, m.answer c { replyTo f with seq := high } .replay 0 [])
    else (true, m)

/-! Check 6. -/

/-- An object record of a request (Table 5.4). -/
structure ObjRec where
  id : Nat
  flags : Nat
  val : List Byte
deriving DecidableEq, Repr

/-- The records of a READ or WRITE body; none unless it is whole records, each with its padding, to the end (R153). No status is stated for padding
other than zero, nor for the STATUS octet of a request record or the reserved FLAGS bits of a READ record: DESIGN CHOICE, they are not looked at
(log entry 141). -/
def objRecs (fuel : Nat) (l : List Byte) : Option (List ObjRec) :=
  match fuel, l with
  | _, [] => some []
  | 0, _ => none
  | k + 1, l =>
    let n := oct l 6 2
    let size := (8 + n + 3) / 4 * 4
    if l.length < size ∨ l.length < 8 then none
    else (objRecs k (l.drop size)).map fun r => ⟨oct l 0 4, oct l 5 1, (l.drop 8).take n⟩ :: r

/-- The records of a frame, where there are exactly RECORD-COUNT of them. -/
def recsOf (f : ClFrame) : Option (List ObjRec) :=
  match objRecs (f.body.length + 1) f.body with
  | some l => if l.length = f.recCount then some l else none
  | none => none

/-- Minimum privilege of an operation (Table 5.5). -/
def opPriv (op : Nat) : Nat := if op = 3 then 1 else if op = 8 ∨ op = 9 then 2 else 0

/-- Whether an operation is one of Table 5.5 that a host may send (R160). -/
def opKnown (op : Nat) : Bool := 1 ≤ op && op ≤ 9 && op ≠ 6

/-- TYPE at check 6: MORE on an operation of single frames (R154), and a READ or WRITE body that is not whole records (R153). -/
def opForm (f : ClFrame) : Bool :=
  if f.op = 3 ∨ f.op = 4 ∨ f.op = 9 then true
  else !(moreOf f) && (!(f.op = 1 ∨ f.op = 2) || (recsOf f).isSome)

/-- Whether the lifecycle state allows an operation (Table 18.3, R553). A bundle's signer shows in its header. -/
def Mach.opAlive (m : Mach) (f : ClFrame) : Bool :=
  match f.op with
  | 7 => !m.keysFailed && !m.trngFailed
  | 8 => m.importAllowed f.session (oct f.body 0 1)
  | 9 => f.body.length < 39 || m.signerOk (oct f.body 38 1 = 1)
  | _ => true

/-- Sessions with a message open. -/
def Mach.openMsgs (m : Mach) : Nat := m.clk.msgs.length

/-- Whether a SUBSCRIBE finds no slot to take (R171). -/
def Mach.subFull (m : Mach) (f : ClFrame) : Bool :=
  let slot := oct f.body 0 1
  decide (f.body.length = 8) && decide (oct f.body 1 1 = 0) &&
    (if slot = 0xFF then (List.range 16).all fun k => decide (m.rd O.subSession k ≠ 0xFF)
     else slot < 16 && m.rd O.subSession slot ≠ 0xFF && m.rd O.subSession slot ≠ f.session)

/-- Capacity at check 6 (R139, R168, R171, R553). Whether a bundle that waits counts among the four staged batches is not stated: DESIGN CHOICE, it does,
for both wait in one queue (log entry 142). -/
def Mach.opBusy (m : Mach) (f : ClFrame) : Bool :=
  ((moreOf f) && decide (8 ≤ m.openMsgs)) ||
    match f.op with
    | 3 => decide (4 ≤ m.clk.staged.length)
    | 5 => m.subFull f
    | 7 => decide (8 ≤ m.clk.attQ.length)
    | 9 => m.bundleBusy
    | _ => false

/-- Octets of a bundle that can be staged in a mode (R162). What the bounds count is not stated: DESIGN CHOICE, where HBM is powered 64 MiB bounds the
records, as RECORDS-LEN does, and in PILOT and BANKED 2 MiB bounds the whole bundle (log entry 142). -/
def bundleRoom (c : ModeCtl) : Nat := if c.mode = .pilot ∨ c.mode = .banked then 2097152 else 67108864 + 2484

/-- Whether a message is over its size limit at its first frame (R162, R165). -/
def opTooBig (c : ModeCtl) (f : ClFrame) : Bool :=
  match f.op with
  | 3 => batchTooBig f.body
  | 9 => 36 ≤ f.body.length && (67108864 < oct f.body 32 4 || bundleRoom c < oct f.body 32 4 + 2484)
  | _ => false

/-- Check 6, in its order. From acceptance of QUENCH no operation but READ, WRITE and WINDOW reaches its records (R542, Table 3.1): DEDUCED, the others
draw MODE (log entry 158). -/
def Mach.check6 (m : Mach) (c : ModeCtl) (f : ClFrame) : Option Status :=
  if !opKnown f.op then some .access
  else if !opForm f then some .type
  else if !m.opAlive f then some .lifecycle
  else if m.sesP f.session < opPriv f.op then some .privilege
  else if m.opBusy f then some .busy
  else if opTooBig c f then some .batchTooLarge
  else if c.judged = .quench ∧ f.op ≠ 1 ∧ f.op ≠ 2 ∧ f.op ≠ 4 then some .mode
  else none

/-! The engine takes a frame (R155, R161). -/

/-- The body of a session's open message of an operation. -/
def Mach.bodySoFar (m : Mach) (ses op : Nat) : List Byte :=
  match m.msg ses with
  | some g => if g.toward.op = op then g.body else []
  | none => []

/-- Whether a frame continues its session's message (R154, R155). -/
def Mach.continues (m : Mach) (f : ClFrame) : Bool :=
  match m.msg f.session with
  | some g => decide (f.op = g.toward.op ∧ f.seq = g.toward.seq + 1)
  | none => false

/-- DIR of the window message that a frame is of, zero while it has not come (R169). -/
def Mach.dirOf (m : Mach) (f : ClFrame) : Nat := oct ((if m.continues f then m.bodySoFar f.session 4 else []) ++ f.body) 4 1

/-- The row that handles a frame: its OP, 40 and 41 a window read and write (a read while DIR has not come), 50 and 51 a subscribe and a cancel, 0 an OP
that is refused. -/
def Mach.rowOf (m : Mach) (f : ClFrame) : Nat :=
  if !opKnown f.op then 0
  else if f.op = 4 then (if m.dirOf f ≠ 0 then 41 else 40)
  else if f.op = 5 then (if oct f.body 1 1 = 1 then 51 else 50)
  else f.op

/-- The frame at the head of the engine's queue taken by its row: checks 1 to 5, the end of a message it does not continue, then check 6 where it
continues none, then `h`, told of the message it continues. A request that no check refuses whole is the session's latest accepted one (SES-LAST). -/
def engine (c : ModeCtl) (m : Mach) (row : Nat) (h : Mach → ClFrame → Option OpenMsg → ModeCtl × Mach) : ModeCtl × Mach :=
  match m.clk.engineQ with
  | [] => (c, m)
  | f :: rest =>
    if m.rowOf f ≠ row then (c, m)
    else
      let r := ({ m with clk.engineQ := rest }).front c f
      let took := fun (m : Mach) => m.wr O.sesLast f.session m.now
      if !r.1 then (c, r.2)
      else if r.2.continues f then h (took r.2) f (r.2.msg f.session)
      else
        let m := r.2.endMsg c f.session
        match m.check6 c f with
        | some st => (c, m.answer c (replyTo f) st 0 [])
        | none => h (took m) f none

/-! READ and WRITE (R153, R161). -/

/-- Octets of an object that the snuffer's stop has made undefined (R604): outside what R23 keeps, a read shows free values (log entry 2). -/
def Mach.veil (m : Mach) (id : Nat) (d : List Byte) : List Byte × Mach :=
  if m.flt.dead && !lanternArea (id >>> 24) then
    ((List.range d.length).map fun k => BitVec.ofNat 8 (Config.freeValue (m.com.free + k)).toNat,
      { m with com.free := m.com.free + d.length })
  else (d, m)

/-- The slots that a READ record reads of FLW-SLOTS: those of the session's window (R321). -/
def Mach.slotSpan (m : Mach) (rq : Req) (t : Tgt) : Option (Nat × Nat) :=
  match t with
  | .win o i 3 => if o.is O.flwSlots then some ((m.win rq.win o i).base, (m.win rq.win o i).count) else none
  | _ => none

/-- One READ record (R153): its reply record, status, the slots it waits to read, and the machine. A LENGTH above 0 draws TYPE and reads nothing. -/
def Mach.readRec (m : Mach) (c : ModeCtl) (rq : Req) (r : ObjRec) : List Byte × Status × List SlotRead × Mach :=
  match target r.id with
  | none => (replyRec r.id .unknownObject false [], .unknownObject, [], m)
  | some t =>
    let x := m.readTgt c rq t
    let st := if r.val = [] ∨ x.status = .mode ∨ x.status = .privilege ∨ x.status = .access then x.status else .type
    if st = .ok then
      match m.slotSpan rq t with
      | some (base, count) =>
        if m.slotsFaulted base count then (replyRec r.id .functionFaulted false [], .functionFaulted, [], m)
        else
          let s := x.mach.slotReads c base count 8
          let v := s.2.veil r.id x.data
          (replyRec r.id .ok x.pending v.1, .ok, s.1, v.2)
      | none =>
        let v := x.mach.veil r.id x.data
        (replyRec r.id .ok x.pending v.1, .ok, [], v.2)
    else (replyRec r.id st false [], st, [], m)

/-- READ records in order, from octet `off` of the reply on: reply octets, the status of R164, and the slots to wait for. -/
def Mach.readRecs (m : Mach) (c : ModeCtl) (rq : Req) (acc : Status) (off : Nat) : List ObjRec → List Byte × Status × List SlotRead × Mach
  | [] => ([], acc, [], m)
  | r :: l =>
    let x := m.readRec c rq r
    let y := x.2.2.2.readRecs c rq (acc.join x.2.1) (off + x.1.length) l
    (x.1 ++ y.1, y.2.1, (x.2.2.1.map fun s => { s with off := off + s.off }) ++ y.2.2.1, y.2.2.2)

/-- READ_CLEAR (R110, R153): an object read as a READ record reads it; slots of FLW-SLOTS are operations at their basins, and a read that waits for them brings
its answer once they are done (R321). -/
def Mach.readRow (m : Mach) (c : ModeCtl) (ses id : Nat) : Mach :=
  match (target id).bind fun t => (m.slotSpan (m.reqOf ses) t).map fun n => (t, n) with
  | none => m.readObj c ses id
  | some (t, base, count) =>
    let x := m.readTgt c (m.reqOf ses) t
    if !m.sesOn ses || x.status ≠ .ok then m.readObj c ses id
    else if m.slotsFaulted base count then m.st .functionFaulted
    else
      let s := x.mach.slotReads c base count 0
      if s.1.isEmpty then (s.2.val (ofOctets x.data)).st .ok else s.2.answerOwed c ⟨ses, 0, 0, 0, 0, false⟩ [] .ok 0 x.data s.1

/-- CLELEK_READ. A slot of FLW-SLOTS is read at its place in its key's chain, and the reply waits for it (R321). -/
def clelekRead (c : ModeCtl) (m : Mach) : ModeCtl × Mach :=
  engine c m 1 fun m f _ =>
    let r := m.readRecs c (m.reqOf f.session) .ok 0 ((recsOf f).getD [])
    (c, r.2.2.2.answerOwed c (replyTo f) [] r.2.1 f.recCount r.1 r.2.2.1)

/-- Request entries that a WRITE record has started and not ended (R322). -/
def Mach.recWaits (m : Mach) (rq : Req) (w : Win) (id : Nat) : List Nat :=
  match target id with
  | some (.win o _ 3) => if o.is O.flwReq then m.openReqs rq.win w.base w.count else []
  | _ => []

/-- The window that a record writes through. -/
def Mach.recWin (m : Mach) (rq : Req) (id : Nat) : Win :=
  match target id with
  | some (.win o i _) => m.win rq.win o i
  | _ => {}

/-- One WRITE record (R161): status in the machine. Reserved FLAGS bits draw RANGE once checks 7 to 11 have passed (R15). -/
def writeRec (c : ModeCtl) (m : Mach) (rq : Req) (r : ObjRec) : ModeCtl × Mach :=
  let x := writeId c m rq r.id r.val
  let st := x.2.com.status
  if r.flags < 2 ∨ st = .unknownObject ∨ st = .mode ∨ st = .privilege ∨ st = .access ∨ st = .type then x else (c, m.st .range)

/-- WRITE records in order: reply octets, the status of R164, request entries to wait for, the mode and the machine. -/
def writeRecs (c : ModeCtl) (m : Mach) (rq : Req) (acc : Status) : List ObjRec → List Byte × Status × List Nat × ModeCtl × Mach
  | [] => ([], acc, [], c, m)
  | r :: l =>
    let w := m.recWin rq r.id
    let x := writeRec c m rq r
    let st := x.2.com.status
    let y := writeRecs x.1 x.2 rq (acc.join st) l
    (replyRec r.id st false [] ++ y.1, y.2.1, x.2.recWaits rq w r.id ++ y.2.2.1, y.2.2.2)

/-- CLELEK_WRITE. The reply to an OWNER-CLAIM goes out under the claim key, though the claim disables session 0 (R538), and that to an OWNER-RETURN under
the working copy of its session's key (R542). -/
def clelekWrite (c : ModeCtl) (m : Mach) : ModeCtl × Mach :=
  engine c m 2 fun m f _ =>
    let r := writeRecs c m (m.reqOf f.session) .ok ((recsOf f).getD [])
    let m' := r.2.2.2.2
    let c' := r.2.2.2.1
    if (m.sec.life = .owned ∧ m'.sec.life = .returned) ∨ (m.sec.life = .shipped ∧ m'.sec.life = .owned) then (c', m'.sendUnder c' (m.sesKey f.session) (replyTo f) false r.2.1 f.recCount r.1)
    else (c', m'.answerOwed c' (replyTo f) r.2.2.1 r.2.1 f.recCount r.1)

/-! Messages of several frames (R154, R165, R169). -/

/-- The message after a frame: its body joined, its reply to this frame. -/
def joined (g : Option OpenMsg) (f : ClFrame) (now : Nat) : OpenMsg :=
  match g with
  | some g => { g with toward := (replyTo f), body := g.body ++ f.body, lastAt := now }
  | none => ⟨(replyTo f), f.body, now, none⟩

/-- CLELEK_BATCH (R165): a frame that passes a limit ends the message with BATCH-TOO-LARGE; the last frame has it staged. -/
def Mach.clelekBatch (m : Mach) (c : ModeCtl) (f : ClFrame) (g : Option OpenMsg) : Mach :=
  let x := joined g f m.ns
  if batchTooBig x.body then (m.setMsg f.session none).answer c x.toward .batchTooLarge 0 []
  else if (moreOf f) then m.setMsg f.session (some x)
  else (m.setMsg f.session none).batchStage c x.toward x.body

/-- BUNDLE (R137, R139): the last frame has it checked whole; another that is in hand by then draws BUSY. One whose octets pass what the mode can stage
ends there with BATCH-TOO-LARGE (R162, log entry 142). -/
def Mach.clelekBundle (m : Mach) (c : ModeCtl) (f : ClFrame) (g : Option OpenMsg) (sigOk : Option (List Byte)) : Mach :=
  let x := joined g f m.ns
  if bundleRoom c < x.body.length then (m.setMsg f.session none).answer c x.toward .batchTooLarge 0 []
  else if (moreOf f) then m.setMsg f.session (some x)
  else if m.bundleBusy then (m.setMsg f.session none).answer c x.toward .busy 0 []
  else (m.setMsg f.session none).bundleStage c x.toward x.body sigOk

/-- What the head of a WINDOW body names (R169): the table, or the status that refuses it, and the machine with the session's window set. A DIR above 1
has no status in the spec: DESIGN CHOICE, it is handled as a write and draws RANGE (log entry 142). -/
def Mach.winHead (m : Mach) (c : ModeCtl) (rq : Req) (body : List Byte) (write : Bool) : ((ObjDef × Nat) ⊕ Status) × Mach :=
  let base := oct body 8 4
  let count := oct body 12 4
  match target (oct body 0 4) with
  | some (.win o i 0) =>
    let st : Option Status :=
      if write then m.winCheck c rq o
      else if !areaOpen c.judged o.area o.item false || recRefused c o then some .mode
      else if rq.priv < o.priv then some .privilege else none
    (match st with
     | some st => (.inr st, m)
     | none =>
       if 1 < oct body 4 1 ∨ oct body 5 3 ≠ 0 ∨ count = 0 ∨ 65536 < count then (.inr .range, m)
       else (.inl (o, i), m.setWin rq.win o i { m.win rq.win o i with base := base, count := count }))
  | none => (.inr .unknownObject, m)
  | some (.fn f sub) =>
    (.inr (if !areaOpen c.judged (fnItem f).1 (fnItem f).2 write then .mode else if rq.priv < fnPriv sub then .privilege else .access), m)
  | some (.obj o _) => (.inr (if !areaOpen c.judged o.area o.item write then .mode else if rq.priv < o.priv then .privilege else .access), m)
  | some (.win o _ sub) =>
    (.inr (if !areaOpen c.judged o.area o.item write then .mode else if rq.priv < subPriv o sub then .privilege else .access), m)

/-- TBL-ENTRY-SIZE of a window's table. -/
def tblLen (id : Nat) : Nat :=
  match target id with
  | some (.win o _ _) => o.len
  | _ => 0

/-- The body of a window read, whole (R169): one longer or shorter than its head draws TYPE. -/
def Mach.windowTake (m : Mach) (c : ModeCtl) (toward : RepTo) (body : List Byte) : Mach :=
  let rq := m.reqOf toward.ses
  if body.length < 16 then m.answer c toward .type 0 []
  else
    match m.winHead c rq body false with
    | (.inr st, m) => m.answer c toward (if st = .range ∧ body.length ≠ 16 then .type else st) 0 []
    | (.inl (o, i), m) =>
      if body.length ≠ 16 then m.answer c toward .type 0 []
      else
        let r := m.readWin c rq.win o i (oct body 8 4) (oct body 12 4)
        if r.status ≠ .ok then m.answer c toward r.status 0 []
        else if o.is O.flwSlots then
          (if m.slotsFaulted (oct body 8 4) (oct body 12 4) then m.answer c toward .functionFaulted 0 []
           else
             let s := r.mach.slotReads c (oct body 8 4) (oct body 12 4) 0
             let v := s.2.veil (oct body 0 4) r.data
             v.2.answerOwed c toward [] .ok 0 v.1 s.1 (some (oct body 0 4, oct body 8 4, oct body 12 4)))
        else
          let v := r.mach.veil (oct body 0 4) r.data
          v.2.answerParts c toward (winFrames (oct body 0 4) o.len (m.frameRoom toward.path - 16) (oct body 8 4) v.1 (oct body 12 4))

/-- WINDOW_READ (R154, R169): the read is made at the last frame of its message. -/
def Mach.windowRead (m : Mach) (c : ModeCtl) (f : ClFrame) (g : Option OpenMsg) : Mach :=
  let x := joined g f m.ns
  if moreOf f then m.setMsg f.session (some x) else (m.setMsg f.session none).windowTake c x.toward x.body

/-- The entries that have come whole in a window write's stream applied (R132, R169): WIN-NEXT names the first not written. -/
def Mach.winFeed (m : Mach) (c : ModeCtl) (rq : Req) (o : ObjDef) (i : Nat) (w : WinMsg) (body : List Byte) : WinMsg × Mach :=
  let have_ := min ((body.length - 16) / o.len) w.count
  if !w.acc.fine ∨ have_ ≤ w.done then (w, m)
  else
    let r := m.entriesWrite c rq o i (w.base + w.done) w.acc (chunks o.len (have_ - w.done) (body.drop (16 + w.done * o.len)))
    let m := r.2.setWin rq.win o i ⟨w.base, w.count, r.1⟩
    ({ w with done := r.1 - w.base, acc := m.com.status }, m)

/-- A window write of several frames with what its body holds so far: judged once its head is whole (R132, R169). -/
def Mach.winStream (m : Mach) (c : ModeCtl) (rq : Req) (x : OpenMsg) : OpenMsg × Mach :=
  let base := oct x.body 8 4
  let count := oct x.body 12 4
  match x.win, target (oct x.body 0 4) with
  | some w, some (.win o i _) =>
    let r := m.winFeed c rq o i w x.body
    ({ x with win := some r.1 }, r.2)
  | some _, _ => (x, m)
  | none, _ =>
    if x.body.length < 16 then (x, m)
    else
      match m.winHead c rq x.body true with
      | (.inr st, m) => ({ x with win := some ⟨oct x.body 0 4, base, count, 0, st⟩ }, m)
      | (.inl (o, i), m) =>
        let bad := decide (m.tblEntries o < base + count) || decide (16777216 < count * o.len)
        let r := m.winFeed c rq o i ⟨oct x.body 0 4, base, count, 0, if bad then .range else .ok⟩ x.body
        ({ x with win := some r.1 }, r.2)

/-- A window write at its last frame: the status of its entries, TYPE where its data ended short or ran past (R132). -/
def Mach.winFinish (m : Mach) (c : ModeCtl) (x : OpenMsg) : Mach :=
  match x.win, target (oct x.body 0 4) with
  | some w, some (.win o _ _) =>
    let st := if w.acc.fine ∧ x.body.length ≠ 16 + w.count * o.len then .type else w.acc
    m.answerOwed c x.toward (if o.is O.flwReq then m.openReqs x.toward.ses w.base w.done else []) st 0 []
  | some w, _ => m.answer c x.toward w.acc 0 []
  | none, _ => m.answer c x.toward .type 0 []

/-- A window write of one frame (R132): its length is known before its first entry. -/
def Mach.windowWrite1 (m : Mach) (c : ModeCtl) (f : ClFrame) : Mach :=
  let rq := m.reqOf f.session
  let base := oct f.body 8 4
  let count := oct f.body 12 4
  if f.body.length < 16 then m.answer c (replyTo f) .type 0 []
  else
    match m.winHead c rq f.body true with
    | (.inr st, m) => m.answer c (replyTo f) (if st = .range ∧ f.body.length ≠ 16 + count * tblLen (oct f.body 0 4) then .type else st) 0 []
    | (.inl (o, i), m) =>
      let r := m.winWrite c rq o i base count (f.body.drop 16)
      let m := r.2.setWin rq.win o i ⟨base, count, r.1⟩
      m.answerOwed c (replyTo f) (if o.is O.flwReq then m.openReqs f.session base (r.1 - base) else []) m.com.status 0 []

/-- WINDOW_WRITE. -/
def Mach.windowWrite (m : Mach) (c : ModeCtl) (f : ClFrame) (g : Option OpenMsg) : Mach :=
  if g = none ∧ !(moreOf f) then m.windowWrite1 c f
  else
    let r := m.winStream c (m.reqOf f.session) (joined g f m.ns)
    if (moreOf f) then r.2.setMsg f.session (some r.1) else (r.2.setMsg f.session none).winFinish c r.1

/-- MESSAGE_TIMEOUT (R155): 100 ms after the last frame of a session's message. -/
def Mach.msgTimeout (m : Mach) (c : ModeCtl) (ses : Nat) : Mach :=
  match m.msg ses with
  | none => m
  | some x => (m.reach (x.lastAt + 100000000)).endMsg c ses

/-! Subscriptions (R171, R172). -/

/-- A reply to a SUBSCRIBE: one record, the slot and its status. -/
def Mach.subAnswer (m : Mach) (c : ModeCtl) (f : ClFrame) (st : Status) (slot : Nat) : Mach :=
  m.answer c (replyTo f) st 1 (octets 1 slot ++ octets 1 st.code)

/-- Why a SUBSCRIBE body is refused past check 6: its length, a slot that its session may not cancel, then its reserved octets, action, slot and kinds. -/
def Mach.subBad (m : Mach) (f : ClFrame) : Option Status :=
  let b := f.body
  if b.length ≠ 8 then some .type
  else if oct b 1 1 = 1 ∧ oct b 0 1 < 16 ∧ m.rd O.subSession (oct b 0 1) ≠ 0xFF ∧ m.rd O.subSession (oct b 0 1) ≠ f.session then some .access
  else if oct b 2 2 ≠ 0 ∨ 1 < oct b 1 1 ∨ (15 < oct b 0 1 ∧ oct b 0 1 ≠ 0xFF) ∨ 2047 < oct b 4 4 then some .range
  else none

/-- A subscription slot freed. -/
def Mach.subFree (m : Mach) (slot : Nat) : Mach :=
  { ((m.wr O.subSession slot 0xFF).wr O.subKinds slot 0) with clk.subs := mset {} m.clk.subs slot {} }

/-- SUBSCRIBE with action subscribe: the slot named, or the lowest free one; a slot the session holds already keeps its bucket. -/
def Mach.subscribe (m : Mach) (c : ModeCtl) (f : ClFrame) : Mach :=
  match m.subBad f with
  | some st => m.subAnswer c f st 0xFF
  | none =>
    let slot := if oct f.body 0 1 = 0xFF then ((List.range 16).find? fun k => decide (m.rd O.subSession k = 0xFF)).getD 0 else oct f.body 0 1
    let s : SubRt :=
      if m.rd O.subSession slot = f.session then { mget {} m.clk.subs slot with path := f.path, dest := (replyTo f).dest }
      else { path := f.path, dest := (replyTo f).dest, tok := m.rd O.subRate slot * 1000000000, at_ := m.ns }
    let m := (m.wr O.subSession slot f.session).wr O.subKinds slot (oct f.body 4 4)
    ({ m with clk.subs := mset {} m.clk.subs slot s }).subAnswer c f .ok slot

/-- SUBSCRIBE with action cancel. -/
def Mach.subCancel (m : Mach) (c : ModeCtl) (f : ClFrame) : Mach :=
  match m.subBad f with
  | some st => m.subAnswer c f st 0xFF
  | none =>
    let slot := oct f.body 0 1
    if slot = 0xFF then
      let mine := (List.range 16).filter fun k => decide (m.rd O.subSession k = f.session)
      (mine.foldl (fun m k => m.subFree k) m).subAnswer c f .ok (if mine.length = 1 then mine.headD 0xFF else 0xFF)
    else if m.rd O.subSession slot = 0xFF then m.subAnswer c f .ok 0xFF
    else (m.subFree slot).subAnswer c f .ok slot

/-- NOTE_LOSS (R172): 1 s after a subscription's first miss, and at each further 1 s mark at which it has missed notifications since the previous
one; it takes no token, no number and no log entry. -/
def Mach.noteLoss (m : Mach) (c : ModeCtl) (slot : Nat) : Mach :=
  let s := mget {} m.clk.subs slot
  let ses := m.rd O.subSession slot
  if s.missed = 0 ∨ ses = 0xFF then m
  else
    let k := if m.ns ≤ s.missAt then 1 else max 1 ((m.ns - s.missAt + 999999999) / 1000000000)
    let mark := s.missAt + k * 1000000000
    let mark := if mark ≤ s.lossAt then s.lossAt + 1000000000 else mark
    let m := m.reach mark
    let rec_ := pack [(4, s.lastMiss), (2, 10), (2, 0xFFFF), (12, m.now), (4, 0), (1, 0), (1, c.mode.code), (4, min s.missed 0xFFFFFFFF), (2, 0)]
    ({ m with clk.subs := mset {} m.clk.subs slot { s with missed := 0, lossAt := mark } }).noteSend c slot rec_

/-! Attestation and import (R548 to R553). -/

/-- ATTEST: a quote waits for its signature. -/
def Mach.attest (m : Mach) (c : ModeCtl) (f : ClFrame) : Mach :=
  if f.body.length ≠ 32 then m.answer c (replyTo f) .type 0 [] else { m with clk.attQ := m.clk.attQ ++ [⟨(replyTo f), f.body⟩] }

/-- ATTEST_SIGNED: the oldest quote is signed, with a hedge from the DRBG, and sent. -/
def Mach.attestSigned (m : Mach) (c : ModeCtl) : Mach :=
  match m.clk.attQ with
  | [] => m
  | a :: r =>
    let b := m.quoteSigned c a.challenge
    ({ m with clk.attQ := r }).drbgUsed.answerParts c a.toward (pieces (m.frameRoom a.toward.path) b.length b)

/-- IMPORT (R550, R551): the reply goes out under the old key. -/
def Mach.importKey (m : Mach) (c : ModeCtl) (f : ClFrame) : Mach :=
  if f.body.length ≠ 1140 then m.answer c (replyTo f) .type 0 []
  else
    match m.importStatus f.session f.body with
    | .ok => (m.answer c (replyTo f) .ok 0 []).importLoad c f.body
    | st => m.answer c (replyTo f) st 0 []

end Sys2Proof.Machine
end

