-- ==== Sys2Proof/Machine/HostPath.lean ====
section
/-! DEFINITION. The host path (R175 to R179): punts leave through their shaper; injected packets pass checks 1 to 5, wait in the Lantern queue and
enter an egress queue or a reach. -/

namespace Sys2Proof.Machine

/-! Punts (R177). -/

/-- A time interval of a number of units at a rate of units a second, in ns, rounded up. -/
def paceNs (n perSec : Nat) : Nat := (n * 1000000000 + perSec - 1) / perSec

/-- The management port that punts leave on: HP-PORT, or the other one while it is down. -/
def Mach.puntPort (m : Mach) : Nat := if m.rd O.mgtLink (m.rd O.hpPort) = 0 then 1 - m.rd O.hpPort else m.rd O.hpPort

/-- The host header of a punt (Table 5.11). -/
def puntHeader (x : HostPkt) (seq : Nat) : Nat :=
  pack [(1, 1), (1, 0), (2, x.lif), (1, x.tc), (1, x.reason), (2, x.tenant), (8, seq), (4, x.ruleRef), (12, x.ts)]

/-- The GMAC tag of a punt over header and packet, under HP-SESSION's key with the IV of Table 5.3 (R175). -/
def Mach.puntTag (m : Mach) (hdr seq : Nat) (data : List Byte) : Nat :=
  let ses := m.rd O.hpSession
  (sealed (m.sesKey ses) (seqIv 3 ses seq) false (octets 32 hdr) data).2

/-- PUNT_SEND: the oldest packet of the highest class leaves, no sooner than HP-PUNT-RATE and HP-PUNT-PPS let it, in the modes that punt,
to HP-DEST with its GMAC tag (R175). Which octets the rates count is not stated: DESIGN CHOICE, a punt counts with its header and tag, an inject counts
the packet (log entry 143). A count that would wrap advances BOOT-EPOCH (R151). -/
def Mach.puntSend (m : Mach) (c : ModeCtl) : Mach :=
  if !m.puntOn || !(c.mode.forwards || c.mode = .ebb) then m
  else
    match (List.range 8).reverse.find? fun k => !(mget [] m.clk.puntQ k).isEmpty with
    | none => m
    | some k =>
      match mget [] m.clk.puntQ k with
      | [] => m
      | x :: r =>
        let m := m.reach m.clk.puntAt
        let seq := m.rd O.bootEpoch * 2 ^ 32 + m.clk.puntCount
        let len := 8 * (x.data.length + 48)
        let next := m.ns + max (paceNs len (m.rd O.hpPuntRate * 1000000)) (paceNs 1 (m.rd O.hpPuntPps))
        let n := m.clk.puntCount + 1
        let hdr := puntHeader x seq
        let tag := m.puntTag hdr seq x.data
        let m :=
          { m with
            clk.puntQ := mset [] m.clk.puntQ k r
            clk.puntCount := n % 2 ^ 32
            clk.puntAt := next }
        let m := (m.bump O.hpPuntSent k).emit (.punt m.puntPort (m.rd O.hpDest) hdr x.data tag)
        if n < 2 ^ 32 then m else m.nextEpoch c

/-! Injection (R175, R178). -/

/-- The copy that an INJECT-PORT packet becomes. -/
def injCopy (x : HostPkt) : Copy :=
  { kind := 3, src := 0, inReach := lifReach x.lif, chan := 0, inPort := 0, inLif := x.lif, lif := x.lif, rw := 0, tc := x.tc, data := x.data,
    res := 0, dscp := none, ecn := false, verdict := 0, stamp := 0, flexe := false, group := 0, voq := 0
    ptp := (ptpAt x.data).map fun a =>
      (a, if oct x.data (etherOff x.data) 2 = 0x88F7 then 0 else if oct x.data (etherOff x.data) 2 = 0x0800 then 1 else 2)
    tag := x.tag, cell := none, waited := false, late := false }

/-- An accepted packet refused: the timestamp it owes is lost under the same code (R510), and a refusal under 0x51 counts against the port
and class (R200). -/
def Mach.injFail (m : Mach) (c : ModeCtl) (x : HostPkt) (code : Nat) : Mach :=
  let b := m.lifPort x.lif
  let m := if code = 0x51 then ((m.injRefuse code).metPort b).rsn c code b x.tc else m.injRefuse code
  if x.pipeline then m else m.stampLost (injCopy x) code

/-- An inject's own highest sequence and floor (R157, R158, R175); the floor at its largest stays there (log entry 156). -/
def Mach.injSeq (m : Mach) (seq : Nat) : Mach :=
  { m with
    clk.injHigh := seq
    clk.injFloor := if m.clk.injFloor ≤ seq then min (seq + 2 ^ 20) (2 ^ 64 - 1) else m.clk.injFloor }

/-- The form of a host-path frame (check 1, Table 5.11): length, version, kind, and zero where an inject has zero. -/
def Mach.injFormOk (m : Mach) (f : InjFrame) : Bool :=
  decide (f.data.length + 48 ≤ m.rd O.clkFrameMax) && decide (f.version = 1) && decide (f.kind = 1 ∨ f.kind = 2) && decide (f.tc < 8) &&
    decide (f.reason = 0) && decide (f.tenant = 0) && decide (f.ruleRef = 0) && decide (f.ts = 0)

/-- Whether a management port takes a host-path frame (R144): untagged, to its MAC address and one of its addresses, on HP-UDP-PORT. -/
def Mach.injTaken (m : Mach) (f : InjFrame) : Bool :=
  !f.tagged && m.mgtMacOk f.path f.dmac && m.udpMine f.path f.addr && decide (f.addr.port = m.rd O.hpUdpPort)

/-- INJECT_PORT and INJECT_PIPELINE: the management port, checks 1 to 5 against HP-SESSION, the mode, the interface, a port that is DOWN, and the 1 MiB
queue. No status is stated for a LOGICAL-IF above 8,191: DESIGN CHOICE, it is counted under RANGE, after the mode (log entry 143). -/
def Mach.inject (m : Mach) (c : ModeCtl) (f : InjFrame) (pipeline : Bool) : Mach :=
  let ses := m.rd O.hpSession
  let high := m.clk.injHigh
  let x : HostPkt := { lif := f.lif, tc := f.tc, reason := 0, tenant := 0, ruleRef := 0, ts := 0, tag := f.seq, pipeline := pipeline, data := f.data }
  if f.fifoFull then m.bump O.mgtFifoDrop f.path
  else if !m.injTaken f then m.bump O.mgtDiscard f.path
  else if f.kind = (if pipeline then 1 else 2) then m
  else if !m.injFormOk f then m.injMalformed
  else if !m.sesKeyed ses then m.injRefuse Status.session.code
  else if !m.opens ses (seqIv 2 ses f.seq) f.tag then (m.authFail c ses f.path).injRefuse Status.auth.code
  else
    let m := if high < f.seq then m.injSeq f.seq else m
    if !m.sesAccepts ses f.path f.src true then m.injRefuse Status.session.code
    else if f.seq ≤ high then m.injRefuse Status.replay.code
    else if !c.mode.forwards then m.injFail c x Status.mode.code
    else if 8192 ≤ f.lif then m.injRefuse Status.range.code
    else if !pipeline ∧ m.rd O.bpLinkState (m.lifPort f.lif) = 0 then m.injFail c x 0x51
    else if 1048576 < m.clk.injQ.foldl (fun a y => a + y.data.length) 0 + f.data.length then m.injFail c x 0x40
    else { m with clk.injQ := m.clk.injQ ++ [x] }

/-- An INJECT-PORT packet put in its egress queue (R178, R477): a port that is DOWN, a queue above ES-EQ-LIMIT and pools without a cell
refuse it. -/
def Mach.injectPort (m : Mach) (c : ModeCtl) (x : HostPkt) : Mach :=
  let b := m.lifPort x.lif
  let len := x.data.length + 4
  if m.rd O.bpLinkState b = 0 then m.injFail c x 0x51
  else if 1024 * m.ent O.esEqLimit 0 (8 * b + x.tc) < m.eqOcc b x.tc + len then m.injFail c x 0x40
  else
    match m.cellAlloc (lifReach x.lif) len ⟨43, b, x.tc⟩ with
    | (none, m) => m.injFail c x 0x41
    | (some i, m) => (m.bump O.hpInjSent x.tc).toQueue c { injCopy x with cell := some i } 43

/-- INJECT_DRAIN: the oldest packet leaves the Lantern queue, no sooner than HP-INJ-RATE lets it. -/
def Mach.injectDrain (m : Mach) (c : ModeCtl) : Mach :=
  match m.clk.injQ with
  | [] => m
  | x :: r =>
    let m := m.reach m.clk.injAt
    let m := { m with clk.injQ := r, clk.injAt := m.ns + paceNs (8 * x.data.length) (m.rd O.hpInjRate * 1000000) }
    if !c.mode.forwards then m.injFail c x Status.mode.code
    else if x.pipeline then
      let b := m.lifPort x.lif
      let corr := corrOf (m.rd O.tsRxCorr b)
      (m.bump O.hpInjSent x.tc).enter c b x.lif x.tc (m.com.frc + corr) (t96Of (m.adj + corr)) (m.flexMember b) x.data
    else m.injectPort c x

/-- MGT_LINK_CHANGE (R147, R177). -/
def Mach.mgtLink (m : Mach) (p : Nat) (up : Bool) : Mach := m.wr O.mgtLink p (ofB up)

end Sys2Proof.Machine
end

