-- ==== Sys2Proof/Machine/Row.lean ====
section
/-! DEFINITION. How a row of the table acts on the state: what follows every command, the idle tick, and the effects that only a row has. -/

namespace Sys2Proof.Machine

/-- A tick of the free-running counter, 1 ns, in every mode but DARK (R497, log entry 6). -/
def State.tick (s : State) : State :=
  if s.mc.mode = .dark then s
  else
    { s with
      m.com.frc := s.m.com.frc + 65536 }

/-- What follows every command: replies that waited for it, write-back in EBB, the dies AT-CEILING, what was sent in band, and the general counters (R322,
R92, R62, R520, R523). -/
def Mach.after (m : Mach) (c : ModeCtl) : Mach := ((((m.owedSettle c).ebbWrites c).ceilSettle c).inbandSent c).gecSettle c

/-- What follows a command of one unit: GUARD is entered or left where the fault queue calls for it (R77). -/
def finish (r : ModeCtl × Mach) : ModeCtl × Mach :=
  let r := settleMode r.1 r.2
  (r.1, r.2.after r.1)

/-- What follows a command that can move the mode: before that, the batch or bundle in execution goes on, and a transition that waits for functions too (R91,
R124, R166). -/
def settled (r : ModeCtl × Mach) : ModeCtl × Mach :=
  let r := jobOn r.1 r.2
  finish (stopsSettle r.1 r.2)

/-- A command of the data plane. -/
def State.run (s : State) (f : ModeCtl → Mach → Mach) : Host.Outcome State Fault Refusal := s.actMode fun c m => finish (c, f c m)

/-- A command that can move the mode. -/
def State.move (s : State) (f : ModeCtl → Mach → ModeCtl × Mach) : Host.Outcome State Fault Refusal := s.actMode fun c m => settled (f c m)

/-- A command of the Lantern die that can move the mode. The Lantern die serves it even when the snuffer has stopped (R23, R604). -/
def State.lanMove (s : State) (f : ModeCtl → Mach → ModeCtl × Mach) : Host.Outcome State Fault Refusal :=
  if s.mc.mode = .dark then .next s
  else
    let r := settled (f s.mc s.m)
    .next { s with
      mc := r.1
      m := r.2 }

/-- A command of the Lantern die alone. -/
def State.lan (s : State) (f : ModeCtl → Mach → Mach) : Host.Outcome State Fault Refusal :=
  if s.mc.mode = .dark then .next s
  else
    let r := finish (s.mc, f s.mc s.m)
    .next { s with
      mc := r.1
      m := r.2 }

/-! Landing points (R113). -/

/-- ANCHOR_LANDING (R499): the next anchor point; a step that lands there closes seconds and bins, and gates are judged anew (R205, R492). -/
def Mach.anchorLand (m : Mach) (c : ModeCtl) : Mach :=
  match m.nextAnchor with
  | none => m
  | some a =>
    let old := m.adjAt (max m.com.frc a)
    let z := m.anchorAt c a
    if m.stepAnchor = some a then (z.pmStep c old).gateStep old else z

/-- PPS_IN_EDGE (R502) with what a step at the edge brings. -/
def Mach.ppsEdge (m : Mach) (c : ModeCtl) (rising : Bool) : Mach :=
  let z := m.ppsIn rising
  if m.tb.step = z.tb.step then z else (z.pmStep c m.adj).gateStep m.adj

/-- The landing point of an object's pending value. LEAN's objects land with its entry (R81). -/
def Mach.objLand (m : Mach) (c : ModeCtl) (o : ObjDef) (i : Nat) : Mach :=
  if (m.pendOf o i).isNone then m
  else if o.is O.flxCalUse then m.calSwitch c i
  else if o.is O.esPshapeRate ∨ o.is O.esPshapeBurst then m.portRefill c i
  else if o.is O.esGateUse then m.gateLand c i
  else if o.is O.tbRate then m.anchorLand c
  else if o.area = 0x50 ∨ o.area = 0x58 then m.keyEpoch c
  else m

/-- The landing point of a pending table entry. -/
def Mach.entLand (m : Mach) (c : ModeCtl) (o : ObjDef) (idx : Nat) : Mach :=
  if (m.pendEnt o 0 idx).isNone then m
  else if o.is O.lifQueue then m.queueRefill (m.lifPort (idx / 8)) idx
  else if o.is O.tenKeyProfile then m.keyEpoch c
  else m

/-- RL_LANDING (R113): the identifier and, for a table, the entry whose pending value reaches its landing point. -/
def Mach.rlLand (m : Mach) (c : ModeCtl) (id idx : Nat) : Mach :=
  match target id with
  | some (.obj o i) => m.objLand c o i
  | some (.win o _ _) => m.entLand c o idx
  | _ => m

/-! Host rows. -/

/-- The session objects that SES_CONFIG_WRITE names, by subindex (Table 5.5a). -/
def sesObj (sub : Nat) : Option ObjDef := [O.sesEnable, O.sesKeySlot, O.sesPriv, O.sesPaths, O.sesPeer, O.sesConfid].find? fun o => decide (o.sub = sub)

/-- SES_CONFIG_WRITE (R159). -/
def Mach.sesConfig (m : Mach) (c : ModeCtl) (ses target sub v : Nat) : Mach :=
  match sesObj sub with
  | none => m.st .unknownObject
  | some o => m.guarded c ses o target v fun m => m.sesPut c o target v

/-- FL_TEMPLATE_WRITE (R527): entry t of the templates written through its window's checks. -/
def Mach.templateCmd (m : Mach) (c : ModeCtl) (ses t mask : Nat) : Mach :=
  if !m.sesOn ses then m.st .session
  else if 2 ^ 32 ≤ mask then m.st .type
  else (m.winWrite c (m.reqOf ses) O.flTemplate 0 t 1 (octets 8 (mask * 2 ^ 32))).2

/-- A commit of the Adtieb record at its time (R618): a commit held back for a second, else the next whole 600 s of FRC. -/
def Mach.adtDue (m : Mach) (c : ModeCtl) : Mach :=
  let t := match m.trm.commitDue, m.trm.lastCommit with
    | true, some t => t + 1000000000
    | _, _ => (m.ns / 600000000000 + 1) * 600000000000
  (m.reach t).adtCommit c

/-- SHAPER_REFILL (R483): of the port shaper, or of queue q. -/
def Mach.shaperFill (m : Mach) (c : ModeCtl) (b : Nat) (q : Option Nat) : Mach :=
  match q with
  | none => m.portRefill c b
  | some k => m.queueRefill b k

/-! Debug and faults. -/

/-- WICK_EXPIRY (R576): FRC reaches DBG-EXPIRY. -/
def Mach.wickExpire (m : Mach) (c : ModeCtl) : Mach :=
  match m.dbg.wick with
  | none => m
  | some _ => (m.reach (m.rd O.dbgExpiry)).wickEnd c 3 0xFF

/-- What IDCODE reads (R570): version 1 for stepping A1, part 0x2048, manufacturer 0x3B5, and bit 0. -/
def idcode : Nat := 0x1204876B

/-- The record contents of every stack are unreadable once their key is gone (R560, R578). DESIGN CHOICE (log entry 187): what stood there reads as nothing. -/
def Mach.recordsGone (m : Mach) : Mach :=
  let m := (List.range 8).foldl (fun m s => ((m.tracesLost s).hplClear (2 * s)).hplClear (2 * s + 1)) m
  let m := (List.range 4).foldl (fun m s => m.pairEntriesLost s) m
  { m with dp.hbm := [], dp.eddy := [] }

/-- SCAN (R578): the first of a PROBE visit erases slot 65, and one that selects the key island in TEST erases slots 0 to 65. -/
def Mach.scan (m : Mach) (c : ModeCtl) (island : Bool) : Mach :=
  let m := if m.dbg.scanned then m else (({ m with dbg.scanned := true }).eraseSlots c [65]).recordsGone
  if island && decide (m.sec.life = .test) then (m.eraseSlots c (List.range 66)).keystoreSettle c else m

/-- TAP_INSTRUCTION_LOAD (R570, R578): a refused instruction selects BYPASS and is counted, a reserved opcode selects BYPASS; IDCODE shows the
identification. What SAMPLE/PRELOAD and EXTEST shift into the boundary cells, which no row brings, is a free value (log entry 128). -/
def Mach.tapLoad (m : Mach) (c : ModeCtl) (op : Nat) (island : Bool) : Mach :=
  if !tapKnown op then { m with dbg.tap := 0xFF }
  else if !m.tapOk c op then { (m.bump O.dbgTapRefused) with dbg.tap := 0xFF }
  else
    let m := { m with dbg.tap := op }
    if op = 1 then m.val idcode
    else if op = 2 ∨ op = 3 then ({ m with dbg.cells := m.freeVal 8 }).freed
    else if op = 0x20 then m.scan c island
    else m

/-- IJTAG_ACCESS (R568, R572, R579): instruments are read under IJTAG-RO and IJTAG-RW; margin overrides, memory BIST and fault injection take
IJTAG-RW. What an instrument shows is a free value; one without power reads zero with UNPOWERED, which the model keeps at bit 32 (log entry 69). -/
def Mach.ijtag (m : Mach) (c : ModeCtl) (op : IjtagOp) : Mach :=
  let rw := decide (m.dbg.tap = 0x11) && m.tapOk c 0x11
  let ro := rw || (decide (m.dbg.tap = 0x10) && m.tapOk c 0x10)
  match op with
  | .read t =>
    if !ro || t = 439 then m
    else if m.tilePower c t = 1 then (m.val (m.freeVal 32)).freed
    else m.val (2 ^ 32)
  | .margin t code => if rw && decide (t < 442 ∧ t ≠ 439) && decide (code < 64) then { m with pwr.override := mset none m.pwr.override t (some code) } else m
  | .bist t => if rw && decide (t < 436) && decide (m.tilePower c t = 1) then m.blkWipe c (blkOf t) else m
  | .inject f => if rw then m.fault c f else m

/-- SNUFFER_HEARTBEAT_LOSS (R604): FAULT_N stays low until DARK, and the state is undefined beyond R23. -/
def Mach.heartbeatLoss (m : Mach) : Mach :=
  { m with
    flt.dead := true }

end Sys2Proof.Machine
end

