-- ==== Sys2Proof/Machine/ExecFault.lean ====
section
/-! DEFINITION. The rows of faults, recovery, trim and the lifetime record (chs. 20, 21). -/

namespace Sys2Proof.Machine

/-- FAULT_DETECT (R584). -/
def execFaultDetect (f : FaultRep) (s : State) : Host.Outcome State Fault Refusal :=
  s.move fun c m => (c, m.fault c f)

/-- SNUFFER_DECIDE (R586). -/
def execSnufferDecide (s : State) : Host.Outcome State Fault Refusal :=
  s.move fun c m => (c, m.snuffDecide c)

/-- BLOCK_RESTART_COMPLETE (R590). -/
def execBlockRestartComplete (tile : Fin 442) (s : State) : Host.Outcome State Fault Refusal :=
  s.move fun c m => (c, m.blkRestart c tile)

/-- CONTAINMENT_END (R600). -/
def execContainmentEnd (tile : Fin 442) (s : State) : Host.Outcome State Fault Refusal :=
  s.move fun c m => (c, m.containEnd c tile)

/-- FLT_RESTORE (R600). -/
def execFltRestore (ses : Fin 64) (arg : Nat) (s : State) : Host.Outcome State Fault Refusal :=
  s.move fun c m => (c, m.guarded c ses O.fltRestore 0 arg fun m => m.restore c arg)

/-- HANDBACK_COMPLETE (R601). -/
def execHandbackComplete (b : Fin 16) (s : State) : Host.Outcome State Fault Refusal :=
  s.run fun _ m => m.handback b

/-- STACK_REBUILD_COMPLETE (R598). -/
def execStackRebuildComplete (stk : Fin 8) (s : State) : Host.Outcome State Fault Refusal :=
  s.run fun c m => m.rebuilt c stk

/-- FLT_ACK_OVERFLOW (R588). -/
def execFltAckOverflow (ses : Fin 64) (s : State) : Host.Outcome State Fault Refusal :=
  s.move fun c m => (c, m.guarded c ses O.fltAck 0 0 fun m => m.ackOverflow)

/-- FLT_ACK_PIN (R604). -/
def execFltAckPin (ses : Fin 64) (s : State) : Host.Outcome State Fault Refusal :=
  s.move fun c m => (c, m.guarded c ses O.fltAck 0 1 fun m => m.ackPin)

/-- SNUFFER_HEARTBEAT_LOSS (R604). -/
def execSnufferHeartbeatLoss (s : State) : Host.Outcome State Fault Refusal :=
  s.run fun _ m => m.heartbeatLoss

/-- TRIM_WORK_WRITE (R613). -/
def execTrimWorkWrite (ses : Fin 64) (view : Fin 3) (i : Nat) (val : List Byte) (s : State) : Host.Outcome State Fault Refusal :=
  s.run fun c m => m.trimWorkWrite c ses view i val

/-- TRIM_MEASURE (R614). -/
def execTrimMeasure (ses : Fin 64) (arg : Nat) (s : State) : Host.Outcome State Fault Refusal :=
  s.run fun c m => m.guarded c ses O.trimMeasure 0 arg fun m => m.trimMeasure arg

/-- TRIM_MEASURE_DONE (R614). -/
def execTrimMeasureDone (s : State) : Host.Outcome State Fault Refusal :=
  s.run fun _ m => m.trimMeasureDone

/-- TRIM_COMMIT (R615). -/
def execTrimCommit (ses : Fin 64) (s : State) : Host.Outcome State Fault Refusal :=
  s.run fun c m => m.guarded c ses O.trimCommit 0 0 fun m => m.trimCommit

/-- TRIM_COMMIT_DONE (R615). -/
def execTrimCommitDone (s : State) : Host.Outcome State Fault Refusal :=
  s.run fun c m => m.trimCommitDone c

/-- ADTIEB_COMMIT (R618). -/
def execAdtiebCommit (s : State) : Host.Outcome State Fault Refusal :=
  s.lan fun c m => m.adtDue c

/-- ADTIEB_SECOND (R620). -/
def execAdtiebSecond (temps : List (Option Int)) (s : State) : Host.Outcome State Fault Refusal :=
  s.lan fun c m => m.adtSecond c temps

end Sys2Proof.Machine
end

