-- ==== Sys2Proof/Machine/ExecFlow.lean ====
section
/-! DEFINITION. The rows of flow records and their concurrency (chs. 09, 10). -/

namespace Sys2Proof.Machine

/-- QUERY_RECEIPT (R336). -/
def execQueryReceipt (b : Fin 16) (src : Nat) (s : State) : Host.Outcome State Fault Refusal :=
  s.run fun c m => m.queryReceipt c b src

/-- BUCKET_READ_DONE (R282). -/
def execBucketReadDone (b : Fin 16) (e : Nat) (s : State) : Host.Outcome State Fault Refusal :=
  s.run fun _ m => m.bucketRead b e

/-- RESULT_ARRIVAL (R297). -/
def execResultArrival (b : Fin 16) (e : Nat) (s : State) : Host.Outcome State Fault Refusal :=
  s.run fun _ m => m.resultArrival b e

/-- OPERATION_APPLY (R303). -/
def execOperationApply (b : Fin 16) (e : Nat) (s : State) : Host.Outcome State Fault Refusal :=
  s.run fun c m => m.operationApply c b e

/-- PARK_ARRIVAL (R340). -/
def execParkArrival (b : Fin 16) (e : Nat) (s : State) : Host.Outcome State Fault Refusal :=
  s.run fun c m => m.parkArrival c b e

/-- VERDICT_WAIT_BASIN (R341). -/
def execVerdictWaitBasin (b : Fin 16) (e : Nat) (s : State) : Host.Outcome State Fault Refusal :=
  s.run fun c m => m.verdictWaitBasin c b e

/-- VERDICT_WAIT_LANE (R341). -/
def execVerdictWaitLane (r : Fin 8) (lane : Fin 4096) (s : State) : Host.Outcome State Fault Refusal :=
  s.run fun c m => m.verdictWaitLane c r lane

/-- VERDICT_ARRIVAL (R299). -/
def execVerdictArrival (r : Fin 8) (pkt : Nat) (s : State) : Host.Outcome State Fault Refusal :=
  s.run fun c m => m.verdictArrival c r pkt

/-- LANE_RELEASE (R332). -/
def execLaneRelease (r : Fin 8) (lane : Fin 4096) (s : State) : Host.Outcome State Fault Refusal :=
  s.run fun c m => m.laneRelease c r lane

/-- WRITE_BACK_AGE (R294). -/
def execWriteBackAge (b : Fin 16) (slot : Nat) (s : State) : Host.Outcome State Fault Refusal :=
  s.run fun _ m => m.writeBackAge b slot

/-- FLW_REQ_LOOKUP (R323). -/
def execFlwReqLookup (ses : Fin 64) (i : Fin 256) (s : State) : Host.Outcome State Fault Refusal :=
  s.run fun c m => m.hostReq c ses i 1

/-- FLW_REQ_INSERT (R323). -/
def execFlwReqInsert (ses : Fin 64) (i : Fin 256) (s : State) : Host.Outcome State Fault Refusal :=
  s.run fun c m => m.hostReq c ses i 2

/-- FLW_REQ_UPDATE (R323). -/
def execFlwReqUpdate (ses : Fin 64) (i : Fin 256) (s : State) : Host.Outcome State Fault Refusal :=
  s.run fun c m => m.hostReq c ses i 3

/-- FLW_REQ_DELETE (R323). -/
def execFlwReqDelete (ses : Fin 64) (i : Fin 256) (s : State) : Host.Outcome State Fault Refusal :=
  s.run fun c m => m.hostReq c ses i 4

/-- FLW_CLEAR (R325). -/
def execFlwClear (ses : Fin 64) (s : State) : Host.Outcome State Fault Refusal :=
  s.run fun c m => m.guarded c ses O.flwClear 0 0 fun m => m.flwClear

/-- FLW_CLEAR_DONE (R325). -/
def execFlwClearDone (s : State) : Host.Outcome State Fault Refusal :=
  s.run fun _ m => m.flwClearDone

/-- FLW_SIZE_WRITE (R279). -/
def execFlwSizeWrite (ses : Fin 64) (v : Nat) (s : State) : Host.Outcome State Fault Refusal :=
  s.run fun c m => m.guarded c ses O.flwSizeLog2 0 v fun m => m.flwSize v

/-- FLW_GROW (R284). -/
def execFlwGrow (ses : Fin 64) (s : State) : Host.Outcome State Fault Refusal :=
  s.run fun c m => m.guarded c ses O.flwGrow 0 0 fun m => m.flwGrow

end Sys2Proof.Machine
end

