-- ==== Sys2Proof/Machine/ExecHost.lean ====
section
/-! DEFINITION. The rows of functions, objects, Clelek, the management ports and the host path (chs. 04, 05). -/

namespace Sys2Proof.Machine

/-- FN_START (R119). -/
def execFnStart (ses : Fin 64) (fn : Fin 65536) (s : State) : Host.Outcome State Fault Refusal :=
  s.run fun c m => m.startCmd c ses fn

/-- FN_STOP (R119). -/
def execFnStop (ses : Fin 64) (fn : Fin 65536) (s : State) : Host.Outcome State Fault Refusal :=
  s.run fun c m => m.stopCmd c ses fn

/-- FN_INIT_COMPLETE (R118). -/
def execFnInitComplete (fn : Fin 65536) (s : State) : Host.Outcome State Fault Refusal :=
  s.move fun c m => (c, m.initComplete c fn)

/-- FN_STOP_COMPLETE (R118). -/
def execFnStopComplete (fn : Fin 65536) (s : State) : Host.Outcome State Fault Refusal :=
  s.move fun c m => (c, m.stopComplete c fn)

/-- RL_LANDING (R113). -/
def execRlLanding (id : Fin 4294967296) (idx : Nat) (s : State) : Host.Outcome State Fault Refusal :=
  s.run fun c m => m.rlLand c id idx

/-- HOLD_AGE_EXPIRY (R127). -/
def execHoldAgeExpiry (r : Fin 8) (pkt : Nat) (s : State) : Host.Outcome State Fault Refusal :=
  s.run fun c m => m.holdAge c r pkt

/-- OBJECT_WRITE (R110). -/
def execObjectWrite (ses : Fin 64) (id : Fin 4294967296) (val : List Byte) (s : State) : Host.Outcome State Fault Refusal :=
  s.lanMove fun c m => Sys2Proof.Machine.objectWrite c m ses id val

/-- READ_CLEAR (R66). -/
def execReadClear (ses : Fin 64) (id : Fin 4294967296) (s : State) : Host.Outcome State Fault Refusal :=
  s.lan fun c m => (m.gecSettle c).readRow c ses id

/-- MGT_FRAME_RX (R144). -/
def execMgtFrameRx (p : Fin 2) (f : MgtFrame) (s : State) : Host.Outcome State Fault Refusal :=
  s.lan fun _ m => m.mgtFrame p f

/-- MGT_SPEED_WRITE (R147). -/
def execMgtSpeedWrite (ses : Fin 64) (p : Fin 2) (v : Nat) (s : State) : Host.Outcome State Fault Refusal :=
  s.lan fun c m => m.guarded c ses O.mgtSpeed p v fun m => m.putHost c O.mgtSpeed p v

/-- INBAND_CLELEK_RX (R148). -/
def execInbandClelekRx (b : Fin 1024) (f : ClFrame) (s : State) : Host.Outcome State Fault Refusal :=
  s.lan fun c m => m.inbandRx c b f

/-- CLELEK_READ (R153). -/
def execClelekRead (s : State) : Host.Outcome State Fault Refusal :=
  s.lanMove fun c m => Sys2Proof.Machine.clelekRead c (m.gecSettle c)

/-- CLELEK_WRITE (R161). -/
def execClelekWrite (s : State) : Host.Outcome State Fault Refusal :=
  s.lanMove fun c m => Sys2Proof.Machine.clelekWrite c m

/-- CLELEK_BATCH (R165). -/
def execClelekBatch (s : State) : Host.Outcome State Fault Refusal :=
  s.lanMove fun c m => engine c m 3 fun m f g => (c, m.clelekBatch c f g)

/-- BATCH_EXECUTE (R166). -/
def execBatchExecute (s : State) : Host.Outcome State Fault Refusal :=
  s.lanMove fun c m => jobTake c m false

/-- WINDOW_READ (R169). -/
def execWindowRead (s : State) : Host.Outcome State Fault Refusal :=
  s.lanMove fun c m => engine c (m.gecSettle c) 40 fun m f g => (c, m.windowRead c f g)

/-- WINDOW_WRITE (R169). -/
def execWindowWrite (s : State) : Host.Outcome State Fault Refusal :=
  s.lanMove fun c m => engine c m 41 fun m f g => (c, m.windowWrite c f g)

/-- SUBSCRIBE (R171). -/
def execSubscribe (s : State) : Host.Outcome State Fault Refusal :=
  s.lanMove fun c m => engine c m 50 fun m f _ => (c, m.subscribe c f)

/-- SUBSCRIBE_CANCEL (R171). -/
def execSubscribeCancel (s : State) : Host.Outcome State Fault Refusal :=
  s.lanMove fun c m => engine c m 51 fun m f _ => (c, m.subCancel c f)

/-- ATTEST (R553). -/
def execAttest (s : State) : Host.Outcome State Fault Refusal :=
  s.lanMove fun c m => engine c m 7 fun m f _ => (c, m.attest c f)

/-- ATTEST_SIGNED (R553). -/
def execAttestSigned (s : State) : Host.Outcome State Fault Refusal :=
  s.lan fun c m => m.attestSigned c

/-- IMPORT (R550). -/
def execImportKey (s : State) : Host.Outcome State Fault Refusal :=
  s.lanMove fun c m => engine c m 8 fun m f _ => (c, m.importKey c f)

/-- BUNDLE (R137). -/
def execBundle (sigOk : Option (List Byte)) (s : State) : Host.Outcome State Fault Refusal :=
  s.lanMove fun c m => engine c m 9 fun m f g => (c, m.clelekBundle c f g sigOk)

/-- BUNDLE_EXECUTE (R138). -/
def execBundleExecute (s : State) : Host.Outcome State Fault Refusal :=
  s.lanMove fun c m => jobTake c m true

/-- CLELEK_BAD_OP (R160). Check 6 refuses it. -/
def execClelekBadOp (s : State) : Host.Outcome State Fault Refusal :=
  s.lanMove fun c m => engine c m 0 fun m _ _ => (c, m)

/-- MESSAGE_TIMEOUT (R155). -/
def execMessageTimeout (ses : Fin 64) (s : State) : Host.Outcome State Fault Refusal :=
  s.lan fun c m => m.msgTimeout c ses

/-- SES_CONFIG_WRITE (R159). -/
def execSesConfigWrite (ses target : Fin 64) (sub : Nat) (v : Nat) (s : State) : Host.Outcome State Fault Refusal :=
  s.lan fun c m => m.sesConfig c ses target sub v

/-- NOTE_LOSS (R172). -/
def execNoteLoss (slot : Fin 16) (s : State) : Host.Outcome State Fault Refusal :=
  s.lan fun c m => m.noteLoss c slot

/-- INJECT_PORT (R178). -/
def execInjectPort (f : InjFrame) (s : State) : Host.Outcome State Fault Refusal :=
  s.run fun c m => m.inject c f false

/-- INJECT_PIPELINE (R178). -/
def execInjectPipeline (f : InjFrame) (s : State) : Host.Outcome State Fault Refusal :=
  s.run fun c m => m.inject c f true

/-- INJECT_DRAIN (R178). -/
def execInjectDrain (s : State) : Host.Outcome State Fault Refusal :=
  s.run fun c m => m.injectDrain c

/-- PUNT_SEND (R177). -/
def execPuntSend (s : State) : Host.Outcome State Fault Refusal :=
  s.run fun c m => m.puntSend c

/-- MGT_LINK_CHANGE (R147). -/
def execMgtLinkChange (p : Fin 2) (up : Bool) (s : State) : Host.Outcome State Fault Refusal :=
  s.lan fun _ m => m.mgtLink p up

end Sys2Proof.Machine
end

