-- ==== Sys2Proof/Machine/ExecIngress.lean ====
section
/-! DEFINITION. The rows of parsing and rules (chs. 07, 08). -/

namespace Sys2Proof.Machine

/-- FRAME_RX (R208). -/
def execFrameRx (b : Fin 1024) (client : Nat) (fcsOk overflow : Bool) (data : List Byte) (s : State) : Host.Outcome State Fault Refusal :=
  s.run fun c m => m.frameRx c b client fcsOk overflow data

/-- CONTEXT_ASSIGN (R209). -/
def execContextAssign (r : Fin 8) (s : State) : Host.Outcome State Fault Refusal :=
  s.run fun c m => m.contextAssign c r

/-- PARSE_COMPLETE (R218). -/
def execParseComplete (r : Fin 8) (pkt : Nat) (s : State) : Host.Outcome State Fault Refusal :=
  s.run fun c m => m.parseComplete c r pkt

/-- GRAPH_PARSE_START (R226). -/
def execGraphParseStart (r : Fin 8) (s : State) : Host.Outcome State Fault Refusal :=
  s.run fun c m => m.graphStart c r

/-- GRAPH_PARSE_COMPLETE (R226). -/
def execGraphParseComplete (r : Fin 8) (s : State) : Host.Outcome State Fault Refusal :=
  s.run fun c m => m.graphComplete c r

/-- KEY_EPOCH (R238). -/
def execKeyEpoch (s : State) : Host.Outcome State Fault Refusal :=
  s.run fun c m => m.keyEpoch c

/-- PASS_START (R245). -/
def execPassStart (r : Fin 8) (pkt : Nat) (s : State) : Host.Outcome State Fault Refusal :=
  s.run fun c m => m.passStart c r pkt

/-- PASS_END (R248). -/
def execPassEnd (r : Fin 8) (pkt : Nat) (s : State) : Host.Outcome State Fault Refusal :=
  s.run fun c m => m.passEnd c r pkt

/-- BACKWATER_REENTRY (R270). -/
def execBackwaterReentry (r : Fin 8) (pkt : Nat) (s : State) : Host.Outcome State Fault Refusal :=
  s.run fun c m => m.backwaterReentry c r pkt

end Sys2Proof.Machine
end

