-- ==== Sys2Proof/Machine/ExecMem.lean ====
section
/-! DEFINITION. The rows of the HBM stacks and the buffer pools (chs. 12, 13). -/

namespace Sys2Proof.Machine

/-- HBM_REQUEST (R397). -/
def execHbmRequest (q : HbmReq) (s : State) : Host.Outcome State Fault Refusal :=
  s.run fun c m => m.hbmRequest c q

/-- HBM_READ_COMPLETE (R397). -/
def execHbmReadComplete (pc : Fin 512) (ecc : EccOutcome) (s : State) : Host.Outcome State Fault Refusal :=
  s.run fun c m => m.readComplete c pc ecc

/-- HBM_WRITE_COMPLETE (R414). -/
def execHbmWriteComplete (pc : Fin 512) (s : State) : Host.Outcome State Fault Refusal :=
  s.run fun c m => m.writeComplete c pc

/-- HBM_REFRESH (R400). -/
def execHbmRefresh (pc : Fin 512) (bank : Nat) (s : State) : Host.Outcome State Fault Refusal :=
  s.run fun c m => m.refresh c pc bank

/-- HBM_RETRAIN (R401). -/
def execHbmRetrain (stk : Fin 8) (ch : Fin 32) (ok : Bool) (temp : Int) (s : State) : Host.Outcome State Fault Refusal :=
  s.run fun c m => m.retrain c stk ch ok temp

/-- SELF_REFRESH_IDLE (R403). -/
def execSelfRefreshIdle (stk : Fin 8) (ch : Fin 32) (s : State) : Host.Outcome State Fault Refusal :=
  s.run fun c m => m.srIdle c stk ch

/-- SELF_REFRESH_EXIT (R405). -/
def execSelfRefreshExit (stk : Fin 8) (ch : Fin 32) (s : State) : Host.Outcome State Fault Refusal :=
  s.run fun c m => m.srExit c stk ch

/-- HBM_SCRUB (R411). -/
def execHbmScrub (stk : Fin 8) (line : Nat) (ecc : EccOutcome) (s : State) : Host.Outcome State Fault Refusal :=
  s.run fun c m => m.scrub c stk line ecc

/-- HBM_MAP_ORDER_WRITE (R395). -/
def execHbmMapOrderWrite (ses : Fin 64) (v : Nat) (s : State) : Host.Outcome State Fault Refusal :=
  s.run fun c m => m.guarded c ses O.hbmMapOrder 0 v fun m => m.remap v

/-- REMAP_DONE (R395). -/
def execRemapDone (s : State) : Host.Outcome State Fault Refusal :=
  s.run fun _ m => m.remapDone

/-- CELL_FREE (R427). -/
def execCellFree (r : Fin 8) (pool : Fin 4) (cell : Nat) (owner : Nat) (s : State) : Host.Outcome State Fault Refusal :=
  s.run fun c m => m.cellFree c r (pool, cell) owner

/-- HBM_POOL_ALLOC (R431). -/
def execHbmPoolAlloc (b : Fin 16) (len : Nat) (s : State) : Host.Outcome State Fault Refusal :=
  s.run fun c m => m.poolAllocCmd c b len

/-- HBM_STOCK_REFILL (R431). -/
def execHbmStockRefill (p : Fin 16) (s : State) : Host.Outcome State Fault Refusal :=
  s.run fun _ m => m.hpoolRefill p

/-- HBM_POOL_FREE (R432). -/
def execHbmPoolFree (b : Fin 16) (p : Fin 8) (off : Nat) (s : State) : Host.Outcome State Fault Refusal :=
  s.run fun c m => m.hpoolFreeAt c b p off

/-- HPL_REBUILD (R435). -/
def execHplRebuild (ses : Fin 64) (p : Nat) (s : State) : Host.Outcome State Fault Refusal :=
  s.run fun c m => m.guarded c ses O.hplRebuild 0 p fun m => m.hplRebuild p

/-- HPL_REBUILD_DONE (R435). -/
def execHplRebuildDone (p : Fin 16) (s : State) : Host.Outcome State Fault Refusal :=
  s.run fun _ m => m.hplRebuildDone p

end Sys2Proof.Machine
end

