-- ==== Sys2Proof/Machine/ExecMill.lean ====
section
/-! DEFINITION. The rows of sluices and mills (ch. 11). -/

namespace Sys2Proof.Machine

/-- EVENT_POST (R361). -/
def execEventPost (b : Fin 16) (s : State) : Host.Outcome State Fault Refusal :=
  s.run fun c m => m.eventPost c b

/-- EVENT_DISPATCH (R363). -/
def execEventDispatch (b : Fin 16) (s : State) : Host.Outcome State Fault Refusal :=
  s.run fun c m => m.eventDispatch c b

/-- CREATE (R310). -/
def execCreate (b : Fin 16) (ctx : Nat) (s : State) : Host.Outcome State Fault Refusal :=
  s.run fun c m => m.createEv c b ctx

/-- LINK_CREATE (R314). -/
def execLinkCreate (b : Fin 16) (ctx : Nat) (s : State) : Host.Outcome State Fault Refusal :=
  s.run fun c m => m.linkEv c b ctx

/-- PAIR_NOTE (R308). -/
def execPairNote (b : Fin 16) (ctx : Nat) (s : State) : Host.Outcome State Fault Refusal :=
  s.run fun c m => m.pairNoteEv c b ctx

/-- PAIR_DELETE (R371). -/
def execPairDelete (b : Fin 16) (ctx : Nat) (s : State) : Host.Outcome State Fault Refusal :=
  s.run fun c m => m.pairDeleteEv c b ctx

/-- POOL_ALLOC (R369). -/
def execPoolAlloc (b : Fin 16) (ctx : Nat) (s : State) : Host.Outcome State Fault Refusal :=
  s.run fun c m => m.poolAllocEv c b ctx

/-- PORT_RELEASE (R370). -/
def execPortRelease (b : Fin 16) (ctx : Nat) (s : State) : Host.Outcome State Fault Refusal :=
  s.run fun c m => m.portReleaseEv c b ctx

/-- AGE (R343). -/
def execAge (b : Fin 16) (ctx : Nat) (s : State) : Host.Outcome State Fault Refusal :=
  s.run fun c m => m.ageEv c b ctx

/-- EXPORT (R377). -/
def execExportEvent (b : Fin 16) (ctx : Nat) (s : State) : Host.Outcome State Fault Refusal :=
  s.run fun c m => m.exportEv c b ctx

/-- SWEEP (R375). -/
def execSweep (b : Fin 16) (ctx : Nat) (s : State) : Host.Outcome State Fault Refusal :=
  s.run fun c m => m.sweepEv c b ctx

/-- SPLIT (R286). -/
def execSplit (b : Fin 16) (ctx : Nat) (s : State) : Host.Outcome State Fault Refusal :=
  s.run fun c m => m.splitEv c b ctx

/-- SWEEP_TIMER (R375). -/
def execSweepTimer (b : Fin 16) (s : State) : Host.Outcome State Fault Refusal :=
  s.run fun _ m => m.sweepTimer b

/-- SPLIT_TIMER (R379). -/
def execSplitTimer (b : Fin 16) (s : State) : Host.Outcome State Fault Refusal :=
  s.run fun _ m => m.splitTimer b

/-- POOL_RECOUNT (R385). -/
def execPoolRecount (ses : Fin 64) (s : State) : Host.Outcome State Fault Refusal :=
  s.run fun c m => m.guarded c ses O.poolRecount 0 0 fun m => m.poolRecount

/-- POOL_RECOUNT_DONE (R385). -/
def execPoolRecountDone (s : State) : Host.Outcome State Fault Refusal :=
  s.run fun _ m => m.poolRecountDone

/-- TRC_ARM (R387). -/
def execTrcArm (ses : Fin 64) (b : Fin 16) (s : State) : Host.Outcome State Fault Refusal :=
  s.run fun c m => m.guarded c ses O.trcArm b 0 fun m => m.trcArm b

end Sys2Proof.Machine
end

