-- ==== Sys2Proof/Machine/ExecPort.lean ====
section
/-! DEFINITION. The rows of ports, links and FlexE calendars (ch. 06). -/

namespace Sys2Proof.Machine

/-- DEFECT_RAISE (R196). -/
def execDefectRaise (b : Fin 1024) (k : DefectRep) (s : State) : Host.Outcome State Fault Refusal :=
  s.run fun c m => m.defect c b true k

/-- DEFECT_CLEAR (R196). -/
def execDefectClear (b : Fin 1024) (k : DefectRep) (s : State) : Host.Outcome State Fault Refusal :=
  s.run fun c m => m.defect c b false k

/-- DOWN_HOLD_EXPIRY (R198). -/
def execDownHoldExpiry (b : Fin 1024) (s : State) : Host.Outcome State Fault Refusal :=
  s.run fun c m => m.downExpiry c b

/-- UP_HOLD_EXPIRY (R198). -/
def execUpHoldExpiry (b : Fin 1024) (s : State) : Host.Outcome State Fault Refusal :=
  s.run fun c m => m.upExpiry c b

/-- AN_RESTART (R186). -/
def execAnRestart (b : Fin 1024) (s : State) : Host.Outcome State Fault Refusal :=
  s.run fun _ m => m.anRestart b

/-- BP_ENABLE_WRITE (R196). -/
def execBpEnableWrite (ses : Fin 64) (b : Fin 1024) (v : Nat) (s : State) : Host.Outcome State Fault Refusal :=
  s.run fun c m => m.guarded c ses O.bpEnable b v fun m => m.enableWrite c b v

/-- BP_HOLD_WRITE (R199). -/
def execBpHoldWrite (ses : Fin 64) (b : Fin 1024) (up : Bool) (v : Nat) (s : State) : Host.Outcome State Fault Refusal :=
  s.run fun c m => m.guarded c ses (if up then O.bpUpHold else O.bpDownHold) b v fun m => m.holdWrite c b up v

/-- PAUSE_RX (R202). -/
def execPauseRx (b : Fin 1024) (opcode : Nat) (enable : Nat) (quanta : List Nat) (s : State) : Host.Outcome State Fault Refusal :=
  s.run fun c m => m.pauseRx c b opcode enable quanta

/-- PAUSE_EXPIRY (R202). -/
def execPauseExpiry (b : Fin 1024) (cls : Fin 8) (s : State) : Host.Outcome State Fault Refusal :=
  s.run fun _ m => m.pauseExpiry b cls

/-- XOFF_REFRESH (R203). -/
def execXoffRefresh (b : Fin 1024) (cls : Fin 8) (s : State) : Host.Outcome State Fault Refusal :=
  s.run fun c m => m.xoffRefresh c b cls

/-- PM_SECOND (R204). -/
def execPmSecond (b : Fin 1024) (f : PmInput) (s : State) : Host.Outcome State Fault Refusal :=
  s.run fun c m => m.pmSecond c b f

/-- FLX_CAL_USE_WRITE (R194). -/
def execFlxCalUseWrite (ses : Fin 64) (g : Fin 128) (v : Nat) (s : State) : Host.Outcome State Fault Refusal :=
  s.run fun c m => m.guarded c ses O.flxCalUse g v fun m => m.calUse g v

/-- FLX_CAL_SWITCH (R194). -/
def execFlxCalSwitch (g : Fin 128) (s : State) : Host.Outcome State Fault Refusal :=
  s.run fun c m => m.calSwitch c g

/-- FLX_CAL_TIMEOUT (R194). -/
def execFlxCalTimeout (g : Fin 128) (s : State) : Host.Outcome State Fault Refusal :=
  s.run fun c m => m.calTimeout c g

end Sys2Proof.Machine
end

