-- ==== Sys2Proof/Machine/ExecPower.lean ====
section
/-! DEFINITION. The rows of power, pace, temperature and modes (chs. 02, 03, 22). -/

namespace Sys2Proof.Machine

/-- LANTERN_RAIL_VALID (R82). -/
def execLanternRailValid (straps : Fin 8) (refclk trngPass imageOk : Bool) (corrupt : List (Fin 69)) (s : State) : Host.Outcome State Fault Refusal :=
  let r := lanternUp s.mc s.m straps refclk trngPass imageOk (corrupt.map fun k => k.val)
  .next { s with
    mc := r.1
    m := r.2 }

/-- LANTERN_RAIL_LOSS (R74). -/
def execLanternRailLoss (s : State) : Host.Outcome State Fault Refusal :=
  let r : ModeCtl × Mach := ({}, darken s.m)
  .next { s with
    mc := r.1
    m := r.2 }

/-- CORE_UNDERVOLT (R57). -/
def execCoreUndervolt (d : Fin 4) (mv : Nat) (s : State) : Host.Outcome State Fault Refusal :=
  s.run fun c m => m.coreUndervolt c d mv

/-- RAIL_OUT_OF_RANGE (R633). -/
def execRailOutOfRange (r : Fin 12) (mv : Nat) (s : State) : Host.Outcome State Fault Refusal :=
  s.run fun c m => m.railSample c r mv

/-- THERMAL_TRIP (R641). -/
def execThermalTrip (sensor : Fin 21) (temp : Int) (s : State) : Host.Outcome State Fault Refusal :=
  s.run fun c m => m.thermalTrip c sensor temp

/-- DIE_TEMP_LIMIT (R643). -/
def execDieTempLimit (die : Fin 13) (temp : Int) (s : State) : Host.Outcome State Fault Refusal :=
  s.run fun c m => m.dieTempLimit c die temp

/-- PACE_WINDOW (R50). -/
def execPaceWindow (t : Fin 442) (eq : Nat) (s : State) : Host.Outcome State Fault Refusal :=
  s.run fun c m => (m.crbSettle c).paceWindow c t eq

/-- AVS_INTERVAL (R59). -/
def execAvsInterval (d : Fin 4) (mv ma : Nat) (s : State) : Host.Outcome State Fault Refusal :=
  s.run fun c m => m.avsInterval c d mv ma

/-- AVS_FAILURE (R63). -/
def execAvsFailure (d : Fin 4) (s : State) : Host.Outcome State Fault Refusal :=
  s.run fun c m => m.avsFailure c d

/-- PACE_DEFICIT (R62). -/
def execPaceDeficit (d : Fin 4) (s : State) : Host.Outcome State Fault Refusal :=
  s.run fun c m => m.paceDeficit c d

/-- AVS_LOOP_EN_WRITE (R63). -/
def execAvsLoopEnWrite (ses : Fin 64) (v : Nat) (s : State) : Host.Outcome State Fault Refusal :=
  s.run fun c m => m.guarded c ses O.avsLoopEn 0 v fun m => m.avsLoopEnSet c v

/-- CORE_VCORE_SET_WRITE (R66). -/
def execCoreVcoreSetWrite (ses : Fin 64) (d : Fin 4) (v : Nat) (s : State) : Host.Outcome State Fault Refusal :=
  s.run fun c m => m.guarded c ses O.coreVcoreSet d v fun m => m.vcoreSet d v

/-- MODE_REQ_PILOT (R647). -/
def execModeReqPilot (ses : Fin 64) (s : State) : Host.Outcome State Fault Refusal :=
  s.move fun c m => modeReq c m ses .pilot

/-- MODE_REQ_TRIM (R647). -/
def execModeReqTrim (ses : Fin 64) (s : State) : Host.Outcome State Fault Refusal :=
  s.move fun c m => modeReq c m ses .trim

/-- MODE_REQ_PRIMED (R647). -/
def execModeReqPrimed (ses : Fin 64) (s : State) : Host.Outcome State Fault Refusal :=
  s.move fun c m => modeReq c m ses .primed

/-- MODE_REQ_LIT (R647). -/
def execModeReqLit (ses : Fin 64) (s : State) : Host.Outcome State Fault Refusal :=
  s.move fun c m => modeReq c m ses .lit

/-- MODE_REQ_LEAN (R647). -/
def execModeReqLean (ses : Fin 64) (s : State) : Host.Outcome State Fault Refusal :=
  s.move fun c m => modeReq c m ses .lean

/-- MODE_REQ_EBB (R647). -/
def execModeReqEbb (ses : Fin 64) (s : State) : Host.Outcome State Fault Refusal :=
  s.move fun c m => modeReq c m ses .ebb

/-- MODE_REQ_BANKED (R647). -/
def execModeReqBanked (ses : Fin 64) (s : State) : Host.Outcome State Fault Refusal :=
  s.move fun c m => modeReq c m ses .banked

/-- MODE_REQ_PROBE (R579). -/
def execModeReqProbe (ses : Fin 64) (s : State) : Host.Outcome State Fault Refusal :=
  s.move fun c m => modeReq c m ses .probe

/-- MODE_REQ_QUENCH (R72). -/
def execModeReqQuench (ses : Fin 64) (s : State) : Host.Outcome State Fault Refusal :=
  s.move fun c m => modeReq c m ses .quench

/-- KINDLE_COMPLETE (R84). -/
def execKindleComplete (failed : List (Fin 442)) (s : State) : Host.Outcome State Fault Refusal :=
  s.move fun c m => Sys2Proof.Machine.kindleComplete c m (failed.map fun t => t.val)

/-- KINDLE_ABORT (R84). -/
def execKindleAbort (cause : KindleCause) (s : State) : Host.Outcome State Fault Refusal :=
  s.move fun c m => Sys2Proof.Machine.kindleAbort c m cause

/-- LEAN_TO_LIT_ENTRY (R76). -/
def execLeanToLitEntry (timeout : Bool) (s : State) : Host.Outcome State Fault Refusal :=
  s.move fun c m => leanToLit c m timeout

/-- EBB_DRAINED (R93). -/
def execEbbDrained (s : State) : Host.Outcome State Fault Refusal :=
  s.run fun c m => Sys2Proof.Machine.ebbDrained c m

/-- EBB_LIMIT_EXPIRY (R93). -/
def execEbbLimitExpiry (s : State) : Host.Outcome State Fault Refusal :=
  s.run fun c m => ebbLimit c m

/-- EBB_RETURN (R93). -/
def execEbbReturn (s : State) : Host.Outcome State Fault Refusal :=
  s.move fun c m => Sys2Proof.Machine.ebbReturn c m

/-- BANKED_ENTRY (R96). -/
def execBankedEntry (s : State) : Host.Outcome State Fault Refusal :=
  s.move fun c m => Sys2Proof.Machine.bankedEntry c m

/-- BANKED_EXIT_COMPLETE (R97). -/
def execBankedExitComplete (s : State) : Host.Outcome State Fault Refusal :=
  s.move fun c m => bankedExit c m

/-- QUENCH_ZEROISE (R100). -/
def execQuenchZeroise (s : State) : Host.Outcome State Fault Refusal :=
  s.move fun c m => Sys2Proof.Machine.quenchZeroise c m

/-- QUENCH_COMPLETE (R100). -/
def execQuenchComplete (s : State) : Host.Outcome State Fault Refusal :=
  s.move fun c m => Sys2Proof.Machine.quenchComplete c m

/-- RESET_BLOCK (R102). -/
def execResetBlock (ses : Fin 64) (tile : Nat) (s : State) : Host.Outcome State Fault Refusal :=
  s.move fun c m => (c, m.guarded c ses O.resetBlock 0 tile fun m => m.resetBlock c tile)

/-- RESET_DIE (R102). -/
def execResetDie (ses : Fin 64) (die : Nat) (s : State) : Host.Outcome State Fault Refusal :=
  s.move fun c m => (c, m.guarded c ses O.resetDie 0 die fun m => m.resetDie c die)

/-- RESET_ASSEMBLY (R102). -/
def execResetAssembly (ses : Fin 64) (s : State) : Host.Outcome State Fault Refusal :=
  s.move fun c m => Sys2Proof.Machine.resetAssembly c m ses

end Sys2Proof.Machine
end

