-- ==== Sys2Proof/Machine/ExecSec.lean ====
section
/-! DEFINITION. The rows of identity, keys, the cipher service and debug (chs. 18, 19). -/

namespace Sys2Proof.Machine

/-- LC_SHIP (R536). -/
def execLcShip (ses : Fin 64) (s : State) : Host.Outcome State Fault Refusal :=
  s.lanMove fun c m => (c, m.guarded c ses O.lcShip 0 0 fun m => m.lcShip c)

/-- OWNER_CLAIM (R538). -/
def execOwnerClaim (ses : Fin 64) (arg : Nat) (s : State) : Host.Outcome State Fault Refusal :=
  s.lanMove fun c m => (c, m.guarded c ses O.ownerClaim 0 arg fun m => m.ownerClaim c arg)

/-- OWNER_TRANSFER (R539). -/
def execOwnerTransfer (ses : Fin 64) (arg : Nat) (s : State) : Host.Outcome State Fault Refusal :=
  s.lanMove fun c m => (c, m.guarded c ses O.ownerTransfer 0 arg fun m => m.ownerTransfer c arg)

/-- OWNER_RETURN (R540). -/
def execOwnerReturn (ses : Fin 64) (arg : Nat) (s : State) : Host.Outcome State Fault Refusal :=
  s.lanMove fun c m => (c, m.guarded c ses O.ownerReturn 0 arg fun m => m.ownerReturn c arg)

/-- SLOT_ERASE (R547). -/
def execSlotErase (ses : Fin 64) (slot : Fin 69) (s : State) : Host.Outcome State Fault Refusal :=
  s.lan fun c m => m.guarded c ses O.slotErase slot 0 fun m => m.slotErase c slot

/-- TRNG_HEALTH_FAIL (R565). -/
def execTrngHealthFail (s : State) : Host.Outcome State Fault Refusal :=
  s.lan fun c m => m.trngFail c

/-- TRNG_RETEST (R565). -/
def execTrngRetest (ses : Fin 64) (pass : Bool) (s : State) : Host.Outcome State Fault Refusal :=
  s.lan fun c m => m.guarded c ses O.trngRetest 0 0 fun m => m.trngRetest c pass

/-- CIPHER_SEAL (R562). -/
def execCipherSeal (ses : Fin 64) (i : Fin 16) (s : State) : Host.Outcome State Fault Refusal :=
  s.lan fun c m => m.cipherRun c ses i 1

/-- CIPHER_OPEN (R562). -/
def execCipherOpen (ses : Fin 64) (i : Fin 16) (s : State) : Host.Outcome State Fault Refusal :=
  s.lan fun c m => m.cipherRun c ses i 2

/-- CIPHER_MAC (R562). -/
def execCipherMac (ses : Fin 64) (i : Fin 16) (s : State) : Host.Outcome State Fault Refusal :=
  s.lan fun c m => m.cipherRun c ses i 3

/-- CIPHER_VERIFY (R562). -/
def execCipherVerify (ses : Fin 64) (i : Fin 16) (s : State) : Host.Outcome State Fault Refusal :=
  s.lan fun c m => m.cipherRun c ses i 4

/-- TAP_INSTRUCTION_LOAD (R570). -/
def execTapInstructionLoad (op : Fin 256) (keyIsland : Bool) (s : State) : Host.Outcome State Fault Refusal :=
  s.run fun c m => m.tapLoad c op keyIsland

/-- IJTAG_ACCESS (R579). -/
def execIjtagAccess (op : IjtagOp) (s : State) : Host.Outcome State Fault Refusal :=
  s.move fun c m => (c, m.ijtag c op)

/-- WICK_APPLY (R575). -/
def execWickApply (ses : Fin 64) (sigOk : Bool) (s : State) : Host.Outcome State Fault Refusal :=
  s.move fun c m => (c, m.guarded c ses O.wickApply 0 0 fun m => m.wickApply c ses sigOk)

/-- WICK_REVOKE (R576). -/
def execWickRevoke (ses : Fin 64) (s : State) : Host.Outcome State Fault Refusal :=
  s.move fun c m => (c, m.guarded c ses O.wickRevoke 0 0 fun m => m.wickRevoke c ses)

/-- WICK_EXPIRY (R576). -/
def execWickExpiry (s : State) : Host.Outcome State Fault Refusal :=
  s.move fun c m => (c, m.wickExpire c)

/-- DBG_LEVEL_REQ (R577). -/
def execDbgLevelReq (ses : Fin 64) (v : Nat) (s : State) : Host.Outcome State Fault Refusal :=
  s.move fun c m => (c, m.guarded c ses O.dbgLevelReq 0 v fun m => m.levelReq c ses v)

/-- DBG_OWNER_CONSENT_WRITE (R576). -/
def execDbgOwnerConsentWrite (ses : Fin 64) (v : Nat) (s : State) : Host.Outcome State Fault Refusal :=
  s.move fun c m => (c, m.guarded c ses O.dbgOwnerConsent 0 v fun m => m.putSec c ses O.dbgOwnerConsent 0 v)

/-- DBG_OBSERVE_EN_WRITE (R569). -/
def execDbgObserveEnWrite (ses : Fin 64) (v : Nat) (s : State) : Host.Outcome State Fault Refusal :=
  s.move fun c m => (c, m.guarded c ses O.dbgObserveEn 0 v fun m => m.putSec c ses O.dbgObserveEn 0 v)

end Sys2Proof.Machine
end

