-- ==== Sys2Proof/Machine/ExecSwitch.lean ====
section
/-! DEFINITION. The rows of the switch core and of egress scheduling (chs. 14, 15). -/

namespace Sys2Proof.Machine

/-- CHANNEL_SEND (R444). -/
def execChannelSend (ch : Fin 256) (s : State) : Host.Outcome State Fault Refusal :=
  s.run fun c m => m.channelSend c ch

/-- VOQ_REQUEST_ARRIVAL (R452). -/
def execVoqRequestArrival (e : Fin 8) (s : State) : Host.Outcome State Fault Refusal :=
  s.run fun _ m => m.requestArrival e

/-- GRANT_ISSUE (R453). -/
def execGrantIssue (e : Fin 8) (s : State) : Host.Outcome State Fault Refusal :=
  s.run fun _ m => m.grantIssue e

/-- GRANT_ARRIVAL (R454). -/
def execGrantArrival (i : Fin 8) (s : State) : Host.Outcome State Fault Refusal :=
  s.run fun _ m => m.grantArrival i

/-- CREDIT_RETURN (R454). -/
def execCreditReturn (e : Fin 8) (s : State) : Host.Outcome State Fault Refusal :=
  s.run fun _ m => m.creditReturn e

/-- EGRESS_ARRIVAL (R457). -/
def execEgressArrival (e : Fin 8) (s : State) : Host.Outcome State Fault Refusal :=
  s.run fun c m => m.egressArrival c e

/-- SKIP_ARRIVAL (R459). -/
def execSkipArrival (e : Fin 8) (s : State) : Host.Outcome State Fault Refusal :=
  s.run fun c m => m.skipArrival c e

/-- MC_REPLICATE (R460). -/
def execMcReplicate (e : Fin 8) (s : State) : Host.Outcome State Fault Refusal :=
  s.run fun c m => m.mcReplicate c e

/-- DONE_ARRIVAL (R461). -/
def execDoneArrival (i : Fin 8) (s : State) : Host.Outcome State Fault Refusal :=
  s.run fun c m => m.doneArrival c i

/-- PORT_STATE_ARRIVAL (R447). -/
def execPortStateArrival (r : Fin 8) (s : State) : Host.Outcome State Fault Refusal :=
  s.run fun c m => m.portStateArrival c r

/-- VOQ_DROP_DEQUEUE (R465). -/
def execVoqDropDequeue (r : Fin 8) (s : State) : Host.Outcome State Fault Refusal :=
  s.run fun c m => m.voqDrop c r

/-- SCHED_DECISION (R480). -/
def execSchedDecision (b : Fin 1024) (s : State) : Host.Outcome State Fault Refusal :=
  s.run fun c m => m.schedule c b

/-- PCS_FRAME_START (R490). -/
def execPcsFrameStart (b : Fin 1024) (s : State) : Host.Outcome State Fault Refusal :=
  s.run fun c m => m.pcsStart c b

/-- SHAPER_REFILL (R483). -/
def execShaperRefill (b : Fin 1024) (q : Option (Fin 65536)) (s : State) : Host.Outcome State Fault Refusal :=
  s.run fun c m => m.shaperFill c b (q.map fun k => k.val)

/-- EGRESS_DROP_DEQUEUE (R494). -/
def execEgressDropDequeue (b : Fin 1024) (s : State) : Host.Outcome State Fault Refusal :=
  s.run fun c m => m.egressDrop c b

/-- GATE_USE_WRITE (R491). -/
def execGateUseWrite (ses : Fin 64) (b : Fin 1024) (v : Nat) (s : State) : Host.Outcome State Fault Refusal :=
  s.run fun c m => m.guarded c ses O.esGateUse b v fun m => m.gateUse b v

/-- GATE_SWITCH_LAND (R491). -/
def execGateSwitchLand (b : Fin 1024) (s : State) : Host.Outcome State Fault Refusal :=
  s.run fun c m => m.gateLand c b

end Sys2Proof.Machine
end

