-- ==== Sys2Proof/Machine/ExecTime.lean ====
section
/-! DEFINITION. The rows of time, counters and flare (chs. 16, 17). -/

namespace Sys2Proof.Machine

/-- TB_RATE_WRITE (R499). -/
def execTbRateWrite (ses : Fin 64) (v : Nat) (s : State) : Host.Outcome State Fault Refusal :=
  s.run fun c m => m.guarded c ses O.tbRate 0 v fun m => m.tbRate v

/-- TB_ADJUST (R499). -/
def execTbAdjust (ses : Fin 64) (v : Nat) (s : State) : Host.Outcome State Fault Refusal :=
  s.run fun c m => m.guarded c ses O.tbAdjust 0 v fun m => m.tbStep (.adjust (sgn 64 v))

/-- TB_SET (R499). -/
def execTbSet (ses : Fin 64) (v : Nat) (s : State) : Host.Outcome State Fault Refusal :=
  s.run fun c m => m.guarded c ses O.tbSet 0 v fun m => m.tbStep (.set v)

/-- TB_SET_AT_PPS (R499). -/
def execTbSetAtPps (ses : Fin 64) (v : Nat) (s : State) : Host.Outcome State Fault Refusal :=
  s.run fun c m => m.guarded c ses O.tbSetAtPps 0 v fun m => m.tbStep (.setAtPps v)

/-- ANCHOR_LANDING (R499). -/
def execAnchorLanding (s : State) : Host.Outcome State Fault Refusal :=
  s.run fun c m => m.anchorLand c

/-- PPS_IN_EDGE (R502). -/
def execPpsInEdge (rising : Bool) (s : State) : Host.Outcome State Fault Refusal :=
  s.run fun c m => m.ppsEdge c rising

/-- PPS_OUT_EDGE (R503). -/
def execPpsOutEdge (s : State) : Host.Outcome State Fault Refusal :=
  s.run fun _ m => m.ppsOutEdge

/-- PPS_OUT_FALL (R503). -/
def execPpsOutFall (s : State) : Host.Outcome State Fault Refusal :=
  s.run fun _ m => m.ppsOutFall

/-- REF_LOSS (R501). -/
def execRefLoss (s : State) : Host.Outcome State Fault Refusal :=
  s.run fun c m => m.refLoss c

/-- REF_RELOCK (R501). -/
def execRefRelock (s : State) : Host.Outcome State Fault Refusal :=
  s.run fun _ m => m.refRelock

/-- TS_TXQ_NEXT_READ (R511). -/
def execTsTxqNextRead (ses : Fin 64) (s : State) : Host.Outcome State Fault Refusal :=
  s.run fun c m => m.readObj c ses (O.tsTxqNext.key 0)

/-- CNT_STICKY_CLEAR (R517). -/
def execCntStickyClear (ses : Fin 64) (v : Nat) (s : State) : Host.Outcome State Fault Refusal :=
  s.run fun c m => m.guarded c ses O.cntStickyClear 0 v fun m => m.stickyClear v

/-- GEC_SELECT_WRITE (R522). -/
def execGecSelectWrite (ses : Fin 64) (i : Fin 256) (v : Nat) (s : State) : Host.Outcome State Fault Refusal :=
  s.run fun c m => m.guarded c ses O.gecSelect i v fun m => (m.gecSettle c).gecWrite c i v

/-- BW_WINDOW_END (R525). -/
def execBwWindowEnd (b : Fin 1024) (s : State) : Host.Outcome State Fault Refusal :=
  s.run fun _ m => m.bwEnd b

/-- FL_BUFFER_FLUSH_AGE (R526). -/
def execFlBufferFlushAge (b : Fin 16) (s : State) : Host.Outcome State Fault Refusal :=
  s.run fun c m => m.flushAge c b

/-- FL_MESSAGE_SEND (R530). -/
def execFlMessageSend (col die : Fin 4) (s : State) : Host.Outcome State Fault Refusal :=
  s.run fun c m => m.messageSend c col die

/-- FL_TEMPLATE_PERIOD (R530). -/
def execFlTemplatePeriod (col : Fin 4) (s : State) : Host.Outcome State Fault Refusal :=
  s.run fun _ m => m.templatePeriod col

/-- FL_LOSS_SECOND (R532). -/
def execFlLossSecond (s : State) : Host.Outcome State Fault Refusal :=
  s.run fun c m => m.lossSecond c

/-- FL_COL_EN_WRITE (R531). -/
def execFlColEnWrite (ses : Fin 64) (col : Fin 4) (v : Nat) (s : State) : Host.Outcome State Fault Refusal :=
  s.run fun c m => m.guarded c ses O.flColEn col v fun m => m.colEnable c col v

/-- FL_TEMPLATE_WRITE (R527). -/
def execFlTemplateWrite (ses : Fin 64) (t : Fin 16) (mask : Nat) (s : State) : Host.Outcome State Fault Refusal :=
  s.run fun c m => m.templateCmd c ses t mask

end Sys2Proof.Machine
end

