-- ==== Sys2Proof/Machine/Dispatch.lean ====
section
/-! DEFINITION. One arm per command: the meaning it calls. -/

namespace Sys2Proof.Machine

/-- A command's effect on everything but the queue. -/
def exec (i : Instr) (s : State) : Host.Outcome State Fault Refusal :=
  match i with
  | .lanternRailValid straps refclk trngPass imageOk corrupt => Sys2Proof.Machine.execLanternRailValid straps refclk trngPass imageOk corrupt s
  | .lanternRailLoss => Sys2Proof.Machine.execLanternRailLoss s
  | .coreUndervolt d mv => Sys2Proof.Machine.execCoreUndervolt d mv s
  | .railOutOfRange r mv => Sys2Proof.Machine.execRailOutOfRange r mv s
  | .thermalTrip sensor temp => Sys2Proof.Machine.execThermalTrip sensor temp s
  | .dieTempLimit die temp => Sys2Proof.Machine.execDieTempLimit die temp s
  | .paceWindow t eq => Sys2Proof.Machine.execPaceWindow t eq s
  | .avsInterval d mv ma => Sys2Proof.Machine.execAvsInterval d mv ma s
  | .avsFailure d => Sys2Proof.Machine.execAvsFailure d s
  | .paceDeficit d => Sys2Proof.Machine.execPaceDeficit d s
  | .avsLoopEnWrite ses v => Sys2Proof.Machine.execAvsLoopEnWrite ses v s
  | .coreVcoreSetWrite ses d v => Sys2Proof.Machine.execCoreVcoreSetWrite ses d v s
  | .modeReqPilot ses => Sys2Proof.Machine.execModeReqPilot ses s
  | .modeReqTrim ses => Sys2Proof.Machine.execModeReqTrim ses s
  | .modeReqPrimed ses => Sys2Proof.Machine.execModeReqPrimed ses s
  | .modeReqLit ses => Sys2Proof.Machine.execModeReqLit ses s
  | .modeReqLean ses => Sys2Proof.Machine.execModeReqLean ses s
  | .modeReqEbb ses => Sys2Proof.Machine.execModeReqEbb ses s
  | .modeReqBanked ses => Sys2Proof.Machine.execModeReqBanked ses s
  | .modeReqProbe ses => Sys2Proof.Machine.execModeReqProbe ses s
  | .modeReqQuench ses => Sys2Proof.Machine.execModeReqQuench ses s
  | .kindleComplete failed => Sys2Proof.Machine.execKindleComplete failed s
  | .kindleAbort cause => Sys2Proof.Machine.execKindleAbort cause s
  | .leanToLitEntry timeout => Sys2Proof.Machine.execLeanToLitEntry timeout s
  | .ebbDrained => Sys2Proof.Machine.execEbbDrained s
  | .ebbLimitExpiry => Sys2Proof.Machine.execEbbLimitExpiry s
  | .ebbReturn => Sys2Proof.Machine.execEbbReturn s
  | .bankedEntry => Sys2Proof.Machine.execBankedEntry s
  | .bankedExitComplete => Sys2Proof.Machine.execBankedExitComplete s
  | .quenchZeroise => Sys2Proof.Machine.execQuenchZeroise s
  | .quenchComplete => Sys2Proof.Machine.execQuenchComplete s
  | .resetBlock ses tile => Sys2Proof.Machine.execResetBlock ses tile s
  | .resetDie ses die => Sys2Proof.Machine.execResetDie ses die s
  | .resetAssembly ses => Sys2Proof.Machine.execResetAssembly ses s
  | .fnStart ses fn => Sys2Proof.Machine.execFnStart ses fn s
  | .fnStop ses fn => Sys2Proof.Machine.execFnStop ses fn s
  | .fnInitComplete fn => Sys2Proof.Machine.execFnInitComplete fn s
  | .fnStopComplete fn => Sys2Proof.Machine.execFnStopComplete fn s
  | .rlLanding id idx => Sys2Proof.Machine.execRlLanding id idx s
  | .holdAgeExpiry r pkt => Sys2Proof.Machine.execHoldAgeExpiry r pkt s
  | .objectWrite ses id val => Sys2Proof.Machine.execObjectWrite ses id val s
  | .readClear ses id => Sys2Proof.Machine.execReadClear ses id s
  | .mgtFrameRx p f => Sys2Proof.Machine.execMgtFrameRx p f s
  | .mgtSpeedWrite ses p v => Sys2Proof.Machine.execMgtSpeedWrite ses p v s
  | .inbandClelekRx b f => Sys2Proof.Machine.execInbandClelekRx b f s
  | .clelekRead => Sys2Proof.Machine.execClelekRead s
  | .clelekWrite => Sys2Proof.Machine.execClelekWrite s
  | .clelekBatch => Sys2Proof.Machine.execClelekBatch s
  | .batchExecute => Sys2Proof.Machine.execBatchExecute s
  | .windowRead => Sys2Proof.Machine.execWindowRead s
  | .windowWrite => Sys2Proof.Machine.execWindowWrite s
  | .subscribe => Sys2Proof.Machine.execSubscribe s
  | .subscribeCancel => Sys2Proof.Machine.execSubscribeCancel s
  | .attest => Sys2Proof.Machine.execAttest s
  | .attestSigned => Sys2Proof.Machine.execAttestSigned s
  | .importKey => Sys2Proof.Machine.execImportKey s
  | .bundle sigOk => Sys2Proof.Machine.execBundle sigOk s
  | .bundleExecute => Sys2Proof.Machine.execBundleExecute s
  | .clelekBadOp => Sys2Proof.Machine.execClelekBadOp s
  | .messageTimeout ses => Sys2Proof.Machine.execMessageTimeout ses s
  | .sesConfigWrite ses target sub v => Sys2Proof.Machine.execSesConfigWrite ses target sub v s
  | .noteLoss slot => Sys2Proof.Machine.execNoteLoss slot s
  | .injectPort f => Sys2Proof.Machine.execInjectPort f s
  | .injectPipeline f => Sys2Proof.Machine.execInjectPipeline f s
  | .injectDrain => Sys2Proof.Machine.execInjectDrain s
  | .puntSend => Sys2Proof.Machine.execPuntSend s
  | .defectRaise b k => Sys2Proof.Machine.execDefectRaise b k s
  | .defectClear b k => Sys2Proof.Machine.execDefectClear b k s
  | .downHoldExpiry b => Sys2Proof.Machine.execDownHoldExpiry b s
  | .upHoldExpiry b => Sys2Proof.Machine.execUpHoldExpiry b s
  | .anRestart b => Sys2Proof.Machine.execAnRestart b s
  | .bpEnableWrite ses b v => Sys2Proof.Machine.execBpEnableWrite ses b v s
  | .bpHoldWrite ses b up v => Sys2Proof.Machine.execBpHoldWrite ses b up v s
  | .pauseRx b opcode enable quanta => Sys2Proof.Machine.execPauseRx b opcode enable quanta s
  | .pauseExpiry b cls => Sys2Proof.Machine.execPauseExpiry b cls s
  | .xoffRefresh b cls => Sys2Proof.Machine.execXoffRefresh b cls s
  | .pmSecond b f => Sys2Proof.Machine.execPmSecond b f s
  | .flxCalUseWrite ses g v => Sys2Proof.Machine.execFlxCalUseWrite ses g v s
  | .flxCalSwitch g => Sys2Proof.Machine.execFlxCalSwitch g s
  | .flxCalTimeout g => Sys2Proof.Machine.execFlxCalTimeout g s
  | .frameRx b client fcsOk overflow data => Sys2Proof.Machine.execFrameRx b client fcsOk overflow data s
  | .contextAssign r => Sys2Proof.Machine.execContextAssign r s
  | .parseComplete r pkt => Sys2Proof.Machine.execParseComplete r pkt s
  | .graphParseStart r => Sys2Proof.Machine.execGraphParseStart r s
  | .graphParseComplete r => Sys2Proof.Machine.execGraphParseComplete r s
  | .keyEpoch => Sys2Proof.Machine.execKeyEpoch s
  | .passStart r pkt => Sys2Proof.Machine.execPassStart r pkt s
  | .passEnd r pkt => Sys2Proof.Machine.execPassEnd r pkt s
  | .backwaterReentry r pkt => Sys2Proof.Machine.execBackwaterReentry r pkt s
  | .queryReceipt b src => Sys2Proof.Machine.execQueryReceipt b src s
  | .bucketReadDone b e => Sys2Proof.Machine.execBucketReadDone b e s
  | .resultArrival b e => Sys2Proof.Machine.execResultArrival b e s
  | .operationApply b e => Sys2Proof.Machine.execOperationApply b e s
  | .parkArrival b e => Sys2Proof.Machine.execParkArrival b e s
  | .verdictWaitBasin b e => Sys2Proof.Machine.execVerdictWaitBasin b e s
  | .verdictWaitLane r lane => Sys2Proof.Machine.execVerdictWaitLane r lane s
  | .verdictArrival r pkt => Sys2Proof.Machine.execVerdictArrival r pkt s
  | .laneRelease r lane => Sys2Proof.Machine.execLaneRelease r lane s
  | .writeBackAge b slot => Sys2Proof.Machine.execWriteBackAge b slot s
  | .flwReqLookup ses idx => Sys2Proof.Machine.execFlwReqLookup ses idx s
  | .flwReqInsert ses idx => Sys2Proof.Machine.execFlwReqInsert ses idx s
  | .flwReqUpdate ses idx => Sys2Proof.Machine.execFlwReqUpdate ses idx s
  | .flwReqDelete ses idx => Sys2Proof.Machine.execFlwReqDelete ses idx s
  | .flwClear ses => Sys2Proof.Machine.execFlwClear ses s
  | .flwClearDone => Sys2Proof.Machine.execFlwClearDone s
  | .flwSizeWrite ses v => Sys2Proof.Machine.execFlwSizeWrite ses v s
  | .flwGrow ses => Sys2Proof.Machine.execFlwGrow ses s
  | .eventPost b => Sys2Proof.Machine.execEventPost b s
  | .eventDispatch b => Sys2Proof.Machine.execEventDispatch b s
  | .create b ctx => Sys2Proof.Machine.execCreate b ctx s
  | .linkCreate b ctx => Sys2Proof.Machine.execLinkCreate b ctx s
  | .pairNote b ctx => Sys2Proof.Machine.execPairNote b ctx s
  | .pairDelete b ctx => Sys2Proof.Machine.execPairDelete b ctx s
  | .poolAlloc b ctx => Sys2Proof.Machine.execPoolAlloc b ctx s
  | .portRelease b ctx => Sys2Proof.Machine.execPortRelease b ctx s
  | .age b ctx => Sys2Proof.Machine.execAge b ctx s
  | .exportEvent b ctx => Sys2Proof.Machine.execExportEvent b ctx s
  | .sweep b ctx => Sys2Proof.Machine.execSweep b ctx s
  | .split b ctx => Sys2Proof.Machine.execSplit b ctx s
  | .sweepTimer b => Sys2Proof.Machine.execSweepTimer b s
  | .splitTimer b => Sys2Proof.Machine.execSplitTimer b s
  | .poolRecount ses => Sys2Proof.Machine.execPoolRecount ses s
  | .poolRecountDone => Sys2Proof.Machine.execPoolRecountDone s
  | .trcArm ses b => Sys2Proof.Machine.execTrcArm ses b s
  | .hbmRequest q => Sys2Proof.Machine.execHbmRequest q s
  | .hbmReadComplete pc ecc => Sys2Proof.Machine.execHbmReadComplete pc ecc s
  | .hbmWriteComplete pc => Sys2Proof.Machine.execHbmWriteComplete pc s
  | .hbmRefresh pc bank => Sys2Proof.Machine.execHbmRefresh pc bank s
  | .hbmRetrain stk ch ok temp => Sys2Proof.Machine.execHbmRetrain stk ch ok temp s
  | .selfRefreshIdle stk ch => Sys2Proof.Machine.execSelfRefreshIdle stk ch s
  | .selfRefreshExit stk ch => Sys2Proof.Machine.execSelfRefreshExit stk ch s
  | .hbmScrub stk line ecc => Sys2Proof.Machine.execHbmScrub stk line ecc s
  | .hbmMapOrderWrite ses v => Sys2Proof.Machine.execHbmMapOrderWrite ses v s
  | .remapDone => Sys2Proof.Machine.execRemapDone s
  | .cellFree r pool cell owner => Sys2Proof.Machine.execCellFree r pool cell owner s
  | .hbmPoolAlloc b len => Sys2Proof.Machine.execHbmPoolAlloc b len s
  | .hbmStockRefill p => Sys2Proof.Machine.execHbmStockRefill p s
  | .hbmPoolFree b p off => Sys2Proof.Machine.execHbmPoolFree b p off s
  | .hplRebuild ses p => Sys2Proof.Machine.execHplRebuild ses p s
  | .hplRebuildDone p => Sys2Proof.Machine.execHplRebuildDone p s
  | .channelSend ch => Sys2Proof.Machine.execChannelSend ch s
  | .voqRequestArrival e => Sys2Proof.Machine.execVoqRequestArrival e s
  | .grantIssue e => Sys2Proof.Machine.execGrantIssue e s
  | .grantArrival idx => Sys2Proof.Machine.execGrantArrival idx s
  | .creditReturn e => Sys2Proof.Machine.execCreditReturn e s
  | .egressArrival e => Sys2Proof.Machine.execEgressArrival e s
  | .skipArrival e => Sys2Proof.Machine.execSkipArrival e s
  | .mcReplicate e => Sys2Proof.Machine.execMcReplicate e s
  | .doneArrival idx => Sys2Proof.Machine.execDoneArrival idx s
  | .portStateArrival r => Sys2Proof.Machine.execPortStateArrival r s
  | .voqDropDequeue r => Sys2Proof.Machine.execVoqDropDequeue r s
  | .schedDecision b => Sys2Proof.Machine.execSchedDecision b s
  | .pcsFrameStart b => Sys2Proof.Machine.execPcsFrameStart b s
  | .shaperRefill b q => Sys2Proof.Machine.execShaperRefill b q s
  | .egressDropDequeue b => Sys2Proof.Machine.execEgressDropDequeue b s
  | .gateUseWrite ses b v => Sys2Proof.Machine.execGateUseWrite ses b v s
  | .gateSwitchLand b => Sys2Proof.Machine.execGateSwitchLand b s
  | .tbRateWrite ses v => Sys2Proof.Machine.execTbRateWrite ses v s
  | .tbAdjust ses v => Sys2Proof.Machine.execTbAdjust ses v s
  | .tbSet ses v => Sys2Proof.Machine.execTbSet ses v s
  | .tbSetAtPps ses v => Sys2Proof.Machine.execTbSetAtPps ses v s
  | .anchorLanding => Sys2Proof.Machine.execAnchorLanding s
  | .ppsInEdge rising => Sys2Proof.Machine.execPpsInEdge rising s
  | .ppsOutEdge => Sys2Proof.Machine.execPpsOutEdge s
  | .refLoss => Sys2Proof.Machine.execRefLoss s
  | .refRelock => Sys2Proof.Machine.execRefRelock s
  | .tsTxqNextRead ses => Sys2Proof.Machine.execTsTxqNextRead ses s
  | .cntStickyClear ses v => Sys2Proof.Machine.execCntStickyClear ses v s
  | .gecSelectWrite ses idx v => Sys2Proof.Machine.execGecSelectWrite ses idx v s
  | .bwWindowEnd b => Sys2Proof.Machine.execBwWindowEnd b s
  | .flBufferFlushAge b => Sys2Proof.Machine.execFlBufferFlushAge b s
  | .flMessageSend col die => Sys2Proof.Machine.execFlMessageSend col die s
  | .flTemplatePeriod col => Sys2Proof.Machine.execFlTemplatePeriod col s
  | .flLossSecond => Sys2Proof.Machine.execFlLossSecond s
  | .flColEnWrite ses col v => Sys2Proof.Machine.execFlColEnWrite ses col v s
  | .flTemplateWrite ses t mask => Sys2Proof.Machine.execFlTemplateWrite ses t mask s
  | .lcShip ses => Sys2Proof.Machine.execLcShip ses s
  | .ownerClaim ses arg => Sys2Proof.Machine.execOwnerClaim ses arg s
  | .ownerTransfer ses arg => Sys2Proof.Machine.execOwnerTransfer ses arg s
  | .ownerReturn ses arg => Sys2Proof.Machine.execOwnerReturn ses arg s
  | .slotErase ses slot => Sys2Proof.Machine.execSlotErase ses slot s
  | .trngHealthFail => Sys2Proof.Machine.execTrngHealthFail s
  | .trngRetest ses pass => Sys2Proof.Machine.execTrngRetest ses pass s
  | .cipherSeal ses idx => Sys2Proof.Machine.execCipherSeal ses idx s
  | .cipherOpen ses idx => Sys2Proof.Machine.execCipherOpen ses idx s
  | .cipherMac ses idx => Sys2Proof.Machine.execCipherMac ses idx s
  | .cipherVerify ses idx => Sys2Proof.Machine.execCipherVerify ses idx s
  | .tapInstructionLoad op keyIsland => Sys2Proof.Machine.execTapInstructionLoad op keyIsland s
  | .wickApply ses sigOk => Sys2Proof.Machine.execWickApply ses sigOk s
  | .wickRevoke ses => Sys2Proof.Machine.execWickRevoke ses s
  | .wickExpiry => Sys2Proof.Machine.execWickExpiry s
  | .dbgLevelReq ses v => Sys2Proof.Machine.execDbgLevelReq ses v s
  | .dbgOwnerConsentWrite ses v => Sys2Proof.Machine.execDbgOwnerConsentWrite ses v s
  | .dbgObserveEnWrite ses v => Sys2Proof.Machine.execDbgObserveEnWrite ses v s
  | .faultDetect f => Sys2Proof.Machine.execFaultDetect f s
  | .snufferDecide => Sys2Proof.Machine.execSnufferDecide s
  | .blockRestartComplete tile => Sys2Proof.Machine.execBlockRestartComplete tile s
  | .containmentEnd tile => Sys2Proof.Machine.execContainmentEnd tile s
  | .fltRestore ses arg => Sys2Proof.Machine.execFltRestore ses arg s
  | .handbackComplete b => Sys2Proof.Machine.execHandbackComplete b s
  | .stackRebuildComplete stk => Sys2Proof.Machine.execStackRebuildComplete stk s
  | .fltAckOverflow ses => Sys2Proof.Machine.execFltAckOverflow ses s
  | .fltAckPin ses => Sys2Proof.Machine.execFltAckPin ses s
  | .snufferHeartbeatLoss => Sys2Proof.Machine.execSnufferHeartbeatLoss s
  | .trimWorkWrite ses view idx val => Sys2Proof.Machine.execTrimWorkWrite ses view idx val s
  | .trimMeasure ses arg => Sys2Proof.Machine.execTrimMeasure ses arg s
  | .trimMeasureDone => Sys2Proof.Machine.execTrimMeasureDone s
  | .trimCommit ses => Sys2Proof.Machine.execTrimCommit ses s
  | .trimCommitDone => Sys2Proof.Machine.execTrimCommitDone s
  | .adtiebCommit => Sys2Proof.Machine.execAdtiebCommit s
  | .adtiebSecond temps => Sys2Proof.Machine.execAdtiebSecond temps s
  | .mgtLinkChange p up => Sys2Proof.Machine.execMgtLinkChange p up s
  | .ijtagAccess op => Sys2Proof.Machine.execIjtagAccess op s
  | .ppsOutFall => Sys2Proof.Machine.execPpsOutFall s

end Sys2Proof.Machine
end

