-- ==== Sys2Proof/Safety.lean ====
section
/-! DEFINITION. The terms that statements about the block use: when it carries out commands, what it means that a command completes, and
what a command leaves as it was. -/

namespace Sys2Proof.Machine

/-- The Lantern rail is up. The Lantern die's own commands complete in such a state (R23, R74). -/
abbrev State.Powered (s : State) : Prop := s.mc.mode ≠ .dark

/-- The Lantern rail is up and the snuffer runs: every command completes in such a state (R74, R604). -/
abbrev State.Live (s : State) : Prop := s.mc.mode ≠ .dark ∧ s.m.flt.dead = false

/-- The command completes with a next state: its queue stands as before, and its mode and machine are the state's mode and `m'` with what follows every
command (`finish`); `P` says what holds of `m'`. -/
def Completes (i : Instr) (s : State) (P : Mach → Prop) : Prop :=
  ∃ m', exec i s = .next { s with mc := (finish (s.mc, m')).1, m := (finish (s.mc, m')).2 } ∧ P m'

/-- The command, one of those that can move the mode, completes with a next state: mode `c'` and machine `m'` with what follows such a command. -/
def Moves (i : Instr) (s : State) (P : ModeCtl → Mach → Prop) : Prop :=
  ∃ c' m', exec i s = .next { s with mc := (settled (c', m')).1, m := (settled (c', m')).2 } ∧ P c' m'

/-- The session exists and its write of `v` to an object passes checks 7 to 15 of Table 5.6. -/
abbrev State.Admits (s : State) (ses : Nat) (o : ObjDef) (i v : Nat) : Prop :=
  s.m.sesOn ses = true ∧ v < 2 ^ (8 * o.len) ∧ s.m.writeCheck s.mc (s.m.reqOf ses) o i (octets o.len v) = none

/-- `n` agrees with `m` on the data plane, the functions, the values that wait, the transition state and the lifecycle, and on every object
outside the areas named. -/
structure Leaves (areas : List Nat) (m n : Mach) : Prop where
  dp : n.dp = m.dp
  fns : n.com.fns = m.com.fns
  pend : n.com.pend = m.com.pend
  trn : n.trn = m.trn
  life : n.sec.life = m.sec.life
  objs : ∀ (o : ObjDef) (i : Nat), o.area ∉ areas → o.sub < 256 → o.item + i < 65536 → n.rd o i = m.rd o i

/-- A setpoint brought into a loop's range, with the floor that an excluded tile of the die puts under it (R54, R60). -/
def inRange (set vmin vmax floor : Nat) : Nat := min (max (max set vmin) floor) vmax

/-- Every object outside the areas named reads as before. -/
def ObjsBut (areas : List Nat) (m n : Mach) : Prop :=
  ∀ (o : ObjDef) (i : Nat), o.area ∉ areas → o.sub < 256 → o.item + i < 65536 → n.rd o i = m.rd o i

/-- The packet is gone and one more is counted under its reason, against its ingress port and class (R218, R520). -/
def Drops (c : ModeCtl) (p : Nat) (x : Pkt) (code : Nat) (n : Mach) : Prop :=
  ∃ z : Mach, z.pkt p = none ∧ n = z.rsn c code x.bport x.w.tc

/-- A frame in the context of its program: tenant and route domain are those of the moment (R244), the cell its own (R424). -/
def Pkt.inContext (x : Pkt) (m : Mach) (k : Nat) (cell : Nat × Nat) : Pkt :=
  { x with
    binding := k, cell := some cell, prog := k, stage := if k = 31 then .graph else .ctx, tenant := m.rd O.lifTenant x.lif
    domain := m.ent O.tenDomain 0 (m.rd O.lifTenant x.lif) % 4096, released := false, inCtx := decide (k ≠ 31) }

/-- A packet parsed, with its place in the ordering lane, before its flow query is decided. -/
def Mach.laned (m : Mach) (x : Pkt) (s : ParseSt) : Pkt :=
  { m.parsed x s with pdelay := m.pdelayPunt (m.parsed x s), stage := .parsed, released := false }

/-- The areas that raising something writes: logs, subscriptions and device counters (20), debug (A8), faults (B0), lifetime (B8). -/
def raiseAreas : List Nat := [0x20, 0xA8, 0xB0, 0xB8]

/-- A fault of a class at a tile, with its DETAIL and its class's initial level (Table 20.1), has entered the snuffer's queue behind those that
waited (R584); where 255 wait it has not, and the queue holds an OVERFLOW record, latched if it is new (R588). -/
def AppendsFault (m n : Mach) (tile cls detail : Nat) : Prop :=
  (m.flt.queue.length < 255 →
    ∃ r : FltRec, n.flt.queue = m.flt.queue ++ [r] ∧ r.tile = tile ∧ r.cls = cls ∧ r.detail = detail ∧ r.init = clsLevel cls ∧ r.overflow = false) ∧
  (255 ≤ m.flt.queue.length →
    n.flt.queue.any (·.overflow) = true ∧ (m.flt.queue.any (·.overflow) = false → n.rd O.fltOverflowLatch = 1))

/-- What the row of a Clelek frame is: its OP, 40 and 41 a window read and write, 50 and 51 a subscribe and a cancel, 0 an OP that is refused. -/
def engineRow : Instr → Option Nat
  | .clelekRead => some 1
  | .clelekWrite => some 2
  | .clelekBatch => some 3
  | .windowRead => some 40
  | .windowWrite => some 41
  | .subscribe => some 50
  | .subscribeCancel => some 51
  | .attest => some 7
  | .importKey => some 8
  | .bundle _ => some 9
  | .clelekBadOp => some 0
  | _ => none

/-- The machine a frame's row starts from: a read sees the general counters brought up to now (R523). -/
def State.engineStart (s : State) (row : Nat) : Mach := if row = 1 ∨ row = 40 then s.m.gecSettle s.mc else s.m

/-- A frame of a row stands at the head of the engine's queue. -/
structure Heads (m : Mach) (row : Nat) (f : ClFrame) (rest : List ClFrame) : Prop where
  queue : m.clk.engineQ = f :: rest
  row : m.rowOf f = row

/-- The frame at the head passes checks 1 to 3 of Table 5.6. -/
structure Sound (m : Mach) (row : Nat) (f : ClFrame) (rest : List ClFrame) : Prop extends Heads m row f rest where
  form : m.frameOk f = true
  keyed : m.sesKeyed f.session = true
  tag : m.opens f.session (seqIv 0 f.session f.seq) f.tag = true

/-- The machine once its frame has passed check 3: served, and its larger sequence taken (R157). -/
def Mach.heard (m : Mach) (f : ClFrame) (rest : List ClFrame) : Mach :=
  let n := ({ m with clk.engineQ := rest }).bump O.clkServed
  if m.rd O.sesSeqHigh f.session < f.seq then n.seqTake f.session f.seq else n

/-- The frame at the head passes checks 1 to 6, its session having no message open. -/
structure Accepted (c : ModeCtl) (m : Mach) (row : Nat) (f : ClFrame) (rest : List ClFrame) : Prop extends Sound m row f rest where
  accepts : (m.heard f rest).sesAccepts f.session f.path f.src (bit f.flags 1) = true
  fresh : m.rd O.sesSeqHigh f.session < f.seq
  alone : m.msg f.session = none
  check6 : (m.heard f rest).check6 c f = none

/-- The machine that an accepted frame acts on: SES-LAST is the time of its session's latest accepted request. -/
def Mach.taken (m : Mach) (f : ClFrame) (rest : List ClFrame) : Mach := (m.heard f rest).wr O.sesLast f.session m.now

/-- Whether a message is a result for the packet that entry e of basin b serves, or one that no entry serves (R297). -/
def Mach.resultFor (m : Mach) (b e : Nat) : Msg → Bool
  | .result b' p _ =>
    decide (m.server b' = b) &&
      ((match m.ift b e with | some x => decide (x.op = .packet p) | none => false) ||
        !(((m.ifts b).any fun y => decide (y.2.op = .packet p)) || (m.basin b).inPkt.any fun w => decide (w.op = .packet p)))
  | _ => false

/-- Whether a message is a PARK for the packet that entry e of basin b serves, or one that no entry serves (R340). -/
def Mach.parkFor (m : Mach) (b e : Nat) : Msg → Bool
  | .park b' p =>
    decide (m.server b' = b) &&
      ((match m.ift b e with | some x => decide (x.op = .packet p) | none => false) || !(m.ifts b).any fun y => decide (y.2.op = .packet p))
  | _ => false

/-- Whether a message is a query for a share that basin b serves (R334). -/
def Mach.queryFor (m : Mach) (b : Nat) : Msg → Bool
  | .query b' _ _ => decide (m.server b' = b)
  | _ => false

/-- Whether a message is an event for the sluice of basin b (R360). -/
def eventFor (b : Nat) : Msg → Bool
  | .event t _ => decide (t = b)
  | _ => false

/-- The row of a host request on flow records, by its OP (R323). -/
def flowReqRow (ses : Fin 64) (j : Fin 256) : Nat → Option Instr
  | 1 => some (.flwReqLookup ses j)
  | 2 => some (.flwReqInsert ses j)
  | 3 => some (.flwReqUpdate ses j)
  | 4 => some (.flwReqDelete ses j)
  | _ => none

/-- Entry j of a session's requests holds an operation on a key that basin b serves and may begin: nothing operates on the key, an in-flight entry
e is free, and the basin serves host operations (R322, R324). -/
structure Asked (s : State) (ses j op key b e : Nat) : Prop where
  opIs : fld 192 (s.m.reqEnt ses j) 0 1 = op
  noResult : fld 192 (s.m.reqEnt ses j) 1 1 = 0
  notBegun : s.m.reqBusy ses j = false
  inMode : recRefused s.mc O.flwReq = false
  keyIs : key = fld 192 (s.m.reqEnt ses j) 16 48
  servedBy : b = s.m.server (s.m.shareOf key)
  serves : s.m.hostServes b key = true
  noneWait : (s.m.basin b).inOther = []
  entry : s.m.freeEntry b false = some e
  alone : ∀ p ∈ s.m.ifts b, p.2.key ≠ key

/-- The record that an INSERT places: its VALID bit set, version 1 and the time of its creation (Table 9.15). -/
def Mach.insertRec (m : Mach) (src : Nat) : Nat :=
  rset (rset (rset (rsetBits (rsetBits src 48 7 7 1) 48 5 5 0) 52 2 1) 56 4 m.flwClockSec) 60 4 m.flwClockMs

/-- What a request on flow records has become once it is applied to the record that way k holds (Table 9.15): the request entry has its result, and the
way its record. -/
structure RecordAnswered (m n : Mach) (ses j op src k : Nat) (w : Way) : Prop where
  lookup : op = 1 → n.reqEnt ses j = (m.reqDone ses j 1 (some w.slot) (some w.rec_)).reqEnt ses j
  insert : op = 2 → rPaired src = false → rLink src = false → rKey src = fld 192 (m.reqEnt ses j) 16 48 →
    n.reqEnt ses j = (m.reqDone ses j 3 (some w.slot) none).reqEnt ses j
  refused : op = 2 → rPaired src = true ∨ rLink src = true ∨ rKey src ≠ fld 192 (m.reqEnt ses j) 16 48 →
    n.reqEnt ses j = (m.reqDone ses j 6 none none).reqEnt ses j
  paired : op = 3 → bit (fld 192 (m.reqEnt ses j) 2 2) 5 = true → rPaired w.rec_ = true →
    n.reqEnt ses j = (m.reqDone ses j 6 none none).reqEnt ses j
  stale : op = 3 → ¬ (bit (fld 192 (m.reqEnt ses j) 2 2) 5 = true ∧ rPaired w.rec_ = true) → fld 192 (m.reqEnt ses j) 4 2 ≠ 0 →
    fld 192 (m.reqEnt ses j) 4 2 ≠ rf w.rec_ 52 2 → n.reqEnt ses j = (m.reqDone ses j 5 none none).reqEnt ses j
  update : op = 3 → ¬ (bit (fld 192 (m.reqEnt ses j) 2 2) 5 = true ∧ rPaired w.rec_ = true) →
    fld 192 (m.reqEnt ses j) 4 2 = 0 ∨ fld 192 (m.reqEnt ses j) 4 2 = rf w.rec_ 52 2 →
    ∃ y u, u = updateRec w.rec_ src (fld 192 (m.reqEnt ses j) 2 2) ∧ n.way k = some y ∧ y.slot = w.slot ∧ y.dirty = true ∧
      y.rec_ = (if sansFree u = sansFree w.rec_ then u else rBumpVersion u) ∧
      n.reqEnt ses j = (m.reqDone ses j 1 (some w.slot) (some y.rec_)).reqEnt ses j
  delete : op = 4 →
    (∃ y, n.way k = some y ∧ y.slot = w.slot ∧ y.dirty = true ∧ y.rec_ = 0) ∧
      n.reqEnt ses j = (m.reqDone ses j 1 (some w.slot) (some w.rec_)).reqEnt ses j

/-- The rows that the Lantern die serves by itself: management, Clelek, security services, the Adtieb record and its own rail (R23, R604). -/
def lanternRow : Instr → Bool
  | .lanternRailValid .. | .lanternRailLoss | .objectWrite .. | .readClear .. | .mgtFrameRx .. | .mgtSpeedWrite .. | .inbandClelekRx .. => true
  | .clelekRead | .clelekWrite | .clelekBatch | .batchExecute | .windowRead | .windowWrite | .subscribe | .subscribeCancel => true
  | .attest | .attestSigned | .importKey | .bundle _ | .bundleExecute | .clelekBadOp | .messageTimeout _ | .sesConfigWrite .. => true
  | .noteLoss _ | .mgtLinkChange .. | .adtiebCommit | .adtiebSecond _ | .lcShip _ | .ownerClaim .. | .ownerTransfer .. => true
  | .ownerReturn .. | .slotErase .. | .trngHealthFail | .trngRetest .. | .cipherSeal .. | .cipherOpen .. | .cipherMac .. => true
  | .cipherVerify .. => true
  | _ => false

/-- The row of a cipher request by its OP (Table 18.8). -/
def cipherRow (ses : Fin 64) (i : Fin 16) : Nat → Option Instr
  | 1 => some (.cipherSeal ses i)
  | 2 => some (.cipherOpen ses i)
  | 3 => some (.cipherMac ses i)
  | 4 => some (.cipherVerify ses i)
  | _ => none

/-- The row that requests a mode (R69). -/
def modeReqRow (ses : Fin 64) : Mode → Option Instr
  | .pilot => some (.modeReqPilot ses)
  | .trim => some (.modeReqTrim ses)
  | .primed => some (.modeReqPrimed ses)
  | .lit => some (.modeReqLit ses)
  | .lean => some (.modeReqLean ses)
  | .ebb => some (.modeReqEbb ses)
  | .banked => some (.modeReqBanked ses)
  | .probe => some (.modeReqProbe ses)
  | .quench => some (.modeReqQuench ses)
  | _ => none

/-- The machine in which a mode request has been accepted: MODE-REQ holds it, and its time is kept. -/
def Mach.asked (m : Mach) (r : Mode) : Mach := { m.wr O.modeReq 0 r.code with trn.acceptAt := m.ns }

/-- Whether an accepted request waits for functions to stop (R91, R124): one that a batch is to start, or, but for EBB, one whose admitted work is not
complete. -/
def Mach.mustWait (m : Mach) (c : ModeCtl) (goal : Mode) : Bool :=
  match goal with
  | .ebb | .banked => m.liveFns.any fun f => isBinding f && m.heldStill f
  | _ =>
    let l := m.goalStops goal
    !(l.all (l.foldl (fun m f => m.stopStep { c with target := goal, trans := some (.stops goal) } f) m).stopDone)

/-- The session's write of a mode's code to MODE-REQ passes checks 7 to 11 of Table 5.6. -/
abbrev State.AsksMode (s : State) (ses : Nat) (r : Mode) : Prop :=
  s.m.sesOn ses = true ∧ s.m.writeCheck s.mc (s.m.reqOf ses) O.modeReq 0 [BitVec.ofNat 8 r.code] = none

/-- The mode, its target, MODE-RETURN and the transition in progress agree (R67, R71 to R73, R77). -/
def ModeCtl.Sound (c : ModeCtl) : Prop :=
  (c.ret = .lit ∨ c.ret = .lean) ∧
  match c.trans with
  | none => c.target = c.mode ∧ c.mode ≠ .kindle ∧ c.mode ≠ .quench
  | some (.kindle g) => c.mode = .kindle ∧ c.target = g ∧ (g = .trim ∨ g = .primed)
  | some .assembly => c.mode = .kindle ∧ c.target = .primed
  | some .toLit => c.mode = .lean ∧ c.target = .lit
  | some .drain => c.mode = .ebb ∧ c.target = .banked
  | some (.ebbReturn g) => c.mode = .ebb ∧ c.target = g ∧ (g = .lit ∨ g = .lean)
  | some (.bankedExit g) => c.mode = .banked ∧ c.target = g ∧ (g = .lit ∨ g = .lean)
  | some (.stops g) =>
    c.target = g ∧ ((c.mode = .primed ∧ (g = .pilot ∨ g = .probe)) ∨ (c.mode = .ebb ∧ g = .primed) ∨ (c.mode = .banked ∧ g = .pilot) ∨
      (c.mode.forwards = true ∧ (g = .ebb ∨ g = .banked)) ∨ (fnsRun c.mode = true ∧ g = .quench))
  | some (.quench _) => c.mode = .quench ∧ c.target = .quench

end Sys2Proof.Machine
end

