-- ==== Sys2Proof/WellFormed.lean ====
section
/-! DEFINITION. Well-formed commands: every operand fits the field or the range that the spec gives it. The machine judges ill-formed operands
itself; well-formedness says which commands the block's surroundings can send. -/

namespace Sys2Proof

/-- A number of n bits. -/
def fits (n v : Nat) : Bool := decide (v < 2 ^ n)

/-- A signed reading of n bits. -/
def sfits (n : Nat) (v : Int) : Bool := decide (-(2 ^ (n - 1)) ≤ v) && decide (v < 2 ^ (n - 1))

/-- A Clelek frame's fields fit Table 5.2; its path is one of three, its source an IPv6 address and a UDP port. -/
def ClFrame.wf (f : ClFrame) : Bool :=
  decide (f.path < 3) && fits 128 f.src && fits 16 f.sport && fits 16 f.len && fits 8 f.version && fits 8 f.op && fits 8 f.session && fits 8 f.flags &&
    fits 64 f.seq && fits 16 f.recCount && fits 8 f.status && fits 16 f.bodyLen && fits 24 f.rsvd && fits 96 f.nonce

/-- A UDP destination's fields fit. -/
def UdpTo.wf (t : UdpTo) : Bool := fits (if t.v6 then 128 else 32) t.dst && fits 16 t.port

/-- A management-port frame's addresses fit (R144). -/
def MgtBody.wf (b : MgtBody) : Bool :=
  match b with
  | .arp a => fits 32 a
  | .neighbour a => fits 128 a
  | .echo4 a _ => fits 32 a
  | .echo6 a _ => fits 128 a
  | .clelek addr f => addr.wf && f.wf
  | .other => true

/-- A management-port frame. -/
def MgtFrame.wf (f : MgtFrame) : Bool := fits 48 f.dmac && fits 48 f.smac && f.body.wf

/-- A host-path frame's fields fit Table 5.11; host-path frames use the two management ports. -/
def InjFrame.wf (f : InjFrame) : Bool :=
  decide (f.path < 2) && fits 48 f.dmac && f.addr.wf && fits 128 f.src && fits 8 f.version && fits 8 f.kind && fits 16 f.lif && fits 8 f.tc &&
    fits 8 f.reason && fits 16 f.tenant && fits 64 f.seq && fits 32 f.ruleRef && fits 96 f.ts

/-- A fault's fields fit Table 20.7, and its tiles are tiles of the device or 0xFFFF. -/
def FaultRep.wf (f : FaultRep) : Bool :=
  (decide (f.tile < 442) || decide (f.tile = 0xFFFF)) && decide (f.cls < 16) && fits 16 f.detail && fits 64 f.arg &&
    (match f.against with | some t => decide (t < 442) | none => true)

/-- An HBM request names a stack, a requester, and 1 to 8 lines of the stack in one 512-octet aligned block (R389, Table 12.3). -/
def HbmReq.wf (q : HbmReq) : Bool :=
  decide (q.stack < 8) && decide (q.requester < 6) && fits 28 q.line && decide (1 ≤ q.lines) && decide (q.line % 8 + q.lines ≤ 8)

/-- An IEEE 1687 access names a tile, and a margin code of 6 bits. -/
def IjtagOp.wf (o : IjtagOp) : Bool :=
  match o with
  | .read t => decide (t < 442)
  | .margin t k => decide (t < 442) && fits 6 k
  | .bist t => decide (t < 442)
  | .inject f => f.wf

/-- Whether a command is well formed: operands that no Fin bounds fit their fields. -/
def Instr.wf (i : Instr) : Bool :=
  match i with
  | .coreUndervolt _ mv => fits 16 mv
  | .railOutOfRange _ mv => fits 16 mv
  | .thermalTrip _ t => sfits 16 t
  | .dieTempLimit _ t => sfits 16 t
  | .paceWindow _ eq => fits 16 eq
  | .avsInterval _ mv ma => fits 16 mv && fits 32 ma
  | .avsLoopEnWrite _ v => fits 8 v
  | .coreVcoreSetWrite _ _ v => fits 16 v
  | .resetBlock _ t => fits 16 t
  | .resetDie _ d => fits 8 d
  | .rlLanding _ k => fits 32 k
  | .mgtFrameRx _ f => f.wf
  | .mgtSpeedWrite _ _ v => fits 8 v
  | .inbandClelekRx _ f => f.wf
  | .sesConfigWrite _ _ sub v => fits 8 sub && fits 128 v
  | .injectPort f => f.wf
  | .injectPipeline f => f.wf
  | .bpEnableWrite _ _ v => fits 8 v
  | .bpHoldWrite _ _ _ v => fits 32 v
  | .pauseRx _ op en q => fits 16 op && fits 16 en && decide (q.length = 8) && q.all (fits 16)
  | .pmSecond _ f => fits 64 f.corrCw && fits 64 f.uncorrCw && fits 64 f.corrSym && fits 64 f.fcsErr
  | .flxCalUseWrite _ _ v => fits 8 v
  | .frameRx _ client _ _ _ => decide (client < 80)
  | .queryReceipt _ src => decide (src < 8)
  | .flwSizeWrite _ v => fits 8 v
  | .hbmRequest q => q.wf
  | .hbmRefresh _ bank => decide (bank < 16)
  | .hbmRetrain _ _ _ t => sfits 16 t
  | .hbmScrub _ l _ => fits 29 l
  | .hbmMapOrderWrite _ v => fits 8 v
  | .cellFree _ _ _ o => decide (o < 64)
  | .hbmPoolAlloc _ len => decide (0 < len) && decide (len ≤ 8192)
  | .hplRebuild _ p => fits 8 p
  | .gateUseWrite _ _ v => fits 8 v
  | .tbRateWrite _ v => fits 64 v
  | .tbAdjust _ v => fits 64 v
  | .tbSet _ v => fits 96 v
  | .tbSetAtPps _ v => fits 96 v
  | .cntStickyClear _ v => fits 8 v
  | .gecSelectWrite _ _ v => fits 64 v
  | .flColEnWrite _ _ v => fits 8 v
  | .flTemplateWrite _ _ mask => fits 32 mask
  | .ownerClaim _ a => fits 64 a
  | .ownerTransfer _ a => fits 64 a
  | .ownerReturn _ a => fits 64 a
  | .dbgLevelReq _ v => fits 16 v
  | .dbgOwnerConsentWrite _ v => fits 8 v
  | .dbgObserveEnWrite _ v => fits 8 v
  | .faultDetect f => f.wf
  | .fltRestore _ a => fits 16 a
  | .trimMeasure _ a => fits 16 a
  | .adtiebSecond ts => ts.all fun t => match t with | some x => sfits 16 x | none => true
  | .ijtagAccess op => op.wf
  | .lanternRailValid _ _ _ _ _ => true
  | .lanternRailLoss => true
  | .avsFailure _ => true
  | .paceDeficit _ => true
  | .modeReqPilot _ => true
  | .modeReqTrim _ => true
  | .modeReqPrimed _ => true
  | .modeReqLit _ => true
  | .modeReqLean _ => true
  | .modeReqEbb _ => true
  | .modeReqBanked _ => true
  | .modeReqProbe _ => true
  | .modeReqQuench _ => true
  | .kindleComplete _ => true
  | .kindleAbort _ => true
  | .leanToLitEntry _ => true
  | .ebbDrained => true
  | .ebbLimitExpiry => true
  | .ebbReturn => true
  | .bankedEntry => true
  | .bankedExitComplete => true
  | .quenchZeroise => true
  | .quenchComplete => true
  | .resetAssembly _ => true
  | .fnStart _ _ => true
  | .fnStop _ _ => true
  | .fnInitComplete _ => true
  | .fnStopComplete _ => true
  | .holdAgeExpiry _ _ => true
  | .objectWrite _ _ _ => true
  | .readClear _ _ => true
  | .clelekRead => true
  | .clelekWrite => true
  | .clelekBatch => true
  | .batchExecute => true
  | .windowRead => true
  | .windowWrite => true
  | .subscribe => true
  | .subscribeCancel => true
  | .attest => true
  | .attestSigned => true
  | .importKey => true
  | .bundle _ => true
  | .bundleExecute => true
  | .clelekBadOp => true
  | .messageTimeout _ => true
  | .noteLoss _ => true
  | .injectDrain => true
  | .puntSend => true
  | .defectRaise _ _ => true
  | .defectClear _ _ => true
  | .downHoldExpiry _ => true
  | .upHoldExpiry _ => true
  | .anRestart _ => true
  | .pauseExpiry _ _ => true
  | .xoffRefresh _ _ => true
  | .flxCalSwitch _ => true
  | .flxCalTimeout _ => true
  | .contextAssign _ => true
  | .parseComplete _ _ => true
  | .graphParseStart _ => true
  | .graphParseComplete _ => true
  | .keyEpoch => true
  | .passStart _ _ => true
  | .passEnd _ _ => true
  | .backwaterReentry _ _ => true
  | .bucketReadDone _ _ => true
  | .resultArrival _ _ => true
  | .operationApply _ _ => true
  | .parkArrival _ _ => true
  | .verdictWaitBasin _ _ => true
  | .verdictWaitLane _ _ => true
  | .verdictArrival _ _ => true
  | .laneRelease _ _ => true
  | .writeBackAge _ _ => true
  | .flwReqLookup _ _ => true
  | .flwReqInsert _ _ => true
  | .flwReqUpdate _ _ => true
  | .flwReqDelete _ _ => true
  | .flwClear _ => true
  | .flwClearDone => true
  | .flwGrow _ => true
  | .eventPost _ => true
  | .eventDispatch _ => true
  | .create _ _ => true
  | .linkCreate _ _ => true
  | .pairNote _ _ => true
  | .pairDelete _ _ => true
  | .poolAlloc _ _ => true
  | .portRelease _ _ => true
  | .age _ _ => true
  | .exportEvent _ _ => true
  | .sweep _ _ => true
  | .split _ _ => true
  | .sweepTimer _ => true
  | .splitTimer _ => true
  | .poolRecount _ => true
  | .poolRecountDone => true
  | .trcArm _ _ => true
  | .hbmReadComplete _ _ => true
  | .hbmWriteComplete _ => true
  | .selfRefreshIdle _ _ => true
  | .selfRefreshExit _ _ => true
  | .remapDone => true
  | .hbmStockRefill _ => true
  | .hbmPoolFree _ _ _ => true
  | .hplRebuildDone _ => true
  | .channelSend _ => true
  | .voqRequestArrival _ => true
  | .grantIssue _ => true
  | .grantArrival _ => true
  | .creditReturn _ => true
  | .egressArrival _ => true
  | .skipArrival _ => true
  | .mcReplicate _ => true
  | .doneArrival _ => true
  | .portStateArrival _ => true
  | .voqDropDequeue _ => true
  | .schedDecision _ => true
  | .pcsFrameStart _ => true
  | .shaperRefill _ _ => true
  | .egressDropDequeue _ => true
  | .gateSwitchLand _ => true
  | .anchorLanding => true
  | .ppsInEdge _ => true
  | .ppsOutEdge => true
  | .refLoss => true
  | .refRelock => true
  | .tsTxqNextRead _ => true
  | .bwWindowEnd _ => true
  | .flBufferFlushAge _ => true
  | .flMessageSend _ _ => true
  | .flTemplatePeriod _ => true
  | .flLossSecond => true
  | .lcShip _ => true
  | .slotErase _ _ => true
  | .trngHealthFail => true
  | .trngRetest _ _ => true
  | .cipherSeal _ _ => true
  | .cipherOpen _ _ => true
  | .cipherMac _ _ => true
  | .cipherVerify _ _ => true
  | .tapInstructionLoad _ _ => true
  | .wickApply _ _ => true
  | .wickRevoke _ => true
  | .wickExpiry => true
  | .snufferDecide => true
  | .blockRestartComplete _ => true
  | .containmentEnd _ => true
  | .handbackComplete _ => true
  | .stackRebuildComplete _ => true
  | .fltAckOverflow _ => true
  | .fltAckPin _ => true
  | .snufferHeartbeatLoss => true
  | .trimWorkWrite _ _ _ _ => true
  | .trimMeasureDone => true
  | .trimCommit _ => true
  | .trimCommitDone => true
  | .adtiebCommit => true
  | .mgtLinkChange _ _ => true
  | .ppsOutFall => true

end Sys2Proof
end

