-- ==== Sys2Proof/Certificates/Slice0/Obligations.lean ====
section
/-! DEFINITION. The statements for the provers. -/

open Sys2Proof Sys2Proof.Machine

/-! Power, pace and temperature (chs. 02 and 22). -/

/-- R57, and R80 in BANKED: a core rail below 600 mV (500 mV in BANKED) removes the die as a die fault of class UNDERVOLT; a higher one does nothing,
nor does one of a die whose rail is off or that is out of service. R633, R641: a sample outside a rail's range is counted once per departure and reads OUT-OF-RANGE; a shore or HBM rail
with its enable high trips the device 10 µs on, a core rail above 0.85 V at once (log entry 145): THERMTRIP_N and every enable fall. A sample within
the range reads ON. -/
def Obligations.RailsJudged : Prop :=
  (∀ (s : State) (d : Fin 4) (mv : Nat), s.Live →
    Completes (.coreUndervolt d mv) s fun m' =>
      if s.m.dieRail s.mc d = true ∧ mv < (if s.mc.mode = .banked then 500 else 600) then
        m'.rd O.railV d = mv ∧ m'.rd O.railState d = 3 ∧ AppendsFault s.m m' 0xFFFF 0x03 d ∧ m'.pwr.avs = s.m.pwr.avs ∧ m'.ns = s.m.ns ∧ Leaves (0xC0 :: raiseAreas) s.m m'
      else m' = s.m) ∧
  (∀ (s : State) (r : Fin 12) (mv : Nat), s.Live → mv < 65536 →
    Completes (.railOutOfRange r mv) s fun m' =>
      m'.rd O.railV r = mv ∧ Leaves (0xC0 :: raiseAreas) s.m m' ∧
      (s.m.sinks s.mc r mv = false → m'.flt = s.m.flt) ∧ (s.m.sinks s.mc r mv = true → AppendsFault s.m m' 0xFFFF 0x03 r) ∧
      if (railRange s.mc r).1 ≤ mv ∧ mv ≤ (railRange s.mc r).2 then m'.rd O.railState r = 2 ∧ m'.pwr = s.m.pwr
      else
        m'.rd O.railState r = 3 ∧
        m'.rd O.railOor r = (if s.m.rd O.railState r = 3 then s.m.rd O.railOor r else (s.m.rd O.railOor r + 1) % 2 ^ 64) ∧
        m'.ns = (if 4 ≤ r.val ∧ r.val ≤ 9 ∧ s.m.railOn r = true then s.m.ns + 10000 else s.m.ns) ∧
        m'.pwr.avs = s.m.pwr.avs ∧
        m'.thermtripN = (s.m.thermtripN && !(decide (4 ≤ r.val ∧ r.val ≤ 9 ∧ s.m.railOn r = true) || decide (r.val ≤ 3 ∧ 850 < mv))) ∧
        m'.rd O.railEn = (if s.m.thermtripN = true ∧ m'.thermtripN = false then 0 else s.m.rd O.railEn))

/-- R641: a die at 120 °C (125 °C for the Lantern die), in 1/16 °C with its TEMP-OFFSET, or a stack at 120 °C, lowers THERMTRIP_N and every enable.
R643: DIE-TEMP reaching DIE-TEMP-LIMIT raises one THERMAL record for the die, a further one only after a fall of 5 °C below the limit. -/
def Obligations.TemperatureActs : Prop :=
  (∀ (s : State) (k : Fin 21) (t : Int), s.Live → s.m.pwr.tripped = false →
    Completes (.thermalTrip k t) s fun m' =>
      Leaves (0xC0 :: 0x78 :: raiseAreas) s.m m' ∧
      if (if k.val < 13 then (if k.val = 12 then 2000 else 1920) ≤ t + s.m.tempOffset k else 120 ≤ t) then
        m'.thermtripN = false ∧ m'.rd O.railEn = 0
      else m'.thermtripN = true ∧ m'.rd O.railEn = s.m.rd O.railEn ∧ m'.pwr.avs = s.m.pwr.avs ∧ (13 ≤ k.val → m'.pwr = s.m.pwr)) ∧
  (∀ (s : State) (d : Fin 13) (t : Int), s.Live → ∀ i ∈ [Instr.dieTempLimit d t, Instr.thermalTrip (d.castLE (by omega)) t],
    Completes i s fun m' =>
      m'.rd O.dieTemp d = unsgn 32 (t + s.m.tempOffset d) ∧ Leaves (0xC0 :: raiseAreas) s.m m' ∧
      m'.thermtripN = (s.m.thermtripN && !decide ((if d.val = 12 then 2000 else 1920) ≤ t + s.m.tempOffset d)) ∧
      (sgn 32 (s.m.rd O.dieTempLimit d) ≤ t + s.m.tempOffset d → mget false s.m.pwr.warm d = false →
        AppendsFault s.m m' 0xFFFF 0x0D d ∧ mget false m'.pwr.warm d = true) ∧
      (sgn 32 (s.m.rd O.dieTempLimit d) ≤ t + s.m.tempOffset d → mget false s.m.pwr.warm d = true → m'.flt = s.m.flt) ∧
      (t + s.m.tempOffset d < sgn 32 (s.m.rd O.dieTempLimit d) → m'.flt = s.m.flt ∧
        (t + s.m.tempOffset d ≤ sgn 32 (s.m.rd O.dieTempLimit d) - 80 → mget false m'.pwr.warm d = false) ∧
        (sgn 32 (s.m.rd O.dieTempLimit d) - 80 < t + s.m.tempOffset d → mget false m'.pwr.warm d = mget false s.m.pwr.warm d)))

/-- R50, R54, R60: a powered tile's plausible reading stands in TILE-PACE-EQ and ends its exclusion; an implausible one excludes the tile, raises a
monitor fault when it was not excluded, and brings the setpoint of its die's running loop to VCORE-START or above, within the loop's range (log entry
134), commanding the rail; a tile without power reads 0. R349: the creation budgets are brought up to the window first. -/
def Obligations.PaceReading : Prop :=
  ∀ (s : State) (t : Fin 442) (eq : Nat) (m : Mach), s.Live → eq < 65536 → m = s.m.crbSettle s.mc →
    Completes (.paceWindow t eq) s fun m' =>
      m'.rd O.tilePaceEq t = (if s.m.tilePower s.mc t = 1 then eq else 0) ∧ Leaves (0xC0 :: raiseAreas) m m' ∧
      (∀ b : Fin 16, (m'.basin b).tok = s.m.crbTok s.mc b ∨ (s.m.basin b).tokAt = s.m.ns) ∧
      (s.m.tilePower s.mc t ≠ 1 → m'.pwr = s.m.pwr ∧ m'.com.out = s.m.com.out) ∧
      (s.m.tilePower s.mc t = 1 → 150 ≤ eq ∧ eq ≤ 2000 →
        mget false m'.pwr.excl t = false ∧ m'.flt = s.m.flt ∧ m'.pwr.avs = s.m.pwr.avs ∧ m'.com.out = s.m.com.out) ∧
      (s.m.tilePower s.mc t = 1 → ¬ (150 ≤ eq ∧ eq ≤ 2000) →
        mget false m'.pwr.excl t = true ∧ (∀ x : Fin 442, x ≠ t → mget false m'.pwr.excl x = mget false s.m.pwr.excl x) ∧
        (mget false s.m.pwr.excl t = false → AppendsFault s.m m' t 0x01 t) ∧
        (mget false s.m.pwr.excl t = true → m'.flt = s.m.flt) ∧
        (∀ d v, tileDie t = some d → v = inRange (s.m.rd O.coreVcoreSet d) (s.m.avs d).vmin (s.m.avs d).vmax (s.m.rd O.vcoreStart) →
          if s.m.rdB O.avsLoopEn = true ∧ (s.m.avs d).failed = false then
            m'.rd O.coreVcoreSet d = v ∧
            (v ≠ s.m.rd O.coreVcoreSet d → (m'.avs d).moved = true ∧
              (s.m.cellsDrive = false → ∃ l, m'.com.out = s.m.com.out ++ .avs d v :: l))
          else m'.rd O.coreVcoreSet d = s.m.rd O.coreVcoreSet d))

/-- R59, R60, R64: one interval of a running loop, after the one before by the AVS-INTERVAL that stood at that one. It steers by the target, range and hysteresis as they stand at it,
takes the worst cycle and reads the rail back; the setpoint moves 5 mV up while the worst cycle is above the target, 5 mV down at the fourth interval in
a row below it by more than the hysteresis, else holds, and is brought into its range (with the floor of R54); a setpoint that changes is commanded. A
loop that does not run does nothing. -/
def Obligations.LoopStep : Prop :=
  ∀ (s : State) (d : Fin 4) (mv ma w tgt set : Nat) (a : Avs), s.Live → a = s.m.avs d → w = s.m.worst s.mc d → tgt = s.m.paceTarget s.mc →
    set = s.m.rd O.coreVcoreSet d →
    Completes (.avsInterval d mv ma) s fun m' =>
      if s.m.rdB O.avsLoopEn = true ∧ s.m.diePowered s.mc d = true ∧ a.failed = false then
        m'.rd O.coreVcoreRead d = mv ∧ m'.rd O.railI d = ma ∧ m'.rd O.corePaceWorst d = w ∧
        m'.ns = max s.m.ns ((a.at_.getD 0) + if a.at_ = none then 0 else 1000 * a.every) ∧
        m'.flt = s.m.flt ∧ m'.tb = s.m.tb ∧ Leaves [0xC0] s.m m' ∧
        m'.rd O.coreVcoreSet d =
          inRange (if tgt < w then set + 5 else if w + s.m.rd O.avsHysteresis < tgt ∧ a.below = 3 then set - 5 else set)
            (s.m.rd O.vcoreMin) (s.m.rd O.vcoreMax) (if s.m.dieExcluded s.mc d = true then s.m.rd O.vcoreStart else 0) ∧
        (m'.avs d).below = (if w + s.m.rd O.avsHysteresis < tgt ∧ ¬ tgt < w ∧ a.below ≠ 3 then a.below + 1 else 0) ∧
        (m'.avs d).tgt = tgt ∧ (m'.avs d).every = s.m.rd O.avsInterval ∧ ((m'.avs d).moved = true ↔ m'.rd O.coreVcoreSet d ≠ set) ∧
        (s.m.cellsDrive = false →
          m'.com.out = s.m.com.out ++ if m'.rd O.coreVcoreSet d = set then [] else [.avs d (m'.rd O.coreVcoreSet d)]) ∧
        ∀ e : Fin 4, e ≠ d → m'.avs e = s.m.avs e ∧ m'.rd O.coreVcoreSet e = s.m.rd O.coreVcoreSet e
      else m' = s.m

/-- R63: the loop of a die whose rail is commanded, in BANKED too and enabled or not, whose rail does not answer enters FAILED with its setpoint at the last one acknowledged, and the snuffer
receives a supply fault. R63, R66: AVS-LOOP-EN and CORE-VCORE-SET written; a loop that was off and is enabled is FAILED on no die, and the setpoint of a
powered die enters its range. R62: a die that has stayed AT-CEILING for 1 ms since it came there sends PACE-DEFICIT, once, and accumulates time from
then on; any other die does not. -/
def Obligations.LoopFailsAndIsWritten : Prop :=
  (∀ (s : State) (d : Fin 4), s.Live →
    Completes (.avsFailure d) s fun m' =>
      if s.m.dieRail s.mc d = true ∧ (s.m.avs d).failed = false then
        (m'.avs d).failed = true ∧ m'.avsState s.mc d = 5 ∧ m'.rd O.coreVcoreSet d = (s.m.avs d).acked ∧ AppendsFault s.m m' 0xFFFF 0x02 d ∧
        (∀ e : Fin 4, e ≠ d → m'.avs e = s.m.avs e ∧ m'.rd O.coreVcoreSet e = s.m.rd O.coreVcoreSet e) ∧ Leaves (0xC0 :: raiseAreas) s.m m'
      else m' = s.m) ∧
  (∀ (s : State) (ses : Fin 64) (v : Nat), s.Live → s.Admits ses O.avsLoopEn 0 v →
    Completes (.avsLoopEnWrite ses v) s fun m' =>
      m'.com.status = .ok ∧ m'.rd O.avsLoopEn = v ∧ m'.flt = s.m.flt ∧ Leaves [0xC0] s.m m' ∧
      (v = 0 ∨ s.m.rdB O.avsLoopEn = true →
        m'.pwr = s.m.pwr ∧ m'.com.out = s.m.com.out ∧ ∀ d : Fin 4, m'.rd O.coreVcoreSet d = s.m.rd O.coreVcoreSet d) ∧
      (v = 1 → s.m.rdB O.avsLoopEn = false → ∀ d : Fin 4, (m'.avs d).failed = false ∧
        m'.rd O.coreVcoreSet d =
          if s.m.diePowered s.mc d = true then
            inRange (s.m.rd O.coreVcoreSet d) (s.m.rd O.vcoreMin) (s.m.rd O.vcoreMax)
              (if s.m.dieExcluded s.mc d = true then s.m.rd O.vcoreStart else 0)
          else s.m.rd O.coreVcoreSet d) ∧
      (v = 0 → ∀ d : Fin 4, (m'.avs d).failed = false → m'.avsState s.mc d = 4)) ∧
  (∀ (s : State) (ses : Fin 64) (d : Fin 4) (v : Nat), s.Live → s.Admits ses O.coreVcoreSet d v →
    Completes (.coreVcoreSetWrite ses d v) s fun m' =>
      m'.com.status = .ok ∧ m'.rd O.coreVcoreSet d = v ∧ (s.m.cellsDrive = false → m'.com.out = s.m.com.out ++ [.avs d v]) ∧
      m'.avs d = { s.m.avs d with acked := s.m.rd O.coreVcoreSet d } ∧ (∀ e : Fin 4, e ≠ d → m'.avs e = s.m.avs e) ∧ m'.flt = s.m.flt ∧
      Leaves [0xC0] s.m m') ∧
  (∀ (s : State) (d : Fin 4), s.Live →
    Completes (.paceDeficit d) s fun m' =>
      (s.m.avsState s.mc d ≠ 3 ∨ (s.m.avs d).ceil = none ∨ (s.m.avs d).deficit ≠ none → m' = s.m) ∧
      (∀ t, s.m.avsState s.mc d = 3 → (s.m.avs d).ceil = some t → (s.m.avs d).deficit = none →
        m'.ns = max s.m.ns (t + 1000000) ∧ (m'.avs d).deficit = some m'.ns ∧ m'.clk.noteNum = (s.m.clk.noteNum + 1) % 2 ^ 32 ∧
        fld 32 (m'.ent O.noteLog 0 (s.m.clk.noteNum % 4096)) 4 2 = 1 ∧ fld 32 (m'.ent O.noteLog 0 (s.m.clk.noteNum % 4096)) 26 1 = d ∧
        m'.flt = s.m.flt ∧ Leaves raiseAreas s.m m'))

/-! Modes (ch. 03). -/

/-- R647: what a request draws, by the first of its tests that applies; one that is not accepted leaves the mode, its target and the functions as they
are. Table 3.2, R71 to R73, R77, R78, R91, R93, R97: the mode, its target, MODE-RETURN and the transition that an accepted request leads to, and whether
containment or an overflow stood at a request in EBB or BANKED; one that must stop functions waits for them. -/
def Obligations.ModeRequestAnswered : Prop :=
  (∀ (s : State) (ses : Fin 64) (r : Mode) (i : Instr), s.Live → modeReqRow ses r = some i → s.AsksMode ses r →
    Moves i s fun c' m' =>
      m'.com.status =
        (if ((r = .trim ∨ r = .quench ∨ r = .probe) ∧ s.m.sesP ses < 2) ∨ (r = .probe ∧ s.m.dbg.level < 2) then .privilege
         else if (s.mc.trans ≠ none ∨ s.m.trm.committing ≠ none) ∧ r ≠ .quench then .busy
         else if r = s.mc.mode then .ok
         else if (s.m.sec.life = .shipped ∧ r ≠ .pilot ∧ r ≠ .quench) ∨ (viaKindle s.mc.mode r = true ∧ s.m.rd O.trngState = 2) then .lifecycle
         else if modeAllows s.mc.mode r = false then .mode
         else .deferred) ∧
      (m'.com.status ≠ .deferred → c' = s.mc ∧ m'.dp = s.m.dp ∧ m'.com.fns = s.m.com.fns ∧ m'.sec = s.m.sec ∧ m'.flt = s.m.flt)) ∧
  (∀ (s : State) (ses : Fin 64) (r : Mode) (i : Instr), s.Live → modeReqRow ses r = some i → s.AsksMode ses r →
    s.m.modeStatus s.mc ses r = .deferred →
    Moves i s fun c' m' =>
      m'.com.status = .deferred ∧ m'.rd O.modeReq = r.code ∧
      (r = .lit ∨ r = .lean → s.mc.mode = .ebb ∨ s.mc.mode = .banked → m'.trn.guardAsk = s.m.guardDue) ∧
      c' =
        match r with
        | .quench =>
          if fnsRun s.mc.mode = true ∧ (s.m.asked r).mustWait s.mc r = true then { s.mc with target := r, trans := some (.stops r) }
          else { s.mc with mode := .quench, target := .quench, trans := some (.quench false) }
        | .trim => { s.mc with mode := .kindle, target := .trim, trans := some (.kindle .trim) }
        | .primed =>
          if s.mc.mode = .ebb then
            if (s.m.asked r).mustWait s.mc r = true then { s.mc with target := r, trans := some (.stops r) }
            else { s.mc with mode := .primed, target := .primed, trans := none }
          else { s.mc with mode := .kindle, target := .primed, trans := some (.kindle .primed) }
        | .ebb =>
          if (s.m.asked r).mustWait s.mc r = true then { s.mc with target := r, trans := some (.stops r) }
          else { mode := .ebb, target := .ebb, ret := if s.mc.mode = .guard then s.mc.ret else s.mc.mode, trans := none }
        | .banked =>
          if s.mc.mode = .ebb then { s.mc with target := .banked, trans := some .drain }
          else if (s.m.asked r).mustWait s.mc r = true then { s.mc with target := r, trans := some (.stops r) }
          else { mode := .ebb, target := .banked, ret := if s.mc.mode = .guard then s.mc.ret else s.mc.mode, trans := some .drain }
        | .lit | .lean =>
          if s.mc.mode = .guard then { s.mc with ret := r }
          else if s.mc.mode = .ebb then { s.mc with target := r, trans := some (.ebbReturn r) }
          else if s.mc.mode = .banked then { s.mc with target := r, trans := some (.bankedExit r) }
          else if r = .lit ∧ s.mc.mode = .lean then { s.mc with target := .lit, trans := some .toLit }
          else if s.m.guardDue = true then { s.mc with mode := .guard, target := .guard, trans := none, ret := r }
          else { s.mc with mode := r, target := r, trans := none }
        | _ =>
          if (s.m.asked r).mustWait s.mc r = true then { s.mc with target := r, trans := some (.stops r) }
          else { s.mc with mode := r, target := r, trans := none })

/-- R74, R82, R635: valid Lantern rails with a reference clock bring a device in DARK to PILOT; without one it is held, and READY stays low; in any other
mode they change nothing. Loss of the rail brings any mode to DARK, with the data plane and slot 65 gone and the key slots and the lifecycle kept. -/
def Obligations.RailsDecideDark : Prop :=
  (∀ (s : State) (straps : Fin 8) (ref tr im : Bool) (bad : List (Fin 69)),
    ∃ t, exec (.lanternRailValid straps ref tr im bad) s = .next t ∧ t.pending = s.pending ∧
      if s.mc.mode ≠ .dark then t = s
      else if ref then t.mc = { s.mc with mode := .pilot, target := .pilot, trans := none, ret := .lit } ∧ t.m.ready t.mc = true ∧ t.m.dp = s.m.dp
      else t.mc = s.mc ∧ t.m.ready t.mc = false) ∧
  (∀ (s : State), ∃ t, exec .lanternRailLoss s = .next t ∧ t.pending = s.pending ∧ t.mc = {} ∧ t.m.dp = {} ∧ t.m.sec.life = s.m.sec.life ∧
    (t.m.slot 65).state = 0 ∧ (∀ k, k ≠ 65 → t.m.slot k = s.m.slot k) ∧ t.m.com.fns = [] ∧ t.m.faultN t.mc = true)

/-- R84, R85 and Table 3.6: KINDLE ends in the mode it was for with every function STOPPED or FAULTED; KINDLE-RESULT is PASS and the data plane empty where
no tile failed, else PASS-DEGRADED with each failed tile's block under containment; an abort leads to PILOT with its cause, as both stacks of a mirror
pair that fail do. Outside KINDLE neither does
anything. R76, R64: LIT is entered from LEAN once every powered core die reads TRACKING at the target of LIT, or when 30 AVS-INTERVALs are over; until
then nothing happens. R100, R541, R542: the zeroising step of QUENCH erases slots 0 to 63 and 65, and every slot when its target is SPENT, and makes
an owned device SHIPPED, or SPENT; the step after it enters PILOT. -/
def Obligations.TransitionsEnd : Prop :=
  (∀ (s : State) (failed : List (Fin 442)), s.Live →
    Moves (.kindleComplete failed) s fun c' m' =>
      if s.mc.mode = .kindle ∧ pairFails (failed.map fun t => t.val) = true then
        c' = { s.mc with mode := .pilot, target := .pilot, trans := none } ∧ m'.dp = {} ∧ m'.rd O.railEn = 0 ∧ m'.rd O.kindleResult = 5
      else if s.mc.mode = .kindle then
        c' = { s.mc with
          mode := if s.mc.trans = some (.kindle .trim) then .trim else .primed
          target := if s.mc.trans = some (.kindle .trim) then .trim else .primed
          trans := none } ∧
        m'.rd O.kindleResult = (if failed = [] then 1 else 2) ∧ (∀ f, m'.fst f = .stopped ∨ m'.fst f = .faulted) ∧
        (failed = [] → m'.dp.pkts = [] ∧ m'.dp.voqs = [] ∧ m'.dp.eddy = [] ∧ m'.dp.hbm = [] ∧
          (s.m.atLevel1 = [] → m'.flt = { s.m.flt with rebuild := [], rebuildAt := [], lostPair := [] })) ∧
        (s.m.flt.queue.length + failed.length ≤ 255 → ∀ t ∈ failed, topLevel t ≠ 0 → (m'.cont t).level ≠ 0)
      else c' = s.mc ∧ m' = s.m) ∧
  (∀ (s : State) (k : KindleCause), s.Live →
    Moves (.kindleAbort k) s fun c' m' =>
      if s.mc.mode = .kindle then
        c' = { s.mc with mode := .pilot, target := .pilot, trans := none } ∧ m'.dp = {} ∧ m'.rd O.railEn = 0 ∧
        m'.rd O.kindleResult = (match k with | .rail => 3 | .interposer => 4 | .hbm => 5)
      else c' = s.mc ∧ m' = s.m) ∧
  (∀ (s : State) (timeout : Bool), s.Live →
    Moves (.leanToLitEntry timeout) s fun c' m' =>
      if s.mc.trans = some .toLit ∧ (timeout = true ∨
          ∀ d ∈ List.range 4, s.m.diePowered s.mc d = true → s.m.avsState s.mc d = 0 ∧ (s.m.avs d).tgt = s.m.rd O.paceTargetLit) then
        c' = { s.mc with mode := .lit, target := .lit, trans := none } ∧ m'.trn.parked = [] ∧
        (timeout = true → s.m.trn.acceptAt + 30000 * s.m.rd O.avsInterval ≤ m'.ns)
      else c' = s.mc ∧ m' = s.m) ∧
  (∀ (s : State), s.Live →
    Moves .quenchZeroise s fun c' m' =>
      if s.mc.trans = some (.quench false) then
        c' = { s.mc with trans := some (.quench true) } ∧ (∀ k, k < 64 ∨ k = 65 → (m'.slot k).state = 0) ∧
        (s.m.rd O.quenchTarget = 1 → m'.sec.life = .spent ∧ ∀ k, k < 69 → (m'.slot k).state = 0) ∧
        (s.m.rd O.quenchTarget ≠ 1 → m'.sec.life = if s.m.sec.life = .owned then .shipped else s.m.sec.life)
      else c' = s.mc ∧ m' = s.m) ∧
  (∀ (s : State), s.Live →
    Moves .quenchComplete s fun c' m' =>
      if s.mc.trans = some (.quench true) then c' = { s.mc with mode := .pilot, target := .pilot, trans := none } ∧ m'.dp = {} ∧ m'.trn.quenchKey = false
      else c' = s.mc ∧ m' = s.m)

/-- R92, R93: EBB-DRAINED becomes true only in EBB and only once every queue, reach, sluice, basin and eddy is empty of work; the limit, unless a return is
in progress, stops every function that still runs, drops the frames queued and leaves the mode. R93, R96, R97, Tables 3.9 and 3.10: EBB is left for the
mode asked for once no function the device restarts is STARTING or waits for its stop; BANKED is entered from a drained EBB, with the pseudo-channels idle, that
no batch holds a function in, with the reaches, the confluence and the eddies empty and the counters copied (R518); the exit from BANKED sets MODE-RETURN to the mode asked for. R78: both end in GUARD where containment or an overflow stood at the request. -/
def Obligations.EbbAndBanked : Prop :=
  (∀ (s : State), s.Live →
    Completes .ebbDrained s fun m' =>
      if s.mc.mode = .ebb ∧ s.m.drainedNow = true then
        m'.rd O.ebbDrained = 1 ∧ m'.trn.drained = true ∧ m'.dp = s.m.dp ∧ m'.com.fns = s.m.com.fns
      else m' = s.m) ∧
  (∀ (s : State), s.Live →
    Completes .ebbLimitExpiry s fun m' =>
      if s.mc.mode ≠ .ebb ∨ s.m.trn.drained = true ∨ s.m.trn.limitOver = true ∨ s.mc.returning = true then m' = s.m
      else
        m'.trn.limitOver = true ∧ m'.trn.drained = false ∧ m'.ns = max s.m.ns ((s.m.trn.suspendAt.getD s.m.ns) + s.m.rd O.ebbLimit * 1000000) ∧
        m'.dp.voqs = [] ∧ m'.dp.lanes = [] ∧ ∀ f, fnKind f ≠ none → m'.fst f = .stopped ∨ m'.fst f = .faulted) ∧
  (∀ (s : State) (g : Mode), s.Live → s.mc.trans = some (.ebbReturn g) → (g = .lit ∨ g = .lean) →
    Moves .ebbReturn s fun c' m' =>
      if ((s.m.comeBack s.m.trn.devStopped).any fun f => decide (s.m.fst f = .starting) || (s.m.fn f).startNext) = true then c' = s.mc ∧ m' = s.m
      else if s.m.trn.guardAsk = true then c' = { mode := .guard, target := .guard, ret := g, trans := none } ∧ m'.trn.suspendAt = none
      else c' = { s.mc with mode := g, target := g, trans := none } ∧ m'.trn.suspendAt = none) ∧
  (∀ (s : State), s.Live →
    Moves .bankedEntry s fun c' m' =>
      if s.mc.trans = some .drain ∧ s.m.trn.drained = true ∧ s.m.stacksIdle = true ∧ (s.m.liveFns.any s.m.heldStill) = false then
        c' = { s.mc with mode := .banked, target := .banked, trans := none } ∧ m'.dp.eddy = [] ∧ m'.dp.chans = [] ∧ m'.dp.voqs = [] ∧
        m'.trn.copyAt = s.m.now ∧ m'.trn.counters = m'.counterTabs ∧
        ∀ d : Fin 4, m'.rd O.coreVcoreSet d = s.m.rd O.vcoreRetention
      else c' = s.mc ∧ m' = s.m) ∧
  (∀ (s : State) (g : Mode), s.Live → s.mc.trans = some (.bankedExit g) → (g = .lit ∨ g = .lean) →
    Moves .bankedExitComplete s fun c' m' =>
      c' = (if s.m.trn.guardAsk = true then { mode := .guard, target := .guard, ret := g, trans := none }
        else { mode := g, target := g, ret := g, trans := none }) ∧
      m'.trn.suspendAt = none ∧ ∀ d : Fin 4, m'.rd O.coreVcoreSet d = s.m.rd O.vcoreStart)

/-- R102, R103, Table 3.11: an admitted reset of a block or die is accepted with DEFERRED, stops the functions of its blocks that are not FAULTED and no
other, empties a basin's in-flight table and a reach's FIFOs, and leaves the mode; that of the assembly begins KINDLE towards PRIMED, is BUSY while a
transition runs and needs a healthy TRNG (R564). -/
def Obligations.ResetsAccepted : Prop :=
  (∀ (s : State) (ses : Fin 64) (t : Nat) (l : List Nat), s.Live → s.Admits ses O.resetBlock 0 t → l = blkFns (tileBlk t).1 (tileBlk t).2 →
    Moves (.resetBlock ses t) s fun c' m' =>
      c' = s.mc ∧ m'.com.status = .deferred ∧
      (∀ f, m'.fst f = if f ∈ l ∧ s.m.fst f ≠ .faulted then .stopped else s.m.fst f) ∧
      (∀ v, tileBlk t = (.basin, v) → (m'.basin v).ift = [] ∧ (m'.basin v).inPkt = [] ∧ (m'.basin v).inOther = []) ∧
      (∀ r, tileBlk t = (.reach, r) → (m'.rch r).fifo = [] ∧ (m'.rch r).gfifo = [] ∧ (m'.rch r).water = [])) ∧
  (∀ (s : State) (ses : Fin 64) (d : Nat) (l : List Nat), s.Live → s.Admits ses O.resetDie 0 d →
    l = (if d < 4 then dieBlks d else (List.range 16).map fun k => blkTile .pgroup (16 * (d - 16) + k)).flatMap
      (fun t => blkFns (tileBlk t).1 (tileBlk t).2) →
    Moves (.resetDie ses d) s fun c' m' =>
      c' = s.mc ∧ m'.com.status = .deferred ∧ ∀ f, m'.fst f = if f ∈ l ∧ s.m.fst f ≠ .faulted then .stopped else s.m.fst f) ∧
  (∀ (s : State) (ses : Fin 64), s.Live → s.m.sesOn ses = true → s.m.writeCheck s.mc (s.m.reqOf ses) O.resetAssembly 0 [] = none →
    Moves (.resetAssembly ses) s fun c' m' =>
      if s.mc.trans ≠ none ∨ s.m.trm.committing ≠ none then c' = s.mc ∧ m'.com.status = .busy ∧ m'.dp = s.m.dp
      else if s.m.rd O.trngState = 2 then c' = s.mc ∧ m'.com.status = .lifecycle ∧ m'.dp = s.m.dp
      else c' = { s.mc with mode := .kindle, target := .primed, trans := some .assembly } ∧ m'.com.status = .deferred ∧ m'.dp = {})

/-! Functions and pending values (ch. 04). -/

/-- R119, Tables 4.5 and 5.6: what START draws of a function in each of its states; an accepted one puts it in STARTING (its kind's own entry is
beginStart), a failed configuration check names its object in FN-START-ERROR, and nothing else changes a function. R119, Table 4.5: what STOP draws of
a function; RUNNING becomes STOPPING (the kind's own entry is beginStop), STARTING takes effect when initialisation completes, and a host's stop
during EBB is remembered (R93). -/
def Obligations.FunctionsCommanded : Prop :=
  (∀ (s : State) (ses : Fin 64) (f : Fin 65536), s.Live → s.m.sesOn ses = true → fnKind f ≠ none → 1 ≤ s.m.sesP ses →
    areaOpen s.mc.judged (fnItem f).1 (fnItem f).2 true = true →
    Completes (.fnStart ses f) s fun m' =>
      m'.com.status =
        (match s.m.fst f with
         | .stopped =>
           if startMode s.mc f = false then .mode
           else if s.m.startFail f ≠ none then .range
           else if s.m.heldFrom f ses = true then .busy
           else .deferred
         | .starting | .running => if s.m.heldFrom f ses = true then .busy else .ok
         | .stopping => .busy
         | .faulted => if s.m.heldFrom f ses = true then .busy else .functionFaulted) ∧
      (m'.com.status = .deferred → m' = (s.m.beginStart s.mc f).st .deferred ∧
        ((∀ g, fnKind f ≠ some (.pgroup, g)) → m'.fst f = .starting ∧ (m'.fn f).since = s.m.now ∧ (∀ g, g ≠ f.val → m'.fn g = s.m.fn g) ∧
          ObjsBut raiseAreas s.m m')) ∧
      (m'.com.status = .range → m' = (s.m.setFn f { s.m.fn f with startErr := (s.m.startFail f).getD 0 }).st .range) ∧
      (m'.com.status ≠ .deferred → m'.com.status ≠ .range → m' = s.m.st m'.com.status)) ∧
  (∀ (s : State) (ses : Fin 64) (f : Fin 65536), s.Live → s.m.sesOn ses = true → fnKind f ≠ none → 1 ≤ s.m.sesP ses →
    areaOpen s.mc.judged (fnItem f).1 (fnItem f).2 true = true →
    Completes (.fnStop ses f) s fun m' =>
      m'.com.status =
        (if s.m.heldFrom f ses = true then .busy
         else match s.m.fst f with
          | .starting | .running => .deferred
          | .faulted => .functionFaulted
          | _ => .ok) ∧
      (m'.com.status = .deferred → s.mc.mode = .ebb → m'.trn.hostStopped.head? = some f.val) ∧
      (m'.com.status = .deferred → s.m.fst f = .starting → m'.fn f = { s.m.fn f with stopNext := true } ∧ m'.dp = s.m.dp ∧ m'.com.objs = s.m.com.objs) ∧
      (m'.com.status = .deferred → s.m.fst f = .running → (s.mc.mode ≠ .ebb → m' = (s.m.beginStop s.mc f).st .deferred) ∧
        ((∀ g, fnKind f ≠ some (.pgroup, g)) → (∀ v, fnKind f ≠ some (.sluice, v)) → m'.fst f = .stopping ∧ (∀ g, g ≠ f.val → m'.fn g = s.m.fn g) ∧
          m'.dp = s.m.dp ∧ ObjsBut raiseAreas s.m m')) ∧
      (m'.com.status ≠ .deferred → m' = s.m.st m'.com.status))

/-- R118, R120, Table 4.4: the end of initialisation brings RUNNING, or STOPPING where a STOP waited; a stop completes only when what was admitted is
done. A rule set that reaches RUNNING has a new generation (R268), of which 0 is never one. -/
def Obligations.FunctionTransitionsComplete : Prop :=
  (∀ (s : State) (f : Fin 65536), s.Live →
    Moves (.fnInitComplete f) s fun c' m' =>
      c' = s.mc ∧
      (s.m.fst f ≠ .starting → m' = s.m) ∧
      (s.m.fst f = .starting → (s.m.fn f).stopNext = true → (∀ g, fnKind f ≠ some (.pgroup, g)) → (∀ v, fnKind f ≠ some (.sluice, v)) →
        m'.fst f = .stopping ∧ (m'.fn f).stopNext = false ∧ m'.dp = s.m.dp) ∧
      (s.m.fst f = .starting → (s.m.fn f).stopNext = false → (∀ g, fnKind f ≠ some (.pgroup, g)) →
        m'.fst f = .running ∧ (∀ g, g ≠ f.val → m'.fn g = s.m.fn g)) ∧
      (∀ n, s.m.fst f = .starting → (s.m.fn f).stopNext = false → fnKind f = some (.ruleset, n) →
        m'.rd O.rsGen n = if s.m.rd O.rsGen n = 0xFFFFFFFF then 1 else s.m.rd O.rsGen n + 1)) ∧
  (∀ (s : State) (f : Fin 65536), s.Live →
    Moves (.fnStopComplete f) s fun c' m' =>
      c' = s.mc ∧
      (s.m.fst f ≠ .stopping ∨ s.m.quiet f = false → m' = s.m) ∧
      (s.m.fst f = .stopping → s.m.quiet f = true → m' = (s.m.lastFrame f).endStop s.mc f ∧
        (∀ b, fnKind f = some (.egress, b) → (s.m.port b).txLast ≤ m'.ns) ∧
        ((∀ g, fnKind f ≠ some (.pgroup, g)) → (∀ b, fnKind f ≠ some (.egress, b)) → (∀ r, fnKind f ≠ some (.voq, r)) →
          m'.fst f = .stopped ∧ (∀ g, g ≠ f.val → m'.fn g = s.m.fn g) ∧ m'.dp = s.m.dp)))

/-- R127: a packet held for longer than FN-HOLD-AGE of the function that holds it is dropped under 0x13 and counted; one that is not held is left. -/
def Obligations.HeldPacketAges : Prop :=
  ∀ (s : State) (r : Fin 8) (p : Nat), s.Live →
    Completes (.holdAgeExpiry r p) s fun m' =>
      match s.m.pkt p with
      | none => m' = s.m
      | some x =>
        if x.reach = r ∧ x.stage = .held then m'.pkt p = none ∧ x.heldAt + 1000 * (s.m.fn x.heldBy).holdAge ≤ m'.ns ∧ ∃ n, Drops s.mc p x 0x13 n ∧ m' = n.bump O.holdAgeDrop r
        else m' = s.m

/-- R110, R111, R114, R163: a write of one object draws the status of its first failing check and changes nothing, or stores the value: of the port and
pipeline areas, every plain object at once and every reload object, which no function owns there, as a pending value; of a port's shaper at once
while its egress list is STOPPED and as a pending value otherwise. -/
def Obligations.ObjectWritten : Prop :=
  ∀ (s : State) (ses : Fin 64) (id : Fin 4294967296) (val : List Byte), s.Powered →
    Moves (.objectWrite ses id val) s fun c' m' =>
      (s.m.sesOn ses = false → c' = s.mc ∧ m' = s.m.st .session) ∧
      (s.m.sesOn ses = true → target id = none → c' = s.mc ∧ m' = s.m.st .unknownObject) ∧
      (∀ o i, s.m.sesOn ses = true → target id = some (.obj o i) →
        (∀ r, s.m.writeCheck s.mc (s.m.reqOf ses) o i val = some r → c' = s.mc ∧ m' = s.m.st r) ∧
        (s.m.writeCheck s.mc (s.m.reqOf ses) o i val = none → o.area = 0x40 ∨ o.area = 0x50 ∨ o.area = 0x58 →
          o.is O.bpEnable = false → o.is O.bpDownHold = false → o.is O.bpUpHold = false → o.is O.bpXoff = false → o.is O.bpXon = false →
    o.is O.flxCalUse = false → o.is O.flowSeed = false →
          c' = s.mc ∧
          (o.acc ≠ .rl → m' = (s.m.wr o i (ofOctets val)).st .ok ∧ m'.rd o i = ofOctets val ∧
            ∀ p j, p.key j ≠ o.key i → m'.rd p j = s.m.rd p j) ∧
          (o.acc = .rl → s.m.owners o i 0 = [] →
            m'.pendOf o i = some (ofOctets val) ∧ m'.com.status = .deferred ∧ m'.com.objs = s.m.com.objs)) ∧
        (s.m.writeCheck s.mc (s.m.reqOf ses) o i val = none → o = O.esPshapeRate ∨ o = O.esPshapeBurst → s.m.landOk o i (ofOctets val) = true →
          c' = s.mc ∧
          (s.m.fst (fnNum .egress i) = .stopped → m'.com.status = .ok ∧ m'.rd o i = ofOctets val ∧ m'.com.pend = s.m.com.pend) ∧
          (s.m.fst (fnNum .egress i) ≠ .stopped →
            m'.pendOf o i = some (ofOctets val) ∧ m'.com.status = .deferred ∧ m'.com.objs = s.m.com.objs)))

/-- R110, R111, R153, and log entry 67 for a peak: a read draws the status of its first failing check, else the value, which is the pending one where
there is one; a peak read is set back to the present value, and no other object changes. -/
def Obligations.ObjectRead : Prop :=
  ∀ (s : State) (ses : Fin 64) (id : Fin 4294967296) (o : ObjDef) (i : Nat), s.Powered → target id = some (.obj o i) →
    Completes (.readClear ses id) s fun m' =>
      ∃ m, m = s.m.gecSettle s.mc ∧
      (m.sesOn ses = false → m' = m.st .session) ∧
      (∀ r, m.sesOn ses = true → readCheck s.mc (m.reqOf ses) o = some r → m' = m.st r) ∧
      (m.sesOn ses = true → readCheck s.mc (m.reqOf ses) o = none → o.ty ≠ .cmd → o.is O.tsTxqNext = false →
        m'.com.status = .ok ∧
        (∀ v, m.pendOf o i = some v → m'.com.value = ofOctets (octets o.len v) ∧ m'.com.objs = m.com.objs) ∧
        (m.pendOf o i = none → m'.com.value = ofOctets (octets o.len (m.view s.mc o i)) ∧
          (∀ p j, p.key j ≠ o.key i → m'.rd p j = m.rd p j) ∧
          ∀ q ∈ [(O.ppfPeak, O.ppfOccupancy), (O.ctxPeak, O.ctxBusy), (O.laneHandlesPeak, O.laneHandlesUsed), (O.iftPeak, O.iftUsed),
              (O.pcQueuePeak, O.pcQueue), (O.holdPeak, O.holdOcc)], o = q.1 → m'.rd o i = m.view s.mc q.2 i))

/-- R113, R194: the calendar in use of a FlexE group. A write lands at once while the group is STOPPED, and else asks the partner and stays pending;
at the switch the pending value lands and is in use; a request that is not acknowledged is discarded with a note; with nothing pending nothing
happens. R238: a key epoch is a whole multiple of 100 µs of FRC, where a pending spread seed lands; with nothing pending the clock alone has moved. -/
def Obligations.PendingValuesLand : Prop :=
  (∀ (s : State) (ses : Fin 64) (g : Fin 128) (v : Nat), s.Live → s.Admits ses O.flxCalUse g v →
    Completes (.flxCalUseWrite ses g v) s fun m' =>
      if s.m.fst (fnNum .pgroup g) = .stopped then
        m'.com.status = .ok ∧ m'.rd O.flxCalUse g = v ∧ m'.rd O.flxCalActive g = v ∧ m'.com.out = s.m.com.out
      else
        m'.com.status = .deferred ∧ m'.pendOf O.flxCalUse g = some v ∧ m'.com.objs = s.m.com.objs ∧ mget none m'.dp.flexReq g = some s.m.ns ∧
        m'.com.out = s.m.com.out ++ [.calendar g v]) ∧
  (∀ (s : State) (g : Fin 128) (id : Fin 4294967296) (k : Nat) (i : Instr), s.Live →
    i = .flxCalSwitch g ∨ (i = .rlLanding id k ∧ target id = some (.obj O.flxCalUse g)) →
    Completes i s fun m' =>
      (s.m.pendOf O.flxCalUse g = none → m' = s.m) ∧
      (∀ v, s.m.pendOf O.flxCalUse g = some v → s.m.landOk O.flxCalUse g v = true →
        m'.rd O.flxCalUse g = v ∧ m'.rd O.flxCalActive g = v ∧ m'.pendOf O.flxCalUse g = none ∧ mget none m'.dp.flexReq g = none)) ∧
  (∀ (s : State) (g : Fin 128), s.Live →
    Completes (.flxCalTimeout g) s fun m' =>
      (mget none s.m.dp.flexReq g = none → m' = s.m) ∧
      (∀ t, mget none s.m.dp.flexReq g = some t →
        m'.pendOf O.flxCalUse g = none ∧ mget none m'.dp.flexReq g = none ∧ m'.rd O.flxCalActive g = s.m.rd O.flxCalActive g ∧
        t + 1000000 * s.m.rd O.flxCaTimeout g ≤ m'.ns)) ∧
  (∀ (s : State), s.Live →
    Completes .keyEpoch s fun m' =>
      (s.m.com.pend = [] → m' = s.m.reach ((s.m.ns + 99999) / 100000 * 100000) ∧ m'.ns % 100000 = 0) ∧
      (∀ v, s.m.pendOf O.spreadSeed 0 = some v → s.m.landOk O.spreadSeed 0 v = true → m'.pendOf O.spreadSeed 0 = none ∧ m'.rd O.spreadSeed = v))

/-! Clelek and the host path (ch. 05). -/

/-- R144, R146 to R149: a management port drops a frame that its crossing FIFO cannot take, discards a tagged one, answers ARP for its own address, and
queues Clelek for one of its addresses for the engine, as does an in-band port within 20,000 frames a second; the queue holds 128. A datagram for
another address or port is discarded. A port's speed and link are its objects. -/
def Obligations.ManagementPorts : Prop :=
  (∀ (s : State) (p : Fin 2) (f : MgtFrame), s.Powered →
    Completes (.mgtFrameRx p f) s fun m' =>
      (f.fifoFull = true → m' = s.m.bump O.mgtFifoDrop p) ∧
      (f.fifoFull = false → f.tagged = true ∨ s.m.mgtMacOk p f.dmac = false → m' = s.m.bump O.mgtDiscard p) ∧
      (∀ t, f.fifoFull = false → f.tagged = false → s.m.mgtMacOk p f.dmac = true → f.body = .arp t → s.m.mgtHas4 p t = true →
        m'.com.out = s.m.com.out ++ [.mgt p 0 (octets 6 f.smac ++ octets 6 (s.m.rd O.mgtMac p) ++ octets 4 t)] ∧ m'.com.objs = s.m.com.objs) ∧
      (∀ t g, f.fifoFull = false → f.tagged = false → s.m.mgtMacOk p f.dmac = true → f.body = .clelek t g →
        (s.m.udpMine p t = true → t.port = s.m.rd O.clkUdpPort →
          if s.m.clk.engineQ.length < 128 then m'.clk.engineQ = s.m.clk.engineQ ++ [{ g with path := p }] ∧ m'.com = s.m.com
          else m' = s.m.bump O.clkQueueDrop) ∧
        (s.m.udpMine p t = false ∨ (t.port ≠ s.m.rd O.clkUdpPort ∧ t.port ≠ s.m.rd O.hpUdpPort) → m' = s.m.bump O.mgtDiscard p))) ∧
  (∀ (s : State) (b : Fin 1024) (f : ClFrame), s.Powered →
    Completes (.inbandClelekRx b f) s fun m' =>
      (s.m.inbandOn = false ∨ s.m.inbandPort b = false ∨ s.m.pcsDelivers b = false → m' = s.m) ∧
      ∃ n z : _, n = inbandLen (bit f.src 96) f.len ∧
      z = ((s.m.wireIn b n).frameCnt s.mc b 0 n (bits f.src 95 48)).portCnt s.mc b 15 ∧
      (s.m.inbandOn = true → s.m.inbandPort b = true → s.m.pcsDelivers b = true → 16384 < n + 4 → m' = (s.m.wireIn b n).portCnt s.mc b 7) ∧
      (s.m.inbandOn = true → s.m.inbandPort b = true → s.m.pcsDelivers b = true → n + 4 ≤ 16384 → s.m.corrupts b = true →
        m' = (s.m.wireIn b n).fcsFail s.mc b) ∧
      (s.m.inbandOn = true → s.m.inbandPort b = true → s.m.pcsDelivers b = true → n + 4 ≤ 16384 → s.m.corrupts b = false →
        s.m.clk.inbandSec ≠ s.m.ns / 1000000000 → z.clk.engineQ.length < 128 →
        m'.clk.engineQ = z.clk.engineQ ++ [{ f with path := 2, src := inbandSrc b f }] ∧ m'.clk.inbandN = 1 ∧ m'.com = z.com) ∧
      (s.m.inbandOn = true → s.m.inbandPort b = true → s.m.pcsDelivers b = true → n + 4 ≤ 16384 → s.m.corrupts b = false →
        s.m.clk.inbandSec = s.m.ns / 1000000000 → 20000 ≤ s.m.clk.inbandN → m' = z.bump O.clkQueueDrop)) ∧
  (∀ (s : State) (ses : Fin 64) (p : Fin 2) (v : Nat), s.Powered → s.Admits ses O.mgtSpeed p v →
    Completes (.mgtSpeedWrite ses p v) s fun m' =>
      m'.com.status = .ok ∧ m'.rd O.mgtSpeed p = v ∧ m'.rd O.mgtLink p = 0 ∧ Leaves [0x20] s.m m') ∧
  (∀ (s : State) (p : Fin 2) (up : Bool), s.Powered →
    Completes (.mgtLinkChange p up) s fun m' => m'.rd O.mgtLink p = (if up then 1 else 0) ∧ Leaves [0x20] s.m m')

/-- R157, R163, Table 5.6: checks 1 to 5 of the frame at the head of the engine's queue, for every row of a frame. A malformed one, one of no session
and one whose tag fails are dropped and counted; one that the session's path, peer or secrecy refuses draws SESSION and one that is not newer draws
REPLAY with the highest sequence. The row of another kind of frame does nothing. -/
def Obligations.FrameChecks : Prop :=
  ∀ (s : State) (i : Instr) (row : Nat) (f : ClFrame) (rest : List ClFrame), s.Powered → engineRow i = some row →
    (s.engineStart row).clk.engineQ = f :: rest →
    Moves i s fun c' m' =>
      ((s.engineStart row).rowOf f ≠ row → c' = s.mc ∧ m' = s.engineStart row) ∧
      (Heads (s.engineStart row) row f rest →
        ((s.engineStart row).frameOk f = false →
          c' = s.mc ∧ m' = ({ s.engineStart row with clk.engineQ := rest }).bump O.clkFormatDrop) ∧
        ((s.engineStart row).frameOk f = true → (s.engineStart row).sesKeyed f.session = false →
          c' = s.mc ∧ m' = ({ s.engineStart row with clk.engineQ := rest }).bump O.clkSessionDrop) ∧
        ((s.engineStart row).frameOk f = true → (s.engineStart row).sesKeyed f.session = true →
            (s.engineStart row).opens f.session (seqIv 0 f.session f.seq) f.tag = false →
          c' = s.mc ∧ m' = (({ s.engineStart row with clk.engineQ := rest }).bump O.clkAuthDrop).authFail s.mc f.session f.path)) ∧
      (Sound (s.engineStart row) row f rest →
        (((s.engineStart row).heard f rest).sesAccepts f.session f.path f.src (bit f.flags 1) = false →
          c' = s.mc ∧ m' = ((s.engineStart row).heard f rest).answer s.mc (replyTo f) .session 0 []) ∧
        (((s.engineStart row).heard f rest).sesAccepts f.session f.path f.src (bit f.flags 1) = true →
          f.seq ≤ (s.engineStart row).rd O.sesSeqHigh f.session →
          c' = s.mc ∧ m' = ((s.engineStart row).heard f rest).answer s.mc { replyTo f with seq := (s.engineStart row).rd O.sesSeqHigh f.session } .replay 0 []))

/-- R171, R549, R550, R553, Table 18.6: an accepted SUBSCRIBE takes its slot with its kinds and a cancel frees it; an ATTEST waits for its signature,
and is answered in its turn; an IMPORT that passes loads its slot. -/
def Obligations.SubscribeAttestImport : Prop :=
  (∀ (s : State) (f : ClFrame) (rest : List ClFrame) (k : Fin 16), s.Powered → Accepted s.mc s.m 50 f rest →
      (s.m.taken f rest).subBad f = none →
    oct f.body 0 1 = k ∨ (oct f.body 0 1 = 0xFF ∧
      ((List.range 16).find? fun j => decide ((s.m.taken f rest).rd O.subSession j = 0xFF)) = some k.val) →
    Moves .subscribe s fun c' m' =>
      c' = s.mc ∧ m'.rd O.subSession k = f.session ∧ m'.rd O.subKinds k = oct f.body 4 4 ∧ m'.clk.engineQ = rest ∧
      ∀ j : Fin 16, j ≠ k → m'.rd O.subSession j = s.m.rd O.subSession j ∧ m'.rd O.subKinds j = s.m.rd O.subKinds j) ∧
  (∀ (s : State) (f : ClFrame) (rest : List ClFrame) (k : Fin 16), s.Powered → Accepted s.mc s.m 51 f rest →
      ((s.m.taken f rest).subBad f = none ∨ (s.m.taken f rest).subBad f = some .access) → oct f.body 0 1 = k →
    Moves .subscribeCancel s fun c' m' =>
      c' = s.mc ∧ m'.clk.engineQ = rest ∧
      (s.m.rd O.subSession k = f.session → m'.rd O.subSession k = 0xFF ∧ m'.rd O.subKinds k = 0) ∧
      (s.m.rd O.subSession k ≠ f.session → m'.rd O.subSession k = s.m.rd O.subSession k)) ∧
  (∀ (s : State) (f : ClFrame) (rest : List ClFrame), s.Powered → Accepted s.mc s.m 7 f rest → f.body.length = 32 →
    Moves .attest s fun c' m' => c' = s.mc ∧ m'.clk.attQ = s.m.clk.attQ ++ [⟨replyTo f, f.body⟩] ∧ m'.clk.engineQ = rest ∧ m'.com.out = s.m.com.out) ∧
  (∀ (s : State) (a : AttReq) (r : List AttReq), s.Powered → s.m.clk.attQ = a :: r →
    Completes .attestSigned s fun m' =>
      m'.clk.attQ = r ∧ m'.sec.drbgCtr = s.m.sec.drbgCtr + 1 ∧ ∃ l, l ≠ [] ∧ m'.com.out = s.m.com.out ++ l) ∧
  (∀ (s : State) (f : ClFrame) (rest : List ClFrame) (m : Mach), s.Powered → Accepted s.mc s.m 8 f rest → f.body.length = 1140 → m = s.m.taken f rest →
    m.importAllowed f.session (oct f.body 0 1) = true → m.keysFailed = false → oct f.body 0 1 ≤ 64 → oct f.body 1 1 = 0 → oct f.body 2 2 = 0 →
    Moves .importKey s fun c' m' =>
      c' = s.mc ∧ m'.clk.engineQ = rest ∧
      (∀ key, m.importOpen f.body = some key →
        (m'.slot (oct f.body 0 1)).state = 1 ∧ (m'.slot (oct f.body 0 1)).purpose = 0 ∧ (m'.slot (oct f.body 0 1)).key = ofOctets key ∧
          ∀ k, k ≠ oct f.body 0 1 → (m'.slot k).state = (s.m.slot k).state ∧ (m'.slot k).key = (s.m.slot k).key) ∧
      (m.importOpen f.body = none → m' = m.answer s.mc (replyTo f) .signature 0 []))

/-- R132, R153, R160 to R162, R169, R321: what accepted reads and writes do. A READ is answered with a record for each of its own, once the flow-record
slots that it reads have had their turn; a WRITE of one plain port or pipeline object that passes its checks stores the value; a window read leaves
WIN-NEXT past its run; a window write of one common action list puts it in force; an OP that Table 5.5 does not give draws ACCESS. -/
def Obligations.FramesReadAndWrite : Prop :=
  (∀ (s : State) (f : ClFrame) (rest : List ClFrame) (l : List ObjRec), s.Powered → Accepted s.mc (s.engineStart 1) 1 f rest → recsOf f = some l →
    Moves .clelekRead s fun c' m' =>
      c' = s.mc ∧
      ∃ r, r = ((s.engineStart 1).taken f rest).readRecs s.mc (((s.engineStart 1).taken f rest).reqOf f.session) .ok 0 l ∧
        (r.2.2.1 = [] → m' = r.2.2.2.answer s.mc (replyTo f) r.2.1 f.recCount r.1) ∧
        (r.2.2.1 ≠ [] →
          m' = { r.2.2.2 with clk.owed := r.2.2.2.clk.owed ++ [⟨replyTo f, [], r.2.1, f.recCount, r.1, r.2.2.1, none⟩] })) ∧
  (∀ (s : State) (f : ClFrame) (rest : List ClFrame) (x : ObjRec) (o : ObjDef) (i : Nat), s.Powered → Accepted s.mc s.m 2 f rest →
    recsOf f = some [x] → x.flags < 2 → target x.id = some (.obj o i) →
    (s.m.taken f rest).writeCheck s.mc ((s.m.taken f rest).reqOf f.session) o i x.val = none →
    o.area = 0x40 ∨ o.area = 0x50 ∨ o.area = 0x58 → o.acc ≠ .rl →
    o.is O.bpEnable = false → o.is O.bpDownHold = false → o.is O.bpUpHold = false → o.is O.bpXoff = false → o.is O.bpXon = false →
    o.is O.flxCalUse = false → o.is O.flowSeed = false →
    Moves .clelekWrite s fun c' m' =>
      c' = s.mc ∧ m'.rd o i = ofOctets x.val ∧ m'.clk.engineQ = rest ∧ m'.dp = s.m.dp ∧ m'.com.fns = s.m.com.fns ∧
      ∀ p j, p.area = 0x40 ∨ p.area = 0x50 ∨ p.area = 0x58 → p.sub < 256 → p.item + j < 65536 → p.key j ≠ o.key i → m'.rd p j = s.m.rd p j) ∧
  (∀ (s : State) (f : ClFrame) (rest : List ClFrame) (o : ObjDef) (i : Nat) (m : Mach), s.Powered → Accepted s.mc (s.engineStart 40) 40 f rest →
    moreOf f = false → f.body.length = 16 →
    ((s.engineStart 40).taken f rest).winHead s.mc (((s.engineStart 40).taken f rest).reqOf f.session) f.body false = (.inl (o, i), m) →
    (m.readWin s.mc f.session o i (oct f.body 8 4) (oct f.body 12 4)).status = .ok →
    (o.is O.flwSlots = true → m.slotsFaulted (oct f.body 8 4) (oct f.body 12 4) = false) →
    Moves .windowRead s fun c' m' =>
      c' = s.mc ∧ m'.win f.session o i = ⟨oct f.body 8 4, oct f.body 12 4, oct f.body 8 4 + oct f.body 12 4⟩ ∧ m'.clk.engineQ = rest) ∧
  (∀ (s : State) (f : ClFrame) (rest : List ClFrame) (i : Fin 8) (v : Nat) (m : Mach), s.Powered → Accepted s.mc s.m 41 f rest → moreOf f = false →
    f.body.length = 80 → oct f.body 12 4 = 1 → v = oct f.body 16 64 →
    (s.m.taken f rest).winHead s.mc ((s.m.taken f rest).reqOf f.session) f.body true = (.inl (O.actCommon, i.val), m) →
    m.winCheck s.mc (m.reqOf f.session) O.actCommon = none → oct f.body 8 4 < 4096 →
    m.entryOk O.actCommon i (oct f.body 8 4) v = true → m.holdCheck (m.reqOf f.session) O.actCommon i (oct f.body 8 4) = none →
    Moves .windowWrite s fun c' m' =>
      c' = s.mc ∧ m'.ent O.actCommon i (oct f.body 8 4) = v ∧ m'.clk.engineQ = rest ∧
      ∀ (j : Fin 8) (k : Fin 4096), ¬ (j = i ∧ k = oct f.body 8 4) → m'.ent O.actCommon j k = s.m.ent O.actCommon j k) ∧
  (∀ (s : State) (f : ClFrame) (rest : List ClFrame), s.Powered → Sound s.m 0 f rest →
    (s.m.heard f rest).sesAccepts f.session f.path f.src (bit f.flags 1) = true → s.m.rd O.sesSeqHigh f.session < f.seq → s.m.msg f.session = none →
    Moves .clelekBadOp s fun c' m' =>
      c' = s.mc ∧ m' = (s.m.heard f rest).answer s.mc (replyTo f) .access 0 [])

/-- R137, R139, R154, R165, R166, R556, R557: a BATCH or BUNDLE whose last frame passes every check is staged whole, with the signer's floor raised
for a bundle; one with MORE opens a message; a failed check stages nothing. R123, R138, R166, R168: execution takes the batch or bundle that has
waited longest. Its SEG-BEGIN holds the functions it names, stops one that runs and waits for it; a job with nothing left is answered and ends; with a
job of the other kind, or none waiting, nothing happens. -/
def Obligations.BatchesStagedAndExecuted : Prop :=
  (∀ (s : State) (f : ClFrame) (rest : List ClFrame) (n : Mach), s.Powered → Accepted s.mc s.m 3 f rest → batchTooBig f.body = false →
    n = (s.m.taken f rest).setMsg f.session none →
    Moves .clelekBatch s fun c' m' =>
      c' = s.mc ∧ m'.clk.engineQ = rest ∧
      (moreOf f = true → m'.msg f.session = some ⟨replyTo f, f.body, s.m.ns, none⟩ ∧ m'.clk.staged = s.m.clk.staged) ∧
      (moreOf f = false → oneSegment (brecs f.body.length f.body) = false → m' = n.answer s.mc (replyTo f) .type 0 []) ∧
      (moreOf f = false → oneSegment (brecs f.body.length f.body) = true →
        if (stageAll s.mc { ses := f.session, priv := n.sesP f.session, win := f.session, staged := true } true ⟨n, none, 0, 0⟩
            (brecs f.body.length f.body)).2.1 = .ok then
          m'.clk.staged = s.m.clk.staged ++
            [{ toward := replyTo f, mute := false, holder := f.session, priv := n.sesP f.session, recs := brecs f.body.length f.body, bundle := false,
               id := 0, digest := 0 }] ∧ m'.com = n.com
        else m'.clk.staged = s.m.clk.staged)) ∧
  (∀ (s : State) (f : ClFrame) (rest : List ClFrame) (sigOk : Option (List Byte)) (vendor : Bool) (n : Mach), s.Powered → Accepted s.mc s.m 9 f rest →
    f.body.length ≤ bundleRoom s.mc → vendor = decide (oct f.body 38 1 = 1) → n = ((s.m.taken f rest).setMsg f.session none).wr O.bundleLastId 0 (oct f.body 8 8) →
    Moves (.bundle sigOk) s fun c' m' =>
      c' = s.mc ∧ m'.clk.engineQ = rest ∧
      (moreOf f = true → m'.msg f.session = some ⟨replyTo f, f.body, s.m.ns, none⟩ ∧ m'.clk.staged = s.m.clk.staged) ∧
      (moreOf f = false → n.signerOk vendor = true → n.keysFailed = false → bundleHeaderOk f.body = true → sigOk ≠ some (n.bundleKey vendor) →
        m'.clk.staged = s.m.clk.staged ∧ m'.rd O.bundleResult = Status.signature.code) ∧
      (moreOf f = false → n.signerOk vendor = true → n.keysFailed = false → bundleHeaderOk f.body = true → sigOk = some (n.bundleKey vendor) →
        oct f.body 24 8 = 0 ∨ oct f.body 24 8 = Config.devSerial.toNat → oct f.body 39 1 = 0 ∨ oct f.body 39 1 = 0xA1 →
        n.rd (floorObj vendor) ≤ oct f.body 16 8 →
        ∀ l k z, l = brecs (oct f.body 32 4) ((f.body.drop 64).take (oct f.body 32 4)) →
          stageAll s.mc { ses := 0xFE, priv := if vendor then 3 else 2, win := f.session, staged := true } false ⟨n, none, 0, 0⟩ l = (k, .ok, z) →
          z.seg = none → z.segs = oct f.body 36 2 →
          m'.rd (floorObj vendor) = oct f.body 16 8 ∧
          m'.clk.staged = s.m.clk.staged ++
            [{ toward := replyTo f, mute := false, holder := 0xFE, priv := if vendor then 3 else 2, recs := l, bundle := true, id := oct f.body 8 8,
               digest := (Config.sha3 (f.body.take (64 + oct f.body 32 4))).toNat }])) ∧
  (∀ (s : State) (i : Instr) (b : Bool), s.Powered → i = (if b then .bundleExecute else .batchExecute) →
    Moves i s fun c' m' =>
      (s.m.clk.job = none → s.m.clk.staged = [] → c' = s.mc ∧ m' = s.m) ∧
      (∀ j, s.m.clk.job = some j → j.st.bundle ≠ b → c' = s.mc ∧ m' = s.m) ∧
      (∀ j, s.m.clk.job = some j → j.st.bundle = b → j.phase = .run → j.rest = [] → c' = s.mc ∧ m' = s.m.jobEnd s.mc j j.acc ∧ m'.clk.job = none) ∧
      (∀ g r f l, s.m.clk.job = none → s.m.clk.staged = g :: r → g.bundle = b → g.recs = .segBegin [f] :: l → (s.m.fn f).holder = 0xFF →
        s.m.fst f = .running → (∀ k, fnKind f ≠ some (.pgroup, k)) → (∀ k, fnKind f ≠ some (.sluice, k)) → 
        c' = s.mc ∧ m'.clk.staged = r ∧ m'.fst f = .stopping ∧ (m'.fn f).holder = g.holder ∧ (∀ k, k ≠ f → m'.fn k = s.m.fn k) ∧
        ∃ j, m'.clk.job = some j ∧ j.st = g ∧ j.phase = .stops ∧ j.seg = [f] ∧ j.rest = l))

/-- R155, R159, R172: a message times out 100 ms after its last frame; an admitted session object of sessions 1 to 63 is stored; a subscription's
misses are told once and counted anew. -/
def Obligations.MessagesSessionsLosses : Prop :=
  (∀ (s : State) (ses : Fin 64), s.Powered →
    Completes (.messageTimeout ses) s fun m' =>
      (s.m.msg ses = none → m' = s.m) ∧
      (∀ x, s.m.msg ses = some x → m'.msg ses = none ∧ x.lastAt + 100000000 ≤ m'.ns)) ∧
  (∀ (s : State) (ses k : Fin 64) (o : ObjDef) (v : Nat), s.Powered → k ≠ 0 → sesObj o.sub = some o → s.Admits ses o k v →
    Completes (.sesConfigWrite ses k o.sub v) s fun m' => m'.com.status = .ok ∧ m'.rd o k = v ∧ m'.dp = s.m.dp ∧ m'.com.fns = s.m.com.fns) ∧
  (∀ (s : State) (k : Fin 16), s.Powered →
    Completes (.noteLoss k) s fun m' =>
      ((mget {} s.m.clk.subs k).missed = 0 ∨ s.m.rd O.subSession k = 0xFF → m' = s.m) ∧
      ((mget {} s.m.clk.subs k).missed ≠ 0 → s.m.rd O.subSession k ≠ 0xFF →
        ∃ z : Mach, m' = z.ivUsed s.mc (s.m.rd O.subSession k) ∧ (mget {} z.clk.subs k).missed = 0 ∧ z.clk.noteNum = s.m.clk.noteNum ∧
          ∃ r e n t, z.com.out = s.m.com.out ++ [.note (s.m.rd O.subSession k) (mget {} s.m.clk.subs k).path (mget {} s.m.clk.subs k).dest r e n t] ∧
            fld 32 r 4 2 = 10 ∧ t = z.noteTag (s.m.rd O.subSession k) r e n))

/-- R144, R151, R175, R177, R178: the oldest punt of the highest class leaves with its sequence and tag, no sooner than its pace; a count that would wrap
advances BOOT-EPOCH. An injected packet that its management port takes passes its checks and waits in the Lantern queue, or is refused under its code;
the queue drains from its head, into a reach for a pipeline packet, as if received there. -/
def Obligations.HostPackets : Prop :=
  (∀ (s : State), s.Live →
    Completes .puntSend s fun m' =>
      (s.m.puntOn = false ∨ (s.mc.mode.forwards = false ∧ s.mc.mode ≠ .ebb) → m' = s.m) ∧
      (∀ k x r, s.m.puntOn = true → s.mc.mode.forwards = true ∨ s.mc.mode = .ebb →
        ((List.range 8).reverse.find? fun j => !(mget [] s.m.clk.puntQ j).isEmpty) = some k → mget [] s.m.clk.puntQ k = x :: r →
        ∃ z seq, seq = s.m.rd O.bootEpoch * 2 ^ 32 + s.m.clk.puntCount ∧ m' = (if s.m.clk.puntCount + 1 < 2 ^ 32 then z else z.nextEpoch s.mc) ∧
          mget [] z.clk.puntQ k = r ∧ z.clk.puntCount = (s.m.clk.puntCount + 1) % 2 ^ 32 ∧ s.m.clk.puntAt ≤ z.ns ∧ z.ns ≤ z.clk.puntAt ∧
          z.com.out = s.m.com.out ++
            [.punt s.m.puntPort (s.m.rd O.hpDest) (puntHeader x seq) x.data (s.m.puntTag (puntHeader x seq) seq x.data)])) ∧
  (∀ (s : State) (f : InjFrame) (pipe : Bool) (i : Instr), s.Live → i = (if pipe then .injectPipeline f else .injectPort f) →
    Completes i s fun m' =>
      (f.fifoFull = true → m' = s.m.bump O.mgtFifoDrop f.path) ∧
      (f.fifoFull = false → s.m.injTaken f = false → m' = s.m.bump O.mgtDiscard f.path) ∧
      (f.fifoFull = false → s.m.injTaken f = true → f.kind ≠ (if pipe then 1 else 2) → s.m.injFormOk f = false → m' = s.m.injMalformed)) ∧
  (∀ (s : State) (f : InjFrame) (pipe : Bool) (i : Instr) (x : HostPkt), s.Live → i = (if pipe then .injectPipeline f else .injectPort f) →
    f.kind = (if pipe then 2 else 1) → f.fifoFull = false → s.m.injTaken f = true → s.m.injFormOk f = true →
    x = { lif := f.lif, tc := f.tc, reason := 0, tenant := 0, ruleRef := 0, ts := 0, tag := f.seq, pipeline := pipe, data := f.data } →
    Completes i s fun m' =>
      (s.m.sesKeyed (s.m.rd O.hpSession) = false → m' = s.m.injRefuse Status.session.code) ∧
      (s.m.sesKeyed (s.m.rd O.hpSession) = true → s.m.opens (s.m.rd O.hpSession) (seqIv 2 (s.m.rd O.hpSession) f.seq) f.tag = true → s.m.clk.injHigh < f.seq →
        (s.m.injSeq f.seq).sesAccepts (s.m.rd O.hpSession) f.path f.src true = true → f.lif < 8192 →
        (s.mc.mode.forwards = false → m' = (s.m.injSeq f.seq).injFail s.mc x Status.mode.code) ∧
        (s.mc.mode.forwards = true → (pipe = true ∨ s.m.rd O.bpLinkState (s.m.lifPort f.lif) ≠ 0) →
          s.m.clk.injQ.foldl (fun a y => a + y.data.length) 0 + f.data.length ≤ 1048576 →
          m'.clk.injQ = s.m.clk.injQ ++ [x] ∧ m'.clk.injHigh = f.seq ∧ m'.com = s.m.com ∧ m'.dp = s.m.dp)) ∧
      (s.m.sesKeyed (s.m.rd O.hpSession) = true → s.m.opens (s.m.rd O.hpSession) (seqIv 2 (s.m.rd O.hpSession) f.seq) f.tag = true → f.seq ≤ s.m.clk.injHigh →
        s.m.sesAccepts (s.m.rd O.hpSession) f.path f.src true = true → m' = s.m.injRefuse Status.replay.code)) ∧
  (∀ (s : State), s.Live →
    Completes .injectDrain s fun m' =>
      (s.m.clk.injQ = [] → m' = s.m) ∧
      (∀ x r, s.m.clk.injQ = x :: r →
        ∃ n, n = { s.m.reach s.m.clk.injAt with
            clk.injQ := r
            clk.injAt := (s.m.reach s.m.clk.injAt).ns + paceNs (8 * x.data.length) (s.m.rd O.hpInjRate * 1000000) } ∧
          m' =
            if s.mc.mode.forwards = false then n.injFail s.mc x Status.mode.code
            else if x.pipeline = true then
              (n.bump O.hpInjSent x.tc).enter s.mc (s.m.lifPort x.lif) x.lif x.tc (n.com.frc + corrOf (s.m.rd O.tsRxCorr (s.m.lifPort x.lif)))
                (t96Of (n.adj + corrOf (s.m.rd O.tsRxCorr (s.m.lifPort x.lif)))) (s.m.flexMember (s.m.lifPort x.lif)) x.data
            else n.injectPort s.mc x))

/-! Ports (ch. 06). -/

/-- R186, R195 to R199: a monitored defect that the receiver's search and the rules of Table 6.4 bear out is set or cleared, and the ports it acts on are
judged anew; the reference of a shore die acts on all its ports, announced client identifiers on their group; one that is reserved, not monitored or
not borne out changes nothing. A port that is UP and loses its capability, with a down-hold, stands in DOWN-HOLD and has flapped; the holds end in DOWN and
UP; auto-negotiation restarts after 3 s. -/
def Obligations.PortDefectsAct : Prop :=
  (∀ (s : State) (b : Fin 1024) (x : DefectRep) (k : Nat) (on : Bool) (i : Instr), s.Live → k = x.bit.val →
    i = (if on then .defectRaise b x else .defectClear b x) →
    Completes i s fun m' =>
      (bit 0x11F03FF k = false ∨ s.m.monitored b k = false ∨ s.m.defectIs b on x = false → m' = s.m) ∧
      (bit 0x11F03FF k = true → s.m.monitored b k = true → s.m.defectIs b on x = true →
        (k = 0 → ∃ z, m' = (List.range 128).foldl (fun n j => n.linkEval s.mc (128 * (b.val / 128) + j)) z ∧ z.com = s.m.com ∧ z.dp = s.m.dp ∧
          z.tb.refLost.contains (b.val / 128) = on) ∧
        (k = 20 → s.m.rdB O.pgFlexe (b / 8) = true → m' = (s.m.flexHear (b / 8) x.ids).flexEval s.mc (b / 8)) ∧
        (k ≠ 0 → k ≠ 20 →
          ∃ z, m' = (reached b).foldl (fun n x => n.linkEval s.mc x) z ∧ z.com = s.m.com ∧
            (z.port b).defects = (if on then (s.m.port b).defects ||| 2 ^ k else (s.m.port b).defects &&& (2 ^ 32 - 1 - 2 ^ k)) ∧
            (z.port b).anAt = s.m.anFrom b k on ∧ ∀ x, x ≠ b.val → z.port x = s.m.port x))) ∧
  (∀ (s : State) (ses : Fin 64) (b : Fin 1024) (v : Nat), s.Live → s.Admits ses O.bpEnable b v →
    Completes (.bpEnableWrite ses b v) s fun m' =>
      m' = ((s.m.wr O.bpEnable b v).st .ok).linkEval s.mc b ∧
      (s.m.created b = true → ((s.m.wr O.bpEnable b v).st .ok).upCapable b = false → s.m.rd O.bpLinkState b = 3 → s.m.downHold b ≠ 0 →
        m'.rd O.bpEnable b = v ∧ m'.rd O.bpLinkState b = 1 ∧ (m'.port b).downAt = some s.m.ns ∧
        m'.rd O.bpFlaps b = (s.m.rd O.bpFlaps b + 1) % 2 ^ (8 * O.bpFlaps.len) ∧ m'.rd O.bpLastChange b = s.m.now)) ∧
  (∀ (s : State) (ses : Fin 64) (b : Fin 1024) (up : Bool) (v : Nat), s.Live → s.Admits ses (if up then O.bpUpHold else O.bpDownHold) b v →
    Completes (.bpHoldWrite ses b up v) s fun m' =>
      ∃ z, z.rd (if up then O.bpUpHold else O.bpDownHold) b = v ∧ z.com.status = .ok ∧ Leaves [0x40] s.m z ∧
        ((∀ j ∈ s.m.holds b, ∀ t, (if up then (s.m.port j).upAt else (s.m.port j).downAt) = some t → s.m.ns < t + 1000 * v) → m' = z) ∧
        (s.m.holds b = [b.val] → ∀ t, (if up then (s.m.port b).upAt else (s.m.port b).downAt) = some t → t + 1000 * v ≤ s.m.ns →
          m' = if up then z.upExpiry s.mc b else z.downExpiry s.mc b)) ∧
  (∀ (s : State) (b : Fin 1024), s.Live →
    Completes (.downHoldExpiry b) s fun m' =>
      ((s.m.port b).downAt = none ∨ s.m.rd O.bpLinkState b ≠ 1 → m' = s.m) ∧
      (∀ t, (s.m.port b).downAt = some t → s.m.rd O.bpLinkState b = 1 →
        m' = ((s.m.reach (t + s.m.downHold b)).setLink s.mc b 0).linkEval s.mc b)) ∧
  (∀ (s : State) (b : Fin 1024), s.Live →
    Completes (.upHoldExpiry b) s fun m' =>
      ((s.m.port b).upAt = none ∨ s.m.rd O.bpLinkState b ≠ 2 → m' = s.m) ∧
      (∀ t, (s.m.port b).upAt = some t → s.m.rd O.bpLinkState b = 2 → s.m.created b = true → s.m.upCapable b = true →
        m'.rd O.bpLinkState b = 3 ∧ t + s.m.upHold b ≤ m'.ns)) ∧
  (∀ (s : State) (b : Fin 1024), s.Live →
    Completes (.anRestart b) s fun m' =>
      ((s.m.port b).anAt = none ∨ bit (s.m.defectsOf b) 3 = false → m' = s.m) ∧
      (∀ t, (s.m.port b).anAt = some t → bit (s.m.defectsOf b) 3 = true →
        m'.rd O.bpAnRestarts b = (s.m.rd O.bpAnRestarts b + 1) % 2 ^ (8 * O.bpAnRestarts.len) ∧ (m'.port b).anAt = some m'.ns ∧
        t + 3000000000 ≤ m'.ns ∧ ∀ x, x ≠ b.val → m'.port x = s.m.port x))

/-- R201 to R203: a pause frame that the PCS delivers to a port in PAUSE mode pauses it for its quanta at the port's rate; the pause ends when they
run out; and an XOFF is sent again while the occupancy stays above BP-XON. R204, R205: at the end of a second the port's record holds what the second
brought, with the time at which it began and its class, and the bins follow it. -/
def Obligations.PauseAndSeconds : Prop :=
  (∀ (s : State) (b : Fin 1024) (opcode enable q : Nat), s.Live →
    Completes (.pauseRx b opcode enable [q]) s fun m' =>
      (s.m.pcsDelivers b = false → m' = s.m) ∧
      (s.m.pcsDelivers b = true → s.m.corrupts b = true → m' = (s.m.wireIn b 60).fcsFail s.mc b) ∧
      (s.m.pcsDelivers b = true → s.m.corrupts b = false → s.m.flexMember b = false → s.m.rd O.bpFcMode b = 1 → opcode = 1 →
        mget none (m'.port b).paused 8 = if q = 0 then none else some (s.m.ns + (q * 512 + s.m.portRate b - 1) / s.m.portRate b)) ∧
      (s.m.pcsDelivers b = true → s.m.flexMember b = true ∨ s.m.rd O.bpFcMode b = 0 ∨ (s.m.rd O.bpFcMode b = 1 ∧ opcode ≠ 1) →
        (m'.port b).paused = (s.m.port b).paused)) ∧
  (∀ (s : State) (b : Fin 1024) (k : Fin 8), s.Live →
    Completes (.pauseExpiry b k) s fun m' =>
      (∀ u, mget none (s.m.port b).paused k = some u → mget none (m'.port b).paused k = none ∧ u ≤ m'.ns ∧ ∀ x, x ≠ b.val → m'.port x = s.m.port x) ∧
      (mget none (s.m.port b).paused k = none → mget none (s.m.port b).paused 8 = none → m' = s.m)) ∧
  (∀ (s : State) (b : Fin 1024) (k : Fin 8), s.Live →
    Completes (.xoffRefresh b k) s fun m' =>
      (bit (s.m.port b).xoff k = true → 1024 * s.m.rd O.bpXon b < s.m.ingressOcc b k → s.m.rd O.bpFcMode b = 2 → s.m.flexMember b = false →
        s.m.linkSends b = true →
        (∃ l, m'.com.out = s.m.com.out ++ .pause b k (s.m.rd O.bpPauseQuanta b) :: l) ∧ (m'.port b).bwTx = (s.m.port b).bwTx + 84) ∧
      (bit (s.m.port b).xoff k = true → s.m.ingressOcc b k ≤ 1024 * s.m.rd O.bpXon b → m' = s.m)) ∧
  (∀ (s : State) (b : Fin 1024) (g f : PmInput), s.Live → f = s.m.pmSees b g →
    Completes (.pmSecond b g) s fun m' =>
      ∃ z n, n = max ((s.m.port b).secAt + 1) (s.m.adj / (1000000000 * 65536)).toNat ∧
        z.rd O.pmSecTime b = (s.m.port b).secStart.getD (t96Of (((n : Int) - 1) * (1000000000 * 65536))) ∧ z.rd O.pmSecCorrCw b = f.corrCw ∧ z.rd O.pmSecUncorrCw b = f.uncorrCw ∧
        z.rd O.pmSecCorrSym b = f.corrSym ∧ z.rd O.pmSecFcsErr b = (s.m.port b).fcs + f.fcsErr ∧
        z.rd O.pmSecClass b = s.m.secClass b f.uncorrCw ((s.m.port b).fcs + f.fcsErr) ∧ (z.port b).fcs = 0 ∧ s.m.com.frc ≤ z.com.frc ∧
        ∃ y, y = (if z.running .pgroup (b / 8) = true then z.fecDegrade s.mc b f.corrSym else z) ∧
          (n % 900 ≠ 0 → n % 86400 ≠ 0 → m' = y) ∧
          (n % 900 = 0 → n % 86400 ≠ 0 → m' = y.binClose b 0 32 900 y.now))

/-! Ingress, parsing and rules (chs. 06 to 08). -/

/-- R185, R195, R201, R207, R208, R212: what becomes of a frame at a port: lost with its calendar mismatched, lost in an overflowed FIFO, counted by the MAC
check it fails, consumed as a pause frame, lost for want of an interface, or entered with its class on the interface it belongs to. An entering frame joins
its FIFO at the tail or is shed. -/
def Obligations.FrameReceived : Prop :=
  (∀ (s : State) (b : Fin 1024) (client : Nat) (fcs ovf wrong : Bool) (d : List Byte), s.Live →
    wrong = (s.m.flexMember b && decide (client < 64) && s.m.clientWrong (b / 8) client) →
    Completes (.frameRx b client fcs ovf d) s fun m' =>
      (s.m.pcsDelivers b = false → m' = s.m) ∧
      (s.m.pcsDelivers b = true → wrong = true → m' = (s.m.bumpF O.flxClient (b / 8) client 4 4 (s.m.freeVal 32)).freed) ∧
      (s.m.pcsDelivers b = true → wrong = false → ovf = true →
        m' = ((s.m.wireIn b d.length).rsn s.mc 0x12 (s.m.cntPort b) 0).faultAt s.mc (288 + b / 8) 0x01 (b % 8)) ∧
      (s.m.pcsDelivers b = true → wrong = false → ovf = false → d.length + 4 < 64 → m' = (s.m.wireIn b d.length).portCnt s.mc b 6) ∧
      (s.m.pcsDelivers b = true → wrong = false → ovf = false → 16384 < d.length + 4 → m' = (s.m.wireIn b d.length).portCnt s.mc b 7) ∧
      (s.m.pcsDelivers b = true → wrong = false → ovf = false → 64 ≤ d.length + 4 → d.length + 4 ≤ 16384 → fcs = false ∨ s.m.corrupts b = true →
        (m'.port (s.m.cntPort b)).fcs = (s.m.port (s.m.cntPort b)).fcs + 1 ∧ m'.dp.pkts = s.m.dp.pkts) ∧
      (s.m.pcsDelivers b = true → wrong = false → ovf = false → 64 ≤ d.length + 4 → d.length + 4 ≤ 16384 → fcs = true → s.m.corrupts b = false →
        ∃ z, z = (s.m.wireIn b d.length).portFrame s.mc b 0 d ∧
          (oct d (if oct d 12 2 = 0x8100 then 16 else 12) 2 = 0x88B5 ∧ s.m.inbandOn = true ∧ s.m.inbandPort b = true → m' = s.m) ∧
          (¬ (oct d (if oct d 12 2 = 0x8100 then 16 else 12) 2 = 0x88B5 ∧ s.m.inbandOn = true ∧ s.m.inbandPort b = true) →
            (oct d 12 2 = 0x8808 →
              m' = z.pauseIn s.mc b (z.portRate b) (oct d 14 2) (oct d 16 2)
                (if oct d 14 2 = 1 then [oct d 16 2] else (List.range 8).map fun k => oct d (18 + 2 * k) 2)) ∧
            (oct d 12 2 ≠ 0x8808 → z.lifOf b client d = none → m' = (z.bump O.lifMiss (b / 8)).rsn s.mc 0x20 (s.m.cntPort b) 0) ∧
            (∀ l, oct d 12 2 ≠ 0x8808 → z.lifOf b client d = some l →
              m' = z.enter s.mc (s.m.cntPort b) l (z.tcOf l d) (z.com.frc + corrOf (z.rd O.tsRxCorr b)) (t96Of (z.adj + corrOf (z.rd O.tsRxCorr b)))
                (z.flexMember b) d)))) ∧
  (∀ (m : Mach) (c : ModeCtl) (b : Fin 1024) (l tc ts : Nat) (stamp : Int) (fx : Bool) (d : List Byte),
    (m.rd O.lifBinding l ≠ 31 → m.octsOf (m.rch (b / 128)).fifo + d.length ≤ 1024 * m.rd O.ppcShedAt (8 * (b / 128) + tc) →
      ((m.enter c b l tc stamp ts fx d).rch (b / 128)).fifo = (m.rch (b / 128)).fifo ++ [m.dp.pktNext] ∧
      (m.enter c b l tc stamp ts fx d).dp.pktNext = m.dp.pktNext + 1 ∧
      ∃ x, (m.enter c b l tc stamp ts fx d).pkt m.dp.pktNext = some x ∧ x.stage = .fifo ∧ x.data = d ∧ x.lif = l ∧ x.tc = tc ∧ x.at_ = m.ns) ∧
    (m.rd O.lifBinding l ≠ 31 → 1024 * m.rd O.ppcShedAt (8 * (b / 128) + tc) < m.octsOf (m.rch (b / 128)).fifo + d.length →
      m.enter c b l tc stamp ts fx d = (m.bump O.ppcShed (8 * (b / 128) + tc)).rsn c 0x12 b tc) ∧
    (m.rd O.lifBinding l = 31 → m.octsOf (m.rch (b / 128)).gfifo + d.length ≤ (if tc < 6 then 196608 else 262144) →
      ((m.enter c b l tc stamp ts fx d).rch (b / 128)).gfifo = (m.rch (b / 128)).gfifo ++ [m.dp.pktNext] ∧
      ∃ x, (m.enter c b l tc stamp ts fx d).pkt m.dp.pktNext = some x ∧ x.stage = .graphFifo ∧ x.data = d) ∧
    (m.rd O.lifBinding l = 31 → (if tc < 6 then 196608 else 262144) < m.octsOf (m.rch (b / 128)).gfifo + d.length →
      m.enter c b l tc stamp ts fx d = (m.bump O.gpfShed (b / 128)).rsn c 0x12 b tc))

/-- R209, R215, R226, R244, R424: the head of the pre-parse FIFO, or of the graph FIFO, takes a context on its binding with a cell of its own, while a
context is free and no earlier frame of its interface is held; a binding that is FAULTED, or STOPPED with DROP, has it dropped under 0x80 or 0x13, and
one without a quota or a cell is dropped under 0x40 or 0x41. R218, R226, R232, R331, R334: the end of a parse. A frame whose program drops it is gone
under 0x11; while every lane handle is held the others wait; one that goes on has its result vector, key and hashes, stands at the tail of its ordering
lane, and sends its flow query to its basin, or none under a stateless rule set. -/
def Obligations.ContextsAndParses : Prop :=
  (∀ (s : State) (r : Fin 8) (p : Nat) (t : List Nat) (x : Pkt) (k : Nat) (z : Mach) (i : Instr), s.Live → (s.m.rch r).rel = [] → s.m.pkt p = some x →
    x.reach = r → x.ebb = false →
    (i = .contextAssign r ∧ s.m.ctxBusy r < 768 ∧ (s.m.rch r).fifo = p :: t ∧ z = (s.m.setRch r { s.m.rch r with fifo := t }).delayMark x) ∨
      (i = .graphParseStart r ∧ (s.m.rch r).gpipe.length < 24 ∧ (k = 31 ∨ s.m.ctxBusy r < 768) ∧ (s.m.rch r).gfifo = p :: t ∧ z = s.m.setRch r { s.m.rch r with gfifo := t }) →
    k = z.rd O.lifBinding x.lif % 32 →
    Completes i s fun m' =>
      (z.meets (bindFn r k) = .faulted → m'.pkt p = none ∧ Drops s.mc p x 0x80 m') ∧
      (z.meets (bindFn r k) = .drop → m'.pkt p = none ∧ Drops s.mc p x 0x13 m') ∧
      (z.meets (bindFn r k) = .hold → s.mc.mode.forwards = false → m'.pkt p = none ∧ Drops s.mc p x 0x13 m') ∧
      (z.meets (bindFn r k) = .run → z.behindHeld p { x with binding := k } k = none →
        (x.data.length + 4 ≤ 16384 → z.quotaOk x.bport x.tc (x.data.length + 4) = false →
          ∃ n, Drops s.mc p x 0x40 n ∧ m' = n.bump O.bufrQuotaRefused r) ∧
        (x.data.length + 4 ≤ 16384 → z.quotaOk x.bport x.tc (x.data.length + 4) = true →
          (∀ n, z.cellAlloc r (x.data.length + 4) ⟨inOwner x.bport, x.bport, x.tc⟩ = (none, n) → Drops s.mc p x 0x41 m') ∧
          (∀ c n, z.cellAlloc r (x.data.length + 4) ⟨inOwner x.bport, x.bport, x.tc⟩ = (some c, n) →
            m'.pkt p = some (x.inContext n k c) ∧ (m'.rch r).gpipe = (s.m.rch r).gpipe ++ if k = 31 then [p] else [])))) ∧
  (∀ (s : State) (r : Fin 8), s.Live → 768 ≤ s.m.ctxBusy r → Completes (.contextAssign r) s fun m' => m' = s.m) ∧
  (∀ (s : State) (r : Fin 8), s.Live → (s.m.rch r).rel = [] → (s.m.rch r).gfifo = [] → Completes (.graphParseStart r) s fun m' => m' = s.m) ∧
  (∀ (s : State) (r : Fin 8) (p : Nat) (x : Pkt) (i : Instr) (ps : ParseSt) (f : Nat), s.Live → x.reach = r → s.m.pkt p = some x →
    (i = .parseComplete r p ∧ x.stage = .ctx) ∨ (i = .graphParseComplete r ∧ x.stage = .graph ∧ ∃ l, (s.m.rch r).gpipe = p :: l) →
    ps = s.m.parse (32 * x.reach + x.prog) x.data (s.m.com.free + 1) → f = fnNum .basin (s.m.server (s.m.homeBasin (s.m.laned x ps).hash)) →
    Completes i s fun m' =>
      (131072 ≤ s.m.handles r → ps.drop = false → ps.host = false ∨ s.m.puntOn = true → m' = s.m) ∧
      (ps.drop = true ∨ (ps.host = true ∧ s.m.puntOn = false) → m'.pkt p = none) ∧
      (s.m.handles r < 131072 → ps.drop = false → ps.host = false → resFlag (s.m.parsed x ps).res 15 = false → s.m.ptpPunts (s.m.parsed x ps) = false →
        (s.m.rsFlowIn (64 * r + s.m.rd O.lifRuleset x.lif % 64) = 1 →
          m'.pkt p = some (s.m.laned x ps) ∧
          ∀ k, (s.m.parsed x ps).lane = some k → mget [] m'.dp.lanes (4096 * r + k) = mget [] s.m.dp.lanes (4096 * r + k) ++ [p]) ∧
        (s.m.rsFlowIn (64 * r + s.m.rd O.lifRuleset x.lif % 64) ≠ 1 → s.m.noServer (s.m.homeBasin (s.m.laned x ps).hash) = false →
          s.m.cutOff r (2 * (s.m.server (s.m.homeBasin (s.m.laned x ps).hash) / 4)) = false →
          (s.m.flt.handback.any fun y => decide (y.1 = s.m.homeBasin (s.m.laned x ps).hash)) = false → s.m.meets f = .run →
          m'.pkt p = some { s.m.laned x ps with query := some s.m.ns, parked := false } ∧
          ∃ n, (m'.chan n).msgs = (s.m.chan n).msgs ++ [.query (s.m.homeBasin (s.m.laned x ps).hash) p (queryMsg p (s.m.laned x ps))])))

/-- R244, R245, R247, R248, R261 to R267: a packet that finds a slot and meets a rule set that runs begins its pass there with its route and exact lookups,
and one that meets a FAULTED or dropping set is gone; a pass that denies drops under 0x20, one that names a further pass puts the packet in the
backwater, or drops it under 0x22 at the limits, and one that ends with a destination leaves it ready, with its result sent where it has a query. R270,
R271: the packet at the head of the backwater goes on where every generation it recorded still stands; otherwise it starts again, once, and a second
time is dropped under 0x21. -/
def Obligations.PassesAndBackwater : Prop :=
  (∀ (s : State) (r : Fin 8) (p : Nat) (x : Pkt) (set : Nat), s.Live → s.m.pkt p = some x → x.reach = r → x.stage = .parsed →
    set = (if x.w.pass = 0 then s.m.rd O.lifRuleset x.lif % 64 else x.w.set) →
    Completes (.passStart r p) s fun m' =>
      (s.m.laneFree x = false → m' = s.m) ∧
      (s.m.laneFree x = true → s.m.meets (fnNum .ruleset (64 * r + set)) = .run →
        m'.pkt p = some { x with
          stage := .pass, inCtx := false, again := false, look := some (s.m.passLook x (64 * r + set))
          w := { x.w with set := set, bypass := false, gens := x.w.gens ++ [(64 * r.val + set, s.m.rd O.rsGen (64 * r + set))] } } ∧
        m'.rd O.passes r = (s.m.rd O.passes r + 1) % 2 ^ (8 * O.passes.len)) ∧
      (s.m.laneFree x = true → s.m.meets (fnNum .ruleset (64 * r + set)) = .bypass →
        m'.pkt p = some { x with
          stage := .pass, inCtx := false, again := false, look := none
          w := { x.w with set := set, bypass := true, gens := x.w.gens ++ [(64 * r.val + set, 0)] } }) ∧
      (s.m.laneFree x = true → s.m.meets (fnNum .ruleset (64 * r + set)) = .faulted → Drops s.mc p x 0x80 m') ∧
      (s.m.laneFree x = true → s.m.meets (fnNum .ruleset (64 * r + set)) = .drop → Drops s.mc p x 0x13 m') ∧
      (s.m.laneFree x = true → s.m.meets (fnNum .ruleset (64 * r + set)) = .hold → s.mc.mode.forwards = false → Drops s.mc p x 0x13 m')) ∧
  (∀ (s : State) (r : Fin 8) (p : Nat) (x : Pkt) (a : PassSt) (z : Mach), s.Live → s.m.pkt p = some x → x.reach = r → x.stage = .pass →
    s.m.passRun x = (a, z) →
    Completes (.passEnd r p) s fun m' =>
      (a.deny = true → Drops s.mc p { x with w := a.w } 0x20 m') ∧
      (∀ n, a.deny = false → a.next = some n → a.w.pass < z.rd O.bwPassMax r → (z.rch r).water.length < 4096 →
        m'.pkt p = some { x with stage := .water, w := { a.w with pass := a.w.pass + 1, set := n } } ∧ (m'.rch r).water = (z.rch r).water ++ [p]) ∧
      (∀ n, a.deny = false → a.next = some n → z.rd O.bwPassMax r ≤ a.w.pass →
        ∃ n', Drops s.mc p { x with w := a.w } 0x22 n' ∧ m' = n'.bump O.bwPassLimit r) ∧
      (∀ n, a.deny = false → a.next = some n → a.w.pass < z.rd O.bwPassMax r → 4096 ≤ (z.rch r).water.length →
        ∃ n', Drops s.mc p { x with w := a.w } 0x22 n' ∧ m' = n'.bump O.bwFullDrop r) ∧
      (∀ d y, a.deny = false → a.next = none → d = (if x.pdelay = true then 3 * 2 ^ 28 else z.resolve r a.w.dest x.spread) →
        y = { x with stage := .ready, w := { a.w with dest := d, ref := if x.pdelay = true then 0 else a.w.ref } } →
        (d / 2 ^ 28 = 0 ∨ (d / 2 ^ 28 = 3 ∧ z.puntOn = false ∧ x.query = none) → Drops s.mc p y 0x20 m') ∧
        (d / 2 ^ 28 = 5 → x.query = none → ∃ n', Drops s.mc p y 0x20 n' ∧ m' = n'.bump O.backendNoFlow r) ∧
        (d / 2 ^ 28 ≠ 0 → d / 2 ^ 28 ≠ 5 → d / 2 ^ 28 ≠ 3 ∨ z.puntOn = true → x.query = none →
          m'.pkt p = some y ∧ m'.dp.rch = s.m.dp.rch ∧ m'.com.fns = s.m.com.fns) ∧
        (d / 2 ^ 28 ≠ 0 → x.query.isSome = true → m'.pkt p = some { y with result := true }))) ∧
  (∀ (s : State) (r : Fin 8) (p : Nat) (x : Pkt) (z : Mach), s.Live → s.m.pkt p = some x → x.reach = r → x.stage = .water →
    z = s.m.setRch r { s.m.rch r with water := (s.m.rch r).water.filter (· ≠ p) } →
    Completes (.backwaterReentry r p) s fun m' =>
      ((s.m.rch r).water.head? ≠ some p → m' = s.m) ∧
      ((s.m.rch r).water.head? = some p → s.m.gensOk x = true → m' = z.setPkt p (some { x with stage := .parsed, again := true })) ∧
      ((s.m.rch r).water.head? = some p → s.m.gensOk x = false → x.w.restarted = true → ∃ n, Drops s.mc p x 0x21 n ∧ m' = n.bump O.genDrop r) ∧
      ((s.m.rch r).water.head? = some p → s.m.gensOk x = false → x.w.restarted = false →
        m'.pkt p = some { x with stage := .parsed, again := true, w := { tc := x.tc, set := s.m.rd O.lifRuleset x.lif % 64, restarted := true } } ∧
        m'.rd O.genRestart r = (s.m.rd O.genRestart r + 1) % 2 ^ (8 * O.genRestart.len)))

/-! The flow path in the reaches (ch. 10). -/

/-- R299, R341: a verdict that its packet waits for is joined to it; one no longer waited for is discarded; and a lane head whose verdict does not
come in VERDICT-WAIT-MAX is dropped under 0x80 and its basin reported. R332, R228, R448: the head of a lane leaves when its result is final and its
verdict has come, and until then nothing does; with no policer it goes on at once, punted where its destination is the host. -/
def Obligations.VerdictsAndLanes : Prop :=
  (∀ (s : State) (r : Fin 8) (p : Nat), s.Live →
    Completes (.verdictArrival r p) s fun m' =>
      ∀ (v : Nat) (z : Mach), s.m.takeMsg (chansTo r) (fun x => match x with | .verdict q _ => decide (q = p) | _ => false) = some (.verdict p v, z) →
        (s.m.pkt p = none → m' = z) ∧
        (∀ x, s.m.pkt p = some x → ¬ (x.reach = r ∧ x.stage = .ready ∧ x.query.isSome = true ∧ x.verdict = none) → m' = z) ∧
        (∀ x w, s.m.pkt p = some x → x.reach = r → x.stage = .ready → x.query.isSome = true → x.verdict = none →
          w = { x.w with
            dest := if vFlag v 4 = true ∧ x.pdelay = false then fld 32 v 8 4 else x.w.dest
            dscp := if vFlag v 2 = true ∧ fld 32 v 7 1 ≠ 0xFF then some (fld 32 v 7 1) else x.w.dscp } →
          (vFlag v 5 = true → Drops s.mc p x (fld 32 v 5 1) m') ∧
          (vFlag v 5 = false → x.w.dest / 2 ^ 28 = 5 → vFlag v 4 = false ∨ vFlag v 1 = true →
            ∃ n, Drops s.mc p x 0x20 n ∧ m' = n.bump O.bsnBackendUnpinned (z.homeBasin x.hash)) ∧
          (vFlag v 5 = false → ¬ (x.w.dest / 2 ^ 28 = 5 ∧ (vFlag v 4 = false ∨ vFlag v 1 = true)) →
            (w.dest / 2 ^ 28 = 3 → z.puntOn = false → Drops s.mc p x 0x20 m') ∧
            (w.dest / 2 ^ 28 ≠ 3 ∨ z.puntOn = true → m'.pkt p = some { x with verdict := some v, w := w } ∧
              (vFlag v 1 = false → m' = z.setPkt p (some { x with verdict := some v, w := w })))))) ∧
  (∀ (s : State) (r : Fin 8) (lane : Fin 4096) (p : Nat) (l : List Nat) (x : Pkt), s.Live →
    mget [] s.m.dp.lanes (4096 * r + lane) = p :: l → s.m.pkt p = some x →
    Completes (.verdictWaitLane r lane) s fun m' =>
      (x.query = none ∨ x.verdict ≠ none → m' = s.m) ∧
      ∀ t, x.query = some t → x.verdict = none → m'.pkt p = none ∧ t + 1000 * s.m.rd O.verdictWaitMax ≤ m'.ns ∧
      ∃ n, Drops s.mc p x 0x80 n ∧ m' = (n.bump O.laneVerdictLate r).faultAt s.mc (192 + 4 * (s.m.reach (t + 1000 * s.m.rd O.verdictWaitMax)).homeBasin x.hash) 0x09 r) ∧
  (∀ (s : State) (r : Fin 8) (lane : Fin 4096) (p : Nat) (l : List Nat) (x : Pkt), s.Live →
    mget [] s.m.dp.lanes (4096 * r + lane) = p :: l → s.m.pkt p = some x →
    Completes (.laneRelease r lane) s fun m' =>
      (x.stage ≠ .ready ∨ (x.query.isSome = true ∧ x.verdict = none) → m' = s.m) ∧
      (x.stage = .ready → x.query = none ∨ x.verdict ≠ none → x.w.pol = none →
        ∃ z, z = (s.m.leaveLane p x).setPkt p (some { x with lane := none, query := none }) ∧
          m' = z.goOn s.mc p { x with lane := none, query := none } ∧
          (x.reach = r → x.lane = some lane.val → mget [] z.dp.lanes (4096 * r + lane) = (p :: l).filter (· ≠ p)) ∧
          (x.w.copy = none → x.w.dest / 2 ^ 28 = 3 → z.puntOn = false → Drops s.mc p { x with lane := none, query := none } 0x20 m')))

/-! The switch core (ch. 14). -/

/-- R442 to R444: a channel whose set runs sends the head packet of the one VOQ that can send, once its data path is free: it leaves the VOQ, is in flight on
the channel, which its 384 octets in a cycle keep busy, and its octets with their overhead are counted; with none ready, or a closed channel, nothing is sent. -/
def Obligations.ChannelSends : Prop :=
  ∀ (s : State) (ch : Fin 256), s.Live →
    Completes (.channelSend ch) s fun m' =>
      (s.m.running .voq (ch / 32) = false ∨ s.m.chanOpen ch = false ∨ s.m.chanReady ch = [] → m' = s.m) ∧
      (∀ n v t x, s.m.running .voq (ch / 32) = true → s.m.chanOpen ch = true → s.m.chanReady ch = [n] → (s.m.voq (ch / 32) n).q = v :: t →
        s.m.pkt v.pkt = some x →
        (m'.voq (ch / 32) n).q = t ∧ (m'.chan ch).flight = (s.m.chan ch).flight ++ [{ copyOf v.pkt x v n with sent := m'.ns }] ∧
        m'.com.frc = max s.m.com.frc (s.m.chan ch).busy ∧
        (m'.chan ch).busy = m'.com.frc + (x.data.length + 4 + 16 + 383) / 384 * s.m.chanCycle ch * 65536 / 1000 ∧
        m'.rd O.chOctets ch = (s.m.rd O.chOctets ch + (x.data.length + 4 + 16)) % 2 ^ (8 * O.chOctets.len))

/-- R452 to R454: a request's arrival sets or clears the pending flag of its pair; a grant goes to the one pending pair that is eligible, raises OUT by
GRANT-SIZE and is counted; its arrival adds credit to its VOQ; and a return lowers OUT, but not that of a port that is DOWN. Without a message, or a pending pair, nothing happens. -/
def Obligations.RequestAndGrant : Prop :=
  (∀ (s : State) (e : Fin 8), s.Live →
    Completes (.voqRequestArrival e) s fun m' =>
      (s.m.takeMsg (chansTo e) (fun x => match x with | .request .. => true | _ => false) = none → m' = s.m) ∧
      (∀ i n b z, s.m.takeMsg (chansTo e) (fun x => match x with | .request .. => true | _ => false) = some (.request i n b, z) →
        m' = { z with dp.flags := mset false z.dp.flags (8256 * i + n) b } ∧ mget false m'.dp.flags (8256 * i + n) = b)) ∧
  (∀ (s : State) (e : Fin 8), s.Live →
    Completes (.grantIssue e) s fun m' =>
      (s.m.dp.flags = [] → m' = s.m) ∧
      (∀ (i : Fin 8) (n : Fin 8192), s.m.dp.flags = [(8256 * i.val + n.val, true)] → n.val / 1024 = e → s.m.grantable e n = true →
        mget 0 m'.dp.out (8 * n + i) = mget 0 s.m.dp.out (8 * n + i) + s.m.rd O.gntSize ∧ (m'.rch e).gntRot = n + 1 ∧
        m'.rd O.gntIssued e = (s.m.rd O.gntIssued e + 1) % 2 ^ (8 * O.gntIssued.len) ∧
        (m'.chan (s.m.chanFor e i (voqChan n))).msgs = (s.m.chan (s.m.chanFor e i (voqChan n))).msgs ++ [.grant n (s.m.rd O.gntSize)])) ∧
  (∀ (s : State) (i : Fin 8), s.Live →
    Completes (.grantArrival i) s fun m' =>
      (s.m.takeMsg (chansTo i) (fun x => match x with | .grant .. => true | _ => false) = none → m' = s.m) ∧
      (∀ n k z, s.m.takeMsg (chansTo i) (fun x => match x with | .grant .. => true | _ => false) = some (.grant n k, z) →
        (n < 8192 → mget 0 (s.m.rch i).view (n / 8) = 0 → m' = z) ∧
        (¬ (n < 8192 ∧ mget 0 (s.m.rch i).view (n / 8) = 0) → s.m.fst (fnNum .voq i) ≠ .stopped → (s.m.voq i n).q ≠ [] →
          (m'.voq i n).credit = (s.m.voq i n).credit + k ∧ (m'.voq i n).q = (s.m.voq i n).q))) ∧
  (∀ (s : State) (e : Fin 8), s.Live →
    Completes (.creditReturn e) s fun m' =>
      (s.m.takeMsg (chansTo e) (fun x => match x with | .ret .. => true | _ => false) = none → m' = s.m) ∧
      (∀ i n k z, s.m.takeMsg (chansTo e) (fun x => match x with | .ret .. => true | _ => false) = some (.ret i n k, z) →
        mget 0 m'.dp.out (8 * n + i) = mget 0 s.m.dp.out (8 * n + i) - (if n < 8192 ∧ s.m.rd O.bpLinkState (n / 8) = 0 then 0 else (k : Int)) ∧ m'.com = z.com))

/-- R443, R447, R457, R459 to R461, R465: packets arrive at their egress reach in rotation over the channels, a unicast one with a cell in its queue;
multicast packets are replicated member by member and end in DONE, which frees the source's cell; a port's state is seen when it arrives; and a set
stopped under DROP sheds its heads. -/
def Obligations.EgressReached : Prop :=
  (∀ (s : State) (e : Fin 8), s.Live →
    Completes (.egressArrival e) s fun m' =>
      ((∀ j < 32, (s.m.chan (chanNum (j / 4) e (j % 4))).flight = []) → m' = s.m) ∧
      (∀ j x t n, (((List.range 32).map fun j => ((s.m.rch e).rxRot + j) % 32).find?
          fun j => !(s.m.chan (chanNum (j / 4) e (j % 4))).flight.isEmpty) = some j → n = chanNum (j / 4) e (j % 4) → (s.m.chan n).flight = x :: t →
        ∃ z, z = (((s.m.setChan n { s.m.chan n with flight := t }).setRch e { s.m.rch e with rxRot := (j + 1) % 32 }).outLower x.inReach x.voq
            (x.data.length + 4)).chanWait n (x.sent + chanTransit n) ∧ (z.chan n).flight = t ∧
          (z.isolated .reach e = false → x.kind = 0 → s.m.rd O.bpLinkState (x.voq / 8) = 0 →
            m' = ((z.metPort (x.voq / 8)).rsn s.mc 0x51 (x.voq / 8) x.tc).bump O.voqFlushed e) ∧
          (∀ y, z.isolated .reach e = false → x.kind = 0 → s.m.rd O.bpLinkState (x.voq / 8) ≠ 0 →
            z.cellAlloc e (z.cellNeed e x.rw x.data.length) ⟨18 + x.inReach, x.voq / 8, x.tc⟩ = (none, y) →
            m' = (y.bump O.rxRefused e).rsn s.mc 0x41 (x.voq / 8) x.tc) ∧
          (∀ y, z.isolated .reach e = false → x.kind = 2 → z.cellAlloc e (z.cellNeed e x.rw x.data.length) ⟨42, x.voq / 8, x.tc⟩ = (none, y) →
            m' = ((y.bump O.rxRefused e).mcRefuseAll s.mc e x.group x.inLif x.tc).postDone e x) ∧
          (∀ c y, z.isolated .reach e = false → x.kind = 0 → s.m.rd O.bpLinkState (x.voq / 8) ≠ 0 →
            z.cellAlloc e (z.cellNeed e x.rw x.data.length) ⟨18 + x.inReach, x.voq / 8, x.tc⟩ = (some c, y) →
            m' = y.toQueue s.mc { x with cell := some c } (18 + x.inReach)) ∧
          (∀ c y, z.isolated .reach e = false → x.kind = 2 →
            z.cellAlloc e (z.cellNeed e x.rw x.data.length) ⟨42, x.voq / 8, x.tc⟩ = (some c, y) →
            (m'.rch e).mcq = (y.rch e).mcq ++ [{ x with cell := some c }]))) ∧
  (∀ (s : State) (e : Fin 8), s.Live →
    Completes (.skipArrival e) s fun m' =>
      (s.m.takeMsg (chansTo e) (fun x => match x with | .skip .. => true | _ => false) = none → m' = s.m) ∧
      (∀ i p g cls x z, s.m.takeMsg (chansTo e) (fun x => match x with | .skip .. => true | _ => false) = some (.skip i p g cls, z) →
        s.m.pkt p = some x → m' = (z.mcRefuseAll s.mc e g x.lif cls).post e i (flowChan x.hash) (.done p e))) ∧
  (∀ (s : State) (e : Fin 8), s.Live →
    Completes (.mcReplicate e) s fun m' =>
      ((s.m.rch e).repl = none → (s.m.rch e).mcq = [] → m' = s.m) ∧
      (∀ x, (s.m.rch e).repl = some x →
        ((List.range (fld 8 x.group 4 2)).find? fun k => decide (x.next ≤ k) && s.m.mcLive e x.group k x.copy.inLif) = none →
        (m'.rch e).repl = none) ∧
      (∀ x k, (s.m.rch e).repl = some x →
        ((List.range (fld 8 x.group 4 2)).find? fun k => decide (x.next ≤ k) && s.m.mcLive e x.group k x.copy.inLif) = some k →
        k + 1 ≠ fld 8 x.group 4 2 → ∃ y, (m'.rch e).repl = some y ∧ y.next = k + 1 ∧ y.copy = x.copy ∧ y.group = x.group)) ∧
  (∀ (s : State) (i : Fin 8), s.Live →
    Completes (.doneArrival i) s fun m' =>
      (s.m.takeMsg (chansTo i) (fun x => match x with | .done .. => true | _ => false) = none → m' = s.m) ∧
      (∀ p e x z, s.m.takeMsg (chansTo i) (fun x => match x with | .done .. => true | _ => false) = some (.done p e, z) → s.m.pkt p = some x →
        (x.refs = 0 → x.done = [e] → m'.pkt p = none) ∧
        (x.refs ≠ 0 ∨ x.done.erase e ≠ [] → m'.pkt p = some { x with done := x.done.erase e }))) ∧
  (∀ (s : State) (r : Fin 8), s.Live →
    Completes (.portStateArrival r) s fun m' =>
      (s.m.takeMsg (chansTo r) (fun x => match x with | .portState .. => true | _ => false) = none → m' = s.m) ∧
      (∀ b st z, s.m.takeMsg (chansTo r) (fun x => match x with | .portState .. => true | _ => false) = some (.portState b st, z) → st ≠ 0 →
        mget 0 (m'.rch r).view b = st ∧ m'.dp.voqs = s.m.dp.voqs)) ∧
  (∀ (s : State) (r : Fin 8), s.Live →
    Completes (.voqDropDequeue r) s fun m' =>
      ((s.m.fst (fnNum .voq r) ≠ .stopping ∧ s.m.fst (fnNum .voq r) ≠ .stopped) ∨ (s.m.fn (fnNum .voq r)).disp ≠ 2 → m' = s.m) ∧
      (∀ n v t, s.m.fst (fnNum .voq r) = .stopped → (s.m.fn (fnNum .voq r)).disp = 2 →
        ((s.m.voqsOf r).filter fun n => !(s.m.voq r n).q.isEmpty) = [n] → (s.m.voq r n).q = v :: t → (m'.voq r n).q = t))

/-! Egress (ch. 15). -/

/-- R479 to R481, R47: a list that does not run or a link that does not send schedules nothing; else, of the classes from ES-STRICT-FROM up, the highest
with an eligible queue is served, and serving takes the head of the queue picked into the crossing FIFO, once that has room for it. R49, R490, R508,
R520: the frame at the head of a sending port's crossing FIFO starts once the one before it has ended, when its gate fits it, and is sent with
what PTP writes into it; a link that does not send, or a list that does not run (R494), starts nothing. -/
def Obligations.EgressServes : Prop :=
  (∀ (s : State) (b : Fin 1024), s.Live →
    Completes (.schedDecision b) s fun m' =>
      (s.m.running .egress b = false ∨ s.m.linkSends b = false → m' = s.m) ∧
      ∀ z, s.m.running .egress b = true → s.m.linkSends b = true → z = (s.m.gateDrops s.mc b).gateWaits b →
        (z.eligible b = [] → m' = z) ∧
        (∀ k q qd x r,
          ((List.range 8).reverse.find? fun j => decide (z.rd O.esStrictFrom b ≤ j) && (z.eligible b).any fun y => decide (y.1 % 8 = j)) = some k →
          z.queuePick b k (z.eligible b) = some (q, qd) → z.eq q = x :: r →
          (24576 < z.txOcc (b / 8) + (x.data.length + 4) → m' = z) ∧
          (z.txOcc (b / 8) + (x.data.length + 4) ≤ 24576 →
            m'.eq q = r ∧ (m'.port b).txf = (z.port b).txf ++ [{ x with cell := none }] ∧ mget none (m'.port b).qturn k = some q))) ∧
  (∀ (s : State) (b : Fin 1024), s.Live →
    Completes (.pcsFrameStart b) s fun m' =>
      ((s.m.port b).txf = [] ∨ s.m.linkSends b = false ∨ s.m.running .egress b = false → m' = s.m) ∧
      (∀ x r z, (s.m.port b).txf = x :: r → s.m.linkSends b = true → s.m.running .egress b = true → z = s.m.reach (s.m.port b).txEnd →
        (z.gateOn b = true → z.gateFits b x.tc x.data.length = false →
          m' = if x.late = true then z else (z.setPort b { z.port b with txf := { x with late := true } :: r }).bump O.esGateLate b) ∧
        (z.gateOn b = false ∨ z.gateFits b x.tc x.data.length = true →
        (m'.port b).txf = r ∧ (m'.port b).txCls = x.tc ∧ (s.m.port b).txEnd ≤ m'.ns ∧ m'.ns ≤ (m'.port b).txEnd ∧
        (∃ l, m'.com.out = s.m.com.out ++ .frame b (z.ptpOut x b).1 :: l) ∧
        m'.rd O.esSent b = (s.m.rd O.esSent b + 1) % 2 ^ (8 * O.esSent.len))))

/-- R483, R484, R491, R494: a refill gives the tokens of every period since the last and, with nothing pending, only that; a list stopped under DROP
sheds the head of the one queue it serves under 0x13; a gate list written takes force at once where the egress list is STOPPED and the gate list valid,
or no gates act, waits for STOPPED or RUNNING where it is neither, else waits for its cycle, and lands there. -/
def Obligations.ShapersAndGates : Prop :=
  (∀ (s : State) (b : Fin 1024), s.Live → s.m.pendOf O.esPshapeRate b = none → s.m.pendOf O.esPshapeBurst b = none →
    Completes (.shaperRefill b none) s fun m' =>
      (m'.port b).tokAt = m'.ns ∧ s.m.port b = { m'.port b with tok := (s.m.port b).tok, tokAt := (s.m.port b).tokAt } ∧
      (m'.port b).tok = max 0 ((s.m.port b).tok - (s.m.rd O.esPshapeRate b * 8 * (m'.ns / 64 - (s.m.port b).tokAt / 64) : Nat)) ∧
      (s.m.port b).tokAt / 64 < m'.ns / 64 ∧ m'.com.objs = s.m.com.objs) ∧
  (∀ (s : State) (b : Fin 1024) (q : Fin 65536), s.Live → s.m.pendEnt O.lifQueue 0 q = none →
    Completes (.shaperRefill b (some q)) s fun m' =>
      if s.m.lifPort (q / 8) = b then
        mget 0 m'.dp.qtokAt q = m'.ns ∧ mget 0 s.m.dp.qtokAt q / 1024 < m'.ns / 1024 ∧
        mget 0 m'.dp.qtok q =
          max 0 (mget 0 s.m.dp.qtok q - (s.m.entF O.lifQueue 0 q 4 4 * 128 * (m'.ns / 1024 - mget 0 s.m.dp.qtokAt q / 1024) : Nat))
      else m' = s.m) ∧
  (∀ (s : State) (b : Fin 1024), s.Live →
    Completes (.egressDropDequeue b) s fun m' =>
      ((s.m.fst (fnNum .egress b) ≠ .stopping ∧ s.m.fst (fnNum .egress b) ≠ .stopped) ∨ (s.m.fn (fnNum .egress b)).disp ≠ 2 → m' = s.m) ∧
      (∀ q x r, s.m.fst (fnNum .egress b) = .stopped → (s.m.fn (fnNum .egress b)).disp = 2 → s.m.portQueues b = [(q, x :: r)] →
        m' = (((s.m.setPort b { s.m.port b with dropRot := q + 1 }).setEq q r).eqLess b q).copyDrop s.mc b x 0x13 ∧ m'.eq q = r)) ∧
  (∀ (s : State) (ses : Fin 64) (b : Fin 1024) (v : Nat), s.Live → s.Admits ses O.esGateUse b v →
    Completes (.gateUseWrite ses b v) s fun m' =>
      if s.m.running .egress b = true ∧ s.m.gateOn b = true then
        m'.com.status = .deferred ∧ m'.pendOf O.esGateUse b = some v ∧ m'.rd O.esGateActive b = s.m.rd O.esGateActive b ∧
        (m'.port b).gateAt = some (s.m.cycleFrom (2 * b + v) (((s.m.adj + 65535) / 65536).toNat + 10000))
      else if s.m.fst (fnNum .egress b) ≠ .running ∧ s.m.fst (fnNum .egress b) ≠ .stopped ∧ s.m.rdB O.esGateEn b = true then
        m' = (s.m.setPend O.esGateUse b (some v)).st .deferred
      else if s.m.fst (fnNum .egress b) = .stopped ∧ s.m.rdB O.esGateEn b = true ∧ s.m.gclValid (2 * b + v) = false then m' = s.m.st .range
      else m'.com.status = .ok ∧ m'.rd O.esGateUse b = v ∧ m'.rd O.esGateActive b = v ∧ m'.pendOf O.esGateUse b = none ∧ m'.dp = s.m.dp ∧
        m'.com.fns = s.m.com.fns ∧ ObjsBut [0x90] s.m m') ∧
  (∀ (s : State) (b : Fin 1024), s.Live →
    Completes (.gateSwitchLand b) s fun m' =>
      ((s.m.port b).gateAt = none ∨ s.m.pendOf O.esGateUse b = none → m' = s.m) ∧
      (∀ t v, (s.m.port b).gateAt = some t → s.m.pendOf O.esGateUse b = some v →
        m'.pendOf O.esGateUse b = none ∧ (m'.port b).gateAt = none ∧ m'.rd O.esGateLand b = 0 ∧
        (s.m.gclValid (2 * b + v) = true → m'.rd O.esGateActive b = v) ∧
        (s.m.gclValid (2 * b + v) = false → m'.rd O.esGateActive b = s.m.rd O.esGateActive b)))

/-! Time (ch. 16). -/

/-- R499: the anchor point of a change acknowledged at an FRC is the first whole multiple of 8,192 ns that is at least 4 µs later. -/
def Obligations.AnchorPoint : Prop :=
  ∀ frc : Nat, anchorOf frc % (8192 * 65536) = 0 ∧ frc + 4000 * 65536 ≤ anchorOf frc ∧
    ∀ a, a % (8192 * 65536) = 0 → frc + 4000 * 65536 ≤ a → anchorOf frc ≤ a

/-- R499: an admitted TB-RATE waits for its anchor point; an admitted step waits for its own, unless one is pending, which draws BUSY, or it would
bring adjusted time below 0, which draws RANGE. R497, R499: a landing point moves FRC to the anchor, never back. A rate that lands there is in force
from it, with adjusted time unbroken; with nothing pending nothing happens. -/
def Obligations.TimeWritesLand : Prop :=
  (∀ (s : State) (ses : Fin 64) (v : Nat), s.Live → s.Admits ses O.tbRate 0 v →
    Completes (.tbRateWrite ses v) s fun m' =>
      m'.com.status = .deferred ∧ m'.pendOf O.tbRate = some v ∧ m'.rateAnchor = some (anchorOf s.m.com.frc) ∧ m'.adj = s.m.adj ∧
      m'.com.objs = s.m.com.objs ∧ m'.dp = s.m.dp) ∧
  (∀ (s : State) (ses : Fin 64) (v : Nat) (i : Instr) (o : ObjDef) (x : TbStep), s.Live → s.Admits ses o 0 v →
    (i = .tbAdjust ses v ∧ o = O.tbAdjust ∧ x = .adjust (sgn 64 v)) ∨ (i = .tbSet ses v ∧ o = O.tbSet ∧ x = .set v) ∨
      (i = .tbSetAtPps ses v ∧ o = O.tbSetAtPps ∧ x = .setAtPps v) →
    Completes i s fun m' =>
      if s.m.tb.step ≠ none then m' = s.m.st .busy
      else if o = O.tbAdjust ∧ s.m.adjLanding (anchorOf s.m.com.frc) + sgn 64 v * 65536 < 0 then m' = s.m.st .range
      else m'.com.status = .deferred ∧ m'.tb.step = some x ∧ m'.tb.stepAt = s.m.com.frc ∧ m'.adj = s.m.adj ∧ m'.com.objs = s.m.com.objs ∧ m'.dp = s.m.dp) ∧
  (∀ (s : State), s.Live →
    Completes .anchorLanding s fun m' =>
      (s.m.pendOf O.tbRate = none → s.m.stepAnchor = none → m' = s.m) ∧
      (∀ v, s.m.pendOf O.tbRate = some v → s.m.stepAnchor = none → s.m.landOk O.tbRate 0 v = true →
        m'.com.frc = max s.m.com.frc (anchorOf s.m.tb.rateAt) ∧ m'.tb.rate = sgn 64 v ∧ m'.pendOf O.tbRate = none ∧ m'.rd O.tbRate = v ∧
        m'.adjAt (anchorOf s.m.tb.rateAt) = s.m.adjAt (anchorOf s.m.tb.rateAt)))

/-- R501 to R503: an accepted edge of PPS-IN is latched with FRC and adjusted time and counted, one within 500 ms of it is spurious; PPS-OUT rises at
its target unless an edge was less than 500 ms ago and falls PPS-OUT-WIDTH later; loss of the reference is a TIMEBASE fault in holdover. R511, R512:
TS-TXQ-NEXT gives the oldest result and takes it off the queue, or an entry of STATUS EMPTY. -/
def Obligations.PulsesReferenceStamps : Prop :=
  (∀ (s : State) (rising : Bool), s.Live →
    Completes (.ppsInEdge rising) s fun m' =>
      (¬ ((s.m.rd O.ppsInEdge = 1 ∧ rising = true) ∨ (s.m.rd O.ppsInEdge = 2 ∧ rising = false)) → m' = s.m) ∧
      (((s.m.rd O.ppsInEdge = 1 ∧ rising = true) ∨ (s.m.rd O.ppsInEdge = 2 ∧ rising = false)) → (∀ t, s.m.tb.step ≠ some (.setAtPps t)) →
        (s.m.within500 s.m.tb.ppsLast = true →
          m'.rd O.ppsInSpurious = (s.m.rd O.ppsInSpurious + 1) % 2 ^ (8 * O.ppsInSpurious.len) ∧ m'.rd O.ppsInCount = s.m.rd O.ppsInCount) ∧
        (s.m.within500 s.m.tb.ppsLast = false →
          m'.rd O.ppsInFrc = s.m.ns ∧ m'.rd O.ppsInTime = s.m.now ∧ m'.rd O.ppsInCount = (s.m.rd O.ppsInCount + 1) % 2 ^ (8 * O.ppsInCount.len) ∧
          m'.tb.ppsLast = some s.m.ns ∧ m'.dp = s.m.dp))) ∧
  (∀ (s : State), s.Live →
    Completes .ppsOutEdge s fun m' =>
      (s.m.rdB O.ppsOutEn = false → m' = s.m) ∧
      (s.m.rdB O.ppsOutEn = true → s.m.tb.ppsRise = none → m'.tb.ppsOut = true ∧ m'.tb.ppsRise = some m'.ns ∧ m'.tb.ppsNext = some s.m.ppsTarget) ∧
      (∀ t, s.m.rdB O.ppsOutEn = true → s.m.tb.ppsRise = some t → m'.tb.ppsRise = some t ∨ (m'.within500 (some t) = false ∧ m'.tb.ppsOut = true))) ∧
  (∀ (s : State), s.Live →
    Completes .ppsOutFall s fun m' =>
      m'.tb.ppsOut = (if s.m.tb.ppsRise = none then s.m.tb.ppsOut else false) ∧
      ∀ t, s.m.tb.ppsOut = true → s.m.tb.ppsRise = some t → t + s.m.rd O.ppsOutWidth ≤ m'.ns) ∧
  (∀ (s : State), s.Live →
    Completes .refLoss s fun m' =>
      if s.m.rd O.tbRefSource = 1 ∧ (s.m.rd O.tbRefState = 1 ∨ s.m.rd O.tbRefState = 2) then
        m'.rd O.tbRefState = 3 ∧ AppendsFault s.m m' 437 0x0C 0 ∧ m'.tb = s.m.tb
      else m' = s.m) ∧
  (∀ (s : State), s.Live →
    Completes .refRelock s fun m' =>
      if s.m.rd O.tbRefSource = 1 ∧ (s.m.rd O.tbRefState = 2 ∨ s.m.rd O.tbRefState = 3) then
        m'.rd O.tbRefState = 1 ∧ m'.tb = s.m.tb ∧ m'.adj = s.m.adj
      else m' = s.m) ∧
  (∀ (s : State) (ses : Fin 64), s.Live → s.m.sesOn ses = true → readCheck s.mc (s.m.reqOf ses) O.tsTxqNext = none →
    Completes (.tsTxqNextRead ses) s fun m' =>
      m'.com.status = .ok ∧ m'.com.objs = s.m.com.objs ∧
      (∀ e r, s.m.tb.txq = e :: r → m'.com.value = ofOctets (octets 32 e) ∧ m'.tb.txq = r) ∧
      (s.m.tb.txq = [] → m'.com.value = 3 * 2 ^ 56 ∧ m'.tb.txq = []))

/-! Counters and flare (ch. 17). -/

/-- R517: outside BANKED a counter rises by what it counts and wraps at 2^64, and a wrap sets WRAPPED; nothing else of the port's row changes. -/
def Obligations.CountersWrap : Prop :=
  ∀ (m : Mach) (c : ModeCtl) (i : Fin 16384) (t n : Nat), c.mode ≠ .banked →
    (m.count c O.portCnt i t n).entF O.portCnt 0 i 0 8 = (m.entF O.portCnt 0 i 0 8 + n) % 2 ^ 64 ∧
    (2 ^ 64 ≤ m.entF O.portCnt 0 i 0 8 + n → bit ((m.count c O.portCnt i t n).entF O.portCnt 0 i 20 1) 0 = true) ∧
    (m.entF O.portCnt 0 i 0 8 + n < 2 ^ 64 → (m.count c O.portCnt i t n).entF O.portCnt 0 i 20 1 = m.entF O.portCnt 0 i 20 1) ∧
    (∀ j : Fin 16384, j ≠ i → (m.count c O.portCnt i t n).ent O.portCnt 0 j = m.ent O.portCnt 0 j) ∧ (m.count c O.portCnt i t n).dp = m.dp

/-- R517, R522, R525: the sticky bits of the named tables are cleared and values stay; a selection acts at once and VALUE stays; a bandwidth window closes
with what it has seen and a new one opens empty. -/
def Obligations.CountersServed : Prop :=
  (∀ (s : State) (ses : Fin 64) (v : Nat), s.Live → s.Admits ses O.cntStickyClear 0 v →
    Completes (.cntStickyClear ses v) s fun m' =>
      m'.com.status = .ok ∧ m'.com.objs = s.m.com.objs ∧ m'.dp = s.m.dp ∧
      ∀ i : Fin 16384, m'.entF O.portCnt 0 i 0 8 = s.m.entF O.portCnt 0 i 0 8 ∧
        if v = 0 ∨ v = 1 then bit (m'.entF O.portCnt 0 i 20 1) 0 = false else m'.ent O.portCnt 0 i = s.m.ent O.portCnt 0 i) ∧
  (∀ (s : State) (ses : Fin 64) (i : Fin 256) (v : Nat), s.Live → s.Admits ses O.gecSelect i v →
    Completes (.gecSelectWrite ses i v) s fun m' =>
      m'.com.status = .ok ∧ m'.rd O.gecSelect i = v ∧
      mget none m'.dp.gec i = some ((s.m.gecSettle s.mc).gecSpan s.mc v) ∧
      m'.com.tabs = (s.m.gecSettle s.mc).com.tabs) ∧
  (∀ (s : State) (b : Fin 1024), s.Live →
    Completes (.bwWindowEnd b) s fun m' =>
      (m'.port b).bwRx = 0 ∧ (m'.port b).bwTx = 0 ∧ (m'.port b).bwLen = s.m.rd O.bwWindow ∧
      (∀ t, (s.m.port b).bwStart = some t → t < 2 ^ 96 → fld 32 (m'.ent O.bw 0 b) 0 12 = t) ∧
      fld 32 (m'.ent O.bw 0 b) 12 8 = (s.m.port b).bwRx % 2 ^ 64 ∧ fld 32 (m'.ent O.bw 0 b) 20 8 = (s.m.port b).bwTx % 2 ^ 64 ∧
      ((s.m.port b).bwPart = true → fld 32 (m'.ent O.bw 0 b) 28 1 = 1) ∧ m'.com.objs = s.m.com.objs ∧ ∀ x, x ≠ b.val → m'.port x = s.m.port x)

/-- R526, R529 to R532: an export buffer is handed over FL-FLUSH-AGE after it opened, to every collector that takes it and has room; template sets leave the
queue without taking from the rate; a buffer that holds nothing of the kinds now set leaves it unsent; a message of records whose templates are known goes
out with its sequence raised, or is lost at a full management crossing FIFO (a free value, log entry 64); every template set joins the queue each period; the
losses of a second of adjusted time are told at its end, a LOSS record joining the queue of every collector that takes them (log entry 181). R527,
R530, R531: enabling a collector starts its template period with every template set and disabling it drops its queue; a template written has its mask and a new generation,
and every other template stays. -/
def Obligations.FlareServed : Prop :=
  (∀ (s : State) (b : Fin 16), s.Live →
    Completes (.flBufferFlushAge b) s fun m' =>
      (mget none s.m.dp.xbuf b = none → m' = s.m) ∧
      (∀ x, mget none s.m.dp.xbuf b = some x → s.m.bufInUse (some b) x.buf = false →
        mget none m'.dp.xbuf b = none ∧ x.at_ + 1000000 * s.m.rd O.flFlushAge ≤ m'.ns ∧
        ∀ k < 4, (m'.col k).q =
          if s.m.colTakes k x = true ∧ (s.m.colBufs k).length < s.m.rd O.flColQueue k then (s.m.col k).q ++ [(b.val / 4, .buf x)]
          else (s.m.col k).q)) ∧
  (∀ (s : State) (k d : Fin 4), s.Live →
    Completes (.flMessageSend k d) s fun m' =>
      (((s.m.col k).q.find? fun p => decide (p.1 = d.val)) = none → m' = s.m) ∧
      (∀ t, (s.m.col k).q = (d.val, .templates) :: t → (m'.col k).q = t ∧ (m'.col k).lack = (s.m.col k).lack ∧ (m'.col k).seq = (s.m.col k).seq) ∧
      (∀ x t z, (s.m.col k).q = (d.val, .buf x) :: t → z = s.m.setCol k { s.m.col k with q := t } →
        z.bufInUse none x.buf = false ∨ z.queuedBufs.any x.same = true → s.m.colLeft k x = [] → m' = z.bufDone s.mc x ∧ (m'.col k).q = t) ∧
      (∀ x t z sets n, (s.m.col k).q = (d.val, .buf x) :: t → z = s.m.setCol k { s.m.col k with q := t } →
        z.bufInUse none x.buf = false ∨ z.queuedBufs.any x.same = true → s.m.colLeft k x ≠ [] → s.m.rd O.flColPath k ≠ 2 →
        (∀ r ∈ s.m.colLeft k x, (s.m.col k).known.contains (d.val, r.2.tid) = true) →
        takeRecs (s.m.rd O.flColMtu k - 16) 0 [] [] 0 ((s.m.colLeft k x).map (·.2)) = (sets, n, []) →
        s.m.colLack k + 8000 * (s.m.colFrameLen k (sets.length + 16) + 4) ≤ 8000 * 65536 →
        (m'.col k).q = t ∧
        if s.m.freeVal 1 = 0 then
          (∃ l, m'.com.out = s.m.com.out ++ .flare (s.m.rd O.flColPath k) k (s.m.mgtColFrame k (s.m.rd O.flColPath k) (s.m.ipfix k d sets)) :: l) ∧
          mget 0 (m'.col k).seq d = (mget 0 (s.m.col k).seq d + n) % 2 ^ 32
        else
          m'.rd O.flColLostPath k = (s.m.rd O.flColLostPath k + n) % 2 ^ (8 * O.flColLostPath.len) ∧ (m'.col k).seq = (s.m.col k).seq)) ∧
  (∀ (s : State) (k : Fin 4), s.Live →
    Completes (.flTemplatePeriod k) s fun m' =>
      if s.m.rdB O.flColEn k = true then
        (m'.col k).tmplAt = m'.ns ∧ (s.m.col k).tmplAt + 1000000000 * s.m.rd O.flTemplatePeriod ≤ m'.ns ∧
        (m'.col k).q = (s.m.col k).q ++ (List.range 4).map fun d => (d, .templates)
      else m' = s.m) ∧
  (∀ (s : State), s.Live →
    Completes .flLossSecond s fun m' =>
      ∃ n z, n = s.m.rd O.flLossNobuf + s.m.rd O.flLossRefused + s.m.rd O.flLossPoison + s.m.rd O.flLossDiscard ∧
      s.m.tb.lossSec < m'.tb.lossSec ∧ s.m.adj / (1000000000 * 65536) ≤ m'.tb.lossSec ∧ z = s.m.reach (s.m.nsWhen (m'.tb.lossSec * (1000000000 * 65536))) ∧
      m'.com.frc = z.com.frc ∧
      if n = s.m.dp.lossSeen ∧ ∀ k ∈ List.range 4, (s.m.col k).losses = 0 then m' = { z with tb.lossSec := m'.tb.lossSec }
      else
        m'.dp.lossSeen = n ∧
        ∀ k < 4, (m'.col k).losses = 0 ∧
          (if s.m.rdB O.flColEn k = true ∧ bit (s.m.rd O.flColKinds k) 4 = true then
            ∃ data, data.length = 48 ∧ (m'.col k).q = (s.m.col k).q ++ (List.range 4).map fun d => (d, .loss data)
          else (m'.col k).q = (s.m.col k).q)) ∧
  (∀ (s : State) (ses : Fin 64) (k : Fin 4) (v : Nat), s.Live → s.Admits ses O.flColEn k v →
    Completes (.flColEnWrite ses k v) s fun m' =>
      m'.com.status = .ok ∧ m'.rd O.flColEn k = v ∧
      (v = 1 → s.m.rdB O.flColEn k = false → (m'.col k).tmplAt = s.m.ns ∧ (m'.col k).known = [] ∧
        (m'.col k).q = (s.m.col k).q ++ (List.range 4).map fun d => (d, .templates)) ∧
      (v = 0 → s.m.rdB O.flColEn k = true → (m'.col k).q = [])) ∧
  (∀ (s : State) (ses : Fin 64) (t : Fin 16) (mask : Nat), s.Live → s.m.sesOn ses = true → mask < 2 ^ 19 →
    s.m.winCheck s.mc (s.m.reqOf ses) O.flTemplate = none →
    Completes (.flTemplateWrite ses t mask) s fun m' =>
      m'.com.status = .ok ∧ m'.entF O.flTemplate 0 t 0 4 = mask ∧ m'.entF O.flTemplate 0 t 4 1 = 1 - s.m.entF O.flTemplate 0 t 4 1 % 2 ∧
      (∀ j : Fin 16, j ≠ t → m'.ent O.flTemplate 0 j = s.m.ent O.flTemplate 0 j) ∧ m'.com.objs = s.m.com.objs)


/-! Flow records (chs. 09 and 10). -/

/-- R282, R297, R334, R336, R340, R341: a query takes a free in-flight entry of its basin, or waits where none is free; a lookup whose reads are done
goes on to the next bucket, to the tail of its slot, or ends; a result joins the entry of its packet; a PARK releases the entry unapplied, as does the
end of the wait for a result. -/
def Obligations.BasinEntries : Prop :=
  (∀ (s : State) (b : Fin 16) (src : Fin 8), s.Live → (∀ k < 4, (s.m.basin (b / 4 * 4 + k)).inPkt = []) → (s.m.basin b).inOther = [] →
    Completes (.queryReceipt b src) s fun m' =>
      (s.m.takeMsg ((List.range 4).map fun k => chanNum src (2 * (b / 4)) k) (s.m.queryFor b) = none → m' = s.m) ∧
      (∀ b' p q z, s.m.takeMsg ((List.range 4).map fun k => chanNum src (2 * (b / 4)) k) (s.m.queryFor b) = some (.query b' p q, z) →
        s.m.fst (fnNum .basin b) ≠ .faulted →
        (s.m.freeEntry b true = none → (m'.basin b).inPkt = [⟨.packet p, fld 64 q 0 48, q, (s.m.basin b).seq⟩]) ∧
        (∀ e, s.m.freeEntry b true = some e →
          ∃ x, m'.ift b e = some x ∧ x.op = .packet p ∧ x.key = fld 64 q 0 48 ∧ x.hash = s.m.hOf x.key ∧ x.q = q ∧ x.result = none ∧
            x.at_ = s.m.ns))) ∧
  (∀ (s : State) (b : Fin 16) (e : Nat), s.Live →
    Completes (.bucketReadDone b e) s fun m' =>
      (s.m.ift b e = none → m' = s.m) ∧
      (∀ x, s.m.ift b e = some x → x.reads ≠ 0 → m' = s.m) ∧
      (∀ x t, s.m.ift b e = some x → x.reads = 0 → x.look = .heads t →
        s.m.slotIn (s.m.shareOf x.key) (s.m.cand (s.m.shareOf x.key) x.hash t) x.key = none →
        ∃ y, m'.ift b e = some y ∧ y.key = x.key ∧ y.look = if t then .absent else .heads true) ∧
      (∀ x t g, s.m.ift b e = some x → x.reads = 0 → x.look = .heads t →
        s.m.slotIn (s.m.shareOf x.key) (s.m.cand (s.m.shareOf x.key) x.hash t) x.key = some g →
        ∃ y, m'.ift b e = some y ∧ y.key = x.key ∧ y.look = .tail g) ∧
      (∀ x g, s.m.ift b e = some x → x.reads = 0 → x.look = .tail g → rValid (s.m.slotRec g) = false ∨ rKey (s.m.slotRec g) ≠ x.key →
        m' = s.m.setIft b e (some { x with look := .absent })) ∧
      (∀ x g n, s.m.ift b e = some x → x.reads = 0 → x.look = .tail g → rValid (s.m.slotRec g) = true → rKey (s.m.slotRec g) = x.key →
        s.m.wayByKey b x.hash x.key = none → s.m.place b g x.hash (s.m.slotRec g) false = some n →
        m' = n.setIft b e (some { x with look := .found })) ∧
      (∀ x g, s.m.ift b e = some x → x.reads = 0 → x.look = .tail g → rValid (s.m.slotRec g) = true → rKey (s.m.slotRec g) = x.key →
        s.m.wayByKey b x.hash x.key = none → s.m.place b g x.hash (s.m.slotRec g) false = none → x.wayWait = false →
        m' = (s.m.setIft b e (some { x with wayWait := true })).bump O.iftWayWaits b)) ∧
  (∀ (s : State) (b : Fin 16) (e : Nat), s.Live →
    Completes (.resultArrival b e) s fun m' =>
      (s.m.takeMsg (chansTo (2 * (b / 4))) (s.m.resultFor b e) = none → m' = s.m) ∧
      (∀ b' p r z, s.m.takeMsg (chansTo (2 * (b / 4))) (s.m.resultFor b e) = some (.result b' p r, z) →
        (s.m.ift b e = none → m' = z) ∧
        (∀ x, s.m.ift b e = some x → x.op = .packet p → x.result = none →
          ∃ y, m'.ift b e = some y ∧ y.result = some r ∧ y.op = x.op ∧ y.key = x.key ∧ y.look = x.look))) ∧
  (∀ (s : State) (b : Fin 16) (e : Nat), s.Live →
    Completes (.parkArrival b e) s fun m' =>
      (s.m.takeMsg (chansTo (2 * (b / 4))) (s.m.parkFor b e) = none → m' = s.m) ∧
      (∀ b' p z, s.m.takeMsg (chansTo (2 * (b / 4))) (s.m.parkFor b e) = some (.park b' p, z) →
        (∀ x, s.m.ift b e = some x → x.op = .packet p → m' = (z.bump O.iftParks b).freeIft s.mc b e) ∧
        (s.m.ift b e = none →
          (m'.basin b).inPkt = (s.m.basin b).inPkt.filter (fun w => decide (w.op ≠ .packet p)) ∧ (m'.basin b).ift = (s.m.basin b).ift ∧
          m'.rd O.iftParks b = (s.m.rd O.iftParks b + 1) % 2 ^ (8 * O.iftParks.len)))) ∧
  (∀ (s : State) (b : Fin 16) (e : Nat), s.Live →
    Completes (.verdictWaitBasin b e) s fun m' =>
      (s.m.ift b e = none → m' = s.m) ∧
      (∀ x, s.m.ift b e = some x → x.op.isPacket = false ∨ (x.result ≠ none ∧ x.lost = false) → m' = s.m) ∧
      (∀ x, s.m.ift b e = some x → x.op.isPacket = true → x.result = none ∨ x.lost = true →
        ∃ z, z = s.m.reach (x.at_ + 1000 * s.m.rd O.verdictWaitMax) ∧ x.at_ + 1000 * s.m.rd O.verdictWaitMax ≤ z.ns ∧
          m' = ((if x.lost = true then z.pendDone b x.key else z).freeIft s.mc b e).bump O.iftOrphans b))

/-- R294, R303, R309, R346, R349, R350: the operation of an entry that heads its chain meters and counts its packet on the record found; on an absent
key it goes without a record, is refused by the first limit that applies, or posts a CREATE event; a dirty record is written back when its age is
reached. -/
def Obligations.OperationsApplied : Prop :=
  (∀ (s : State) (b : Fin 16) (e : Nat), s.Live → (s.m.ift b e = none ∨ ∃ x, s.m.ift b e = some x ∧ s.m.isHead b x = false) →
    Completes (.operationApply b e) s fun m' => m' = s.m) ∧
  (∀ (s : State) (b : Fin 16) (e : Nat) (x : Ift) (p res cls : Nat) (free : Bool), s.Live → s.m.ift b e = some x → s.m.isHead b x = true →
    x.op = .packet p → cls = s.m.ent O.flwClass 0 (fld 16 res 8 1) → x.result = some res → x.creating = false → bit (fld 16 res 9 1) 6 = false →
    free = (bit (fld 16 res 9 1) 7 || !bit (fld 32 (s.m.ent O.flwClass 0 (fld 16 res 8 1)) 0 1) 7) →
    Completes (.operationApply b e) s fun m' =>
      (∀ k w, x.look = .found → s.m.wayByKey b x.hash x.key = some (k, w) → s.m.expired w.rec_ = none →
        ∃ y r, m'.way k = some y ∧ y.slot = w.slot ∧ y.dirty = true ∧
          r = rChange w.rec_ (if bit (fld 64 x.q 58 1) 6 && rbit w.rec_ 48 4 then
            rset w.rec_ 50 1 (connStep (rf w.rec_ 50 1) (isFwd x w.rec_) (fld 64 x.q 59 1)) else w.rec_) ∧
          y.rec_ = (s.m.passRecord x r (filterDrops w.rec_ (rf w.rec_ 50 1) (bit (fld 64 x.q 58 1) 6) (fld 64 x.q 59 1)) 0).1) ∧
      (x.look = .absent → free = true → m' = (s.m.sendVerdict b x (x.plain 0x02 0)).freeIft s.mc b e) ∧
      (x.look = .absent → free = false → s.m.allowRefuses b x.key = true → m' = (s.m.bump O.refuseQuota b).refuseCreate s.mc b e { x with cls := cls } 0x30) ∧
      (x.look = .absent → free = false → s.m.allowRefuses b x.key = false → s.m.crbTok s.mc b < 1000000000 →
        m' = (s.m.bump O.refuseBudget b).refuseCreate s.mc b e { x with cls := cls } 0x31) ∧
      (x.look = .absent → free = false → s.m.allowRefuses b x.key = false → 1000000000 ≤ s.m.crbTok s.mc b →
        s.m.rd O.iftCreateMax ≤ s.m.iftCreating b → m' = (s.m.bump O.refuseInflight b).refuseCreate s.mc b e { x with cls := cls } 0x32) ∧
      (x.look = .absent → free = false → s.m.allowRefuses b x.key = false → 1000000000 ≤ s.m.crbTok s.mc b →
        s.m.iftCreating b < s.m.rd O.iftCreateMax →
        m'.ift b e = some { x with cls := cls, creating := true } ∧ (m'.basin b).tok + 1000000000 = s.m.crbTok s.mc b ∧
        (m'.slu b).inbox = (s.m.slu b).inbox ++ [mkEv 1 0 b (domRecord x.hash) (e * 2 ^ 32) 0 x.seq])) ∧
  (∀ (s : State) (b : Fin 16) (j : Nat), s.Live →
    Completes (.writeBackAge b j) s fun m' =>
      (s.m.wayBySlot (slotKey b j) = none → m' = s.m) ∧
      (∀ k w, s.m.wayBySlot (slotKey b j) = some (k, w) → w.dirty = false → m' = s.m) ∧
      (∀ k w, s.m.wayBySlot (slotKey b j) = some (k, w) → w.dirty = true → w.wb = 0 →
        rValid w.rec_ = false ∨ s.m.olderSlots (rKey w.rec_) (slotKey b j) = [] →
        mget none m'.dp.wbq (slotKey b j) = some w.rec_ ∧ w.dirtyAt + 1000 * s.m.rd O.flwWbAge ≤ m'.ns))

/-- R279, R282, R284, R322, R323, R325, R337, Table 9.15: a host request takes an in-flight entry, and one whose record is in the eddy ends at once; any
other looks its key up, and ends at the head of its chain when its lookup is done: with the record found, the slot of the record inserted, the record
updated or deleted, or why not. The table is cleared while every basin is STOPPED, its size is written with a clear, and it grows by a command. -/
def Obligations.FlowRequests : Prop :=
  (∀ (s : State) (ses : Fin 64) (j : Fin 256) (op key b e src : Nat) (i : Instr), s.Live → flowReqRow ses j op = some i →
    Asked s ses j op key b e → src = fld 192 (s.m.reqEnt ses j) 64 128 →
    Completes i s fun m' =>
      m'.com.status = .ok ∧
      (∀ k w, s.m.wayByKey b (s.m.hOf key) key = some (k, w) → s.m.expired w.rec_ = none → RecordAnswered s.m m' ses j op src k w) ∧
      (∀ k w why, s.m.wayByKey b (s.m.hOf key) key = some (k, w) → s.m.expired w.rec_ = some why → op ≠ 2 →
        m'.reqEnt ses j = (s.m.reqDone ses j 2 none none).reqEnt ses j) ∧
      (s.m.wayByKey b (s.m.hOf key) key = none →
        m'.reqEnt ses j = s.m.reqEnt ses j ∧
        ∃ x, m'.ift b e = some x ∧ x.op = .host ses j ∧ x.key = key ∧ x.look = if s.m.guarded338 b key (s.m.hOf key) = true then .idle else .heads false)) ∧
  (∀ (s : State) (b : Fin 16) (e : Nat) (x : Ift) (ses j op src : Nat), s.Live → s.m.ift b e = some x → s.m.isHead b x = true → x.op = .host ses j →
    s.m.hostServes b x.key = true → op = fld 192 (s.m.reqEnt ses j) 0 1 → src = fld 192 (s.m.reqEnt ses j) 64 128 →
    Completes (.operationApply b e) s fun m' =>
      (x.looked = false → m' = s.m) ∧
      (∀ k w, x.looked = true → s.m.wayByKey b x.hash x.key = some (k, w) → s.m.expired w.rec_ = none → RecordAnswered s.m m' ses j op src k w) ∧
      (x.looked = true → s.m.wayByKey b x.hash x.key = none →
        (op = 1 ∨ op = 3 ∨ op = 4 → m'.reqEnt ses j = (s.m.reqDone ses j 2 none none).reqEnt ses j) ∧
        (op = 2 → rPaired src = true ∨ rLink src = true ∨ rKey src ≠ fld 192 (s.m.reqEnt ses j) 16 48 →
          m'.reqEnt ses j = (s.m.reqDone ses j 6 none none).reqEnt ses j) ∧
        (op = 2 → rPaired src = false → rLink src = false → rKey src = fld 192 (s.m.reqEnt ses j) 16 48 →
          (∀ g z, s.m.placeNew s.mc b e (s.m.insertRec src) = .at_ g z →
            m'.reqEnt ses j = (s.m.reqDone ses j 1 (some g) (some (s.m.insertRec src))).reqEnt ses j) ∧
          (∀ z, s.m.placeNew s.mc b e (s.m.insertRec src) = .full z → m'.reqEnt ses j = (s.m.reqDone ses j 4 none none).reqEnt ses j) ∧
          (∀ z, s.m.placeNew s.mc b e (s.m.insertRec src) = .wait z → m' = z)))) ∧
  (∀ (s : State) (ses : Fin 64), s.Live → s.Admits ses O.flwClear 0 0 →
    Completes (.flwClear ses) s fun m' =>
      if s.m.basinsStopped = true then
        m'.com.status = .deferred ∧ m'.flwStateV = 1 ∧ m'.dp.eddy = [] ∧ m'.dp.hbm = [] ∧ m'.dp.wbq = [] ∧ m'.dp.growing = false ∧
        ∀ b : Fin 16, m'.rd O.bsnRecords b = 0
      else m' = s.m.st .functionRunning) ∧
  (∀ (s : State), s.Live → Completes .flwClearDone s fun m' => m' = { s.m with dp.clearing := false }) ∧
  (∀ (s : State) (ses : Fin 64) (v : Nat), s.Live → s.Admits ses O.flwSizeLog2 0 v →
    Completes (.flwSizeWrite ses v) s fun m' =>
      m'.com.status = .ok ∧ m'.rd O.flwSizeLog2 = v ∧ m'.flwStateV = 1 ∧ m'.dp.eddy = [] ∧ m'.dp.hbm = []) ∧
  (∀ (s : State) (ses : Fin 64), s.Live → s.Admits ses O.flwGrow 0 0 →
    Completes (.flwGrow ses) s fun m' =>
      if s.m.rd O.flwSizeLog2 = 28 then m' = s.m.st .range
      else if s.m.dp.growing = true ∨ s.m.dp.clearing = true ∨ s.m.dp.remapping = true then m' = s.m.st .busy
      else m'.com.status = .deferred ∧ m'.flwStateV = 2 ∧ m'.dp.eddy = s.m.dp.eddy ∧ m'.com.objs = s.m.com.objs)

/-! HBM and pools (chs. 12 and 13). -/

/-- R396 to R400, R407 to R411, R414, R415: the requests of an access enter the queues of their lines, or wait where a queue has no room; a mirrored write
enters both copies' queues or waits as a whole; reads and writes complete from the head of the queue, count their lines and give or store their data; a
corrected read is counted, and rewritten where the scrub made it; a mirrored line that is uncorrectable is read from its partner, and one lost in both copies
withdraws its slot; a poisoned link freezes its pool; a refresh is postponed while the bank is needed, until eight are owed. -/
def Obligations.HbmServes : Prop :=
  (∀ (s : State) (q : HbmReq) (l : List (Nat × HReq)) (n : Nat), s.Live → q.wf = true → stacksOn s.mc = true → s.m.stackLost q.stack = false →
    q.write = true ∨ s.m.mirrored q.stack q.line = false ∨ s.m.readsHere q.stack = true → n = s.m.dp.accNext + 1 →
    l = s.m.hbmReqs q q.stack q.line ++ (if q.write && s.m.mirrored q.stack q.line && !s.m.stackLost (partner q.stack) then
      s.m.hbmReqs q (partner q.stack) (partnerLine q.line) else []) →
    Completes (.hbmRequest q) s fun m' =>
      ((∀ y ∈ l, s.m.pcRoom y.1 y.2.bulk = true) → ∀ y ∈ l, (m'.pc y.1).wait = (s.m.pc y.1).wait ∧ ∃ a, (m'.pc y.1).q = (s.m.pc y.1).q ++ [{ y.2 with acc := a }]) ∧
      (q.write = true → (∃ z ∈ l, s.m.pcRoom z.1 z.2.bulk = false) →
        ∀ y ∈ l, (m'.pc y.1).q = (s.m.pc y.1).q ∧ (m'.pc y.1).wait = (s.m.pc y.1).wait ++ [{ y.2 with acc := n }] ∧
          (s.m.pcRoom y.1 y.2.bulk = false → m'.rd O.pcQfullWaits y.1 = (s.m.rd O.pcQfullWaits y.1 + 1) % 2 ^ (8 * O.pcQfullWaits.len))) ∧
      (q.write = false → ∀ y ∈ l, s.m.pcRoom y.1 y.2.bulk = false →
        (m'.pc y.1).q = (s.m.pc y.1).q ∧ (∃ a, (m'.pc y.1).wait = (s.m.pc y.1).wait ++ [{ y.2 with acc := a }]) ∧
        m'.rd O.pcQfullWaits y.1 = (s.m.rd O.pcQfullWaits y.1 + 1) % 2 ^ (8 * O.pcQfullWaits.len))) ∧
  (∀ (s : State) (p : Fin 512) (ecc z : EccOutcome) (x : HReq) (t : List HReq) (k o : Nat), s.Live → (s.m.pc p).q = x :: t → x.write = false →
    s.m.pcServes s.mc p = true → s.m.readServes (p / 64) = true → (s.m.pc p).wait = [] → (∀ v ∈ stackBasins (p / 64), (s.m.slu v).trcQ = []) →
    z = x.ecc.getD ecc → k = p / 64 → o = 64 * partner k + p % 64 →
    Completes (.hbmReadComplete p ecc) s fun m' =>
      (z = .clean →
        (m'.pc p).q = t ∧ m'.rd O.pcReads p = (s.m.rd O.pcReads p + x.lines) % 2 ^ (8 * O.pcReads.len) ∧
        (x.scrub = true → x.line = 2 ^ 28 - 1 → m'.rd O.stkScrubPass k = (s.m.rd O.stkScrubPass k + 1) % 2 ^ (8 * O.stkScrubPass.len)) ∧
        (x.mend = true → s.m.stackLost (partner k) = false →
          m'.rd O.stkRepaired (partner k) = (s.m.rd O.stkRepaired (partner k) + 1) % 2 ^ (8 * O.stkRepaired.len) ∧
          (s.m.pcRoom o false = true → (m'.pc o).q = (s.m.pc o).q ++ [{ mendWrite (partnerLine x.line) .flow with acc := s.m.dp.accNext + 1 }])) ∧
        ∀ v q e y, x.look = some (v, q) → ((s.m.ifts v).find? fun r => decide (r.2.seq = q)) = some (e, y) →
          m'.ift v e = some { y with reads := y.reads - 1 }) ∧
      (z = .corrected →
        m'.rd O.stkCe k = (s.m.rd O.stkCe k + 1) % 2 ^ (8 * O.stkCe.len) ∧ m'.rd O.pcCe p = (s.m.rd O.pcCe p + 1) % 2 ^ (8 * O.pcCe.len) ∧
        (x.scrub = true → x.mend = false → s.m.pcRoom p true = true →
          (m'.pc p).q = t ++ [{ mendWrite x.line .bulk with acc := s.m.dp.accNext + 1 }])) ∧
      (z = .uncorrectable ∨ z = .uncorrectableBoth →
        m'.rd O.pcUe p = (s.m.rd O.pcUe p + 1) % 2 ^ (8 * O.pcUe.len) ∧
        (s.m.mirrored k x.line = true → x.mend = false → s.m.readServes (partner k) = true → s.m.pcRoom o x.bulk = true →
          ∃ y, (m'.pc o).q = (s.m.pc o).q ++ [y] ∧ y.line = partnerLine x.line ∧ y.mend = true ∧ y.look = x.look) ∧
        (∀ g, s.m.lineUse k x.line = .head g → x.mend = false → s.m.readServes (partner k) = false → mget false m'.dp.gone g = true) ∧
        (∀ g, s.m.mirrored k x.line = true → x.mend = true → s.m.lineUse (partner k) (partnerLine x.line) = .head g → mget false m'.dp.gone g = true) ∧
        (s.m.mirrored k x.line = false → x.who = 1 → (m'.hpool (2 * k + if x.line < h8kLines then 0 else 1)).frozen = true))) ∧
  (∀ (s : State) (p : Fin 512) (x : HReq) (t : List HReq), s.Live → (s.m.pc p).q = x :: t → x.write = true → s.m.pcServes s.mc p = true →
    (s.m.pc p).wait = [] → (∀ v ∈ stackBasins (p / 64), (s.m.slu v).trcQ = []) →
    Completes (.hbmWriteComplete p) s fun m' =>
      ∃ z : Mach, m' = z.wroteAhead p ∧ (mget 0 (mget {} s.m.dp.reissue (p / 64)).ahead p = 0 → m' = z) ∧
        (z.pc p).q = t ∧ z.rd O.pcWrites p = (s.m.rd O.pcWrites p + x.lines) % 2 ^ (8 * O.pcWrites.len) ∧
        ∀ g copy r, x.wb = some (g, copy, r) → x.lines = 2 → mget 0 z.dp.hbm (copy * 2 ^ 32 + g) = r) ∧
  (∀ (s : State) (p : Fin 512) (ecc : EccOutcome) (i : Instr), s.Live → i = .hbmReadComplete p ecc ∨ i = .hbmWriteComplete p →
    (s.m.pc p).q = [] ∨ s.m.pcServes s.mc p = false ∨ (i = .hbmReadComplete p ecc ∧ s.m.readServes (p / 64) = false) → Completes i s fun m' => m' = s.m) ∧
  (∀ (s : State) (p : Fin 512) (bank : Nat), s.Live → bank < 16 → s.m.pcServes s.mc p = true →
    Completes (.hbmRefresh p bank) s fun m' =>
      (m'.pc p).q = (s.m.pc p).q ∧
      (∀ x t, (s.m.pc p).q = x :: t → s.m.bankOf x.line = bank → mget 0 (s.m.pc p).owed bank + 1 < 8 →
        mget 0 (m'.pc p).owed bank = mget 0 (s.m.pc p).owed bank + 1 ∧ (m'.pc p).rows = (s.m.pc p).rows) ∧
      ((∀ x t, (s.m.pc p).q = x :: t → s.m.bankOf x.line ≠ bank) ∨ 8 ≤ mget 0 (s.m.pc p).owed bank + 1 →
        mget 0 (m'.pc p).owed bank = 0 ∧ mget none (m'.pc p).rows bank = none))

/-- R395, R401, R403, R405, R411, R438: a channel is trained at a temperature, or its stack has failed training; a channel that has been empty long
enough, with no training due, begins self-refresh and leaves it for a request that waits; the scrub asks for the lines of a stack in their order; a new mapping order is written with every region cleared until the device is done. R412, Table 12.5: a line stands at rest enciphered under
slot 65 with the tweak of its place, and both copies of a mirrored line are the same ciphertext. -/
def Obligations.HbmKept : Prop :=
  (∀ (s : State) (k : Fin 8) (ch : Fin 32) (ok : Bool) (temp : Int) (h : HCh) (n : Mach), s.Live → stacksOn s.mc = true → s.m.stackLost k = false →
    h = s.m.hchan (32 * k + ch) → h.sr = 0 →
    n = (if h.tempMoved temp = true then s.m else s.m.reach (h.trainAt + 1000000 * s.m.rd O.hbmRetrainPeriod)) →
    Completes (.hbmRetrain k ch ok temp) s fun m' =>
      m'.rd O.stkTemp k = unsgn 32 temp ∧ m'.rd O.stkRefreshX k = (if 85 < temp then 1 else 0) ∧
      m'.rd O.stkRetrains k = (s.m.rd O.stkRetrains k + 1) % 2 ^ (8 * O.stkRetrains.len) ∧ m'.rd O.stkRetrainLast k = n.now ∧ m'.ns = n.ns ∧
      (ok = true → m'.hchan (32 * k + ch) = { h with trainAt := n.ns, trainTemp := some temp }) ∧
      (ok = false → ∃ z : Mach, z.flt = s.m.flt ∧ AppendsFault z m' (416 + k) 0x07 ch)) ∧
  (∀ (s : State) (k : Fin 8) (ch : Fin 32) (h : HCh) (n : Mach), s.Live → stacksOn s.mc = true → s.m.stackLost k = false →
    s.m.rdB O.hbmIdleSr = true → h = s.m.hchan (32 * k + ch) → h.sr = 0 →
    (∀ p : Nat, p = 2 * (32 * k + ch) ∨ p = 2 * (32 * k + ch) + 1 → (s.m.pc p).q = [] ∧ (s.m.pc p).wait = []) →
    n = s.m.reach (h.emptyAt + 1000 * s.m.rd O.hbmIdleSrAfter) →
    Completes (.selfRefreshIdle k ch) s fun m' =>
      (h.trainAt + 1000000 * s.m.rd O.hbmRetrainPeriod ≤ n.ns → m' = n) ∧
      (n.ns < h.trainAt + 1000000 * s.m.rd O.hbmRetrainPeriod → h.tempMoved (sgn 32 (s.m.rd O.stkTemp k)) = false →
        m'.hchan (32 * k + ch) = { h with sr := 1, srAt := n.ns } ∧ (m'.pc (2 * (32 * k + ch))).rows = [] ∧ m'.ns = n.ns)) ∧
  (∀ (s : State) (k : Fin 8) (ch : Fin 32), s.Live → s.mc.mode ≠ .banked → s.m.srCommitted (32 * k + ch) = true →
    (s.m.pc (2 * (32 * k + ch))).q ≠ [] ∨ (s.m.pc (2 * (32 * k + ch) + 1)).q ≠ [] →
    Completes (.selfRefreshExit k ch) s fun m' =>
      (m'.hchan (32 * k + ch)).sr = 0 ∧ s.m.ns + 400 ≤ m'.ns ∧ (s.m.hchan (32 * k + ch)).srAt + 940 ≤ m'.ns ∧
      m'.srEntries (32 * k + ch) = s.m.srEntries (32 * k + ch)) ∧
  (∀ (s : State) (k : Fin 8) (l p : Nat) (ecc : EccOutcome), s.Live → p = s.m.pcOf k l →
    Completes (.hbmScrub k l ecc) s fun m' =>
      (stacksOn s.mc = true → s.m.readServes k = true → s.m.rd O.hbmScrubPeriod ≠ 0 → l = mget 0 s.m.dp.scrubAt k →
        mget 0 m'.dp.scrubAt k = (l + 1) % 2 ^ 28 ∧
        (s.m.pcRoom p true = true → ∃ x, (m'.pc p).q = (s.m.pc p).q ++ [x] ∧ x.write = false ∧ x.line = l ∧ x.lines = 1 ∧ x.cls = .bulk ∧ x.scrub = true ∧
          x.ecc = some ecc) ∧
        (s.m.pcRoom p true = false → (m'.pc p).q = (s.m.pc p).q)) ∧
      (s.m.readServes k = false ∨ s.m.rd O.hbmScrubPeriod = 0 ∨ l ≠ mget 0 s.m.dp.scrubAt k → m' = s.m)) ∧
  (∀ (s : State) (ses : Fin 64) (v : Nat), s.Live → s.Admits ses O.hbmMapOrder 0 v →
    Completes (.hbmMapOrderWrite ses v) s fun m' =>
      m'.com.status = .ok ∧ m'.rd O.hbmMapOrder = v ∧ m'.flwStateV = 1 ∧ m'.dp.hpools = [] ∧ m'.dp.ppool = [] ∧ m'.dp.eddy = [] ∧ m'.dp.hbm = []) ∧
  (∀ (s : State), s.Live → Completes .remapDone s fun m' => m' = { s.m with dp.remapping := false }) ∧
  (∀ (m : Mach) (k l g : Nat), k < 8 → l < 67108864 → m.lineUse k l = .head g →
    m.lineStored k l =
      Config.xts (BitVec.ofNat 512 (m.slot 65).key)
        (BitVec.ofNat 128 (pack [(8, l % 2 ^ 25), (1, 1), (1, (stackBasins k).getD (l / 2 ^ 25) 0), (6, 0)]))
        (BitVec.ofNat 512 (fld 128 (mget 0 m.dp.hbm g) 0 64)) ∧
    (mget 0 m.dp.hbm g = mget 0 m.dp.hbm (2 ^ 32 + g) → m.lineStored k l = m.lineStored (partner k) (l + 67108864)))

/-- R421, R426, R427, R430 to R435: of two requests for a pool's last cell the next in rotation has it and the other goes to the next pool; a cell is freed by
its owner, and a free that does not match is counted under 0x42 and reported; an HBM buffer is granted within the basin's limit, where the mode lets one be
taken (Table 13.5), and comes back to its pool, which freezes on a free too many; a stack offset outside both pools, or not a whole number of buffers from
the start, is reported; the stock is refilled a buffer at a time; a pool is rebuilt while the sluices that use it are STOPPED. -/
def Obligations.PoolsServe : Prop :=
  (∀ (s : State) (r : Fin 8) (k : Fin 4) (cell owner : Nat), s.Live →
    Completes (.cellFree r k cell owner) s fun m' =>
      if s.m.cellOk r (k.val, cell) owner = true then
        (m'.pool r k).freed = cell :: (s.m.pool r k).freed ∧ m'.cellOf r (k.val, cell) = none ∧ m'.com = s.m.com
      else
        m'.dp.pools = s.m.dp.pools ∧ AppendsFault s.m m' (blkTile .reach r) 0x0A owner ∧
        m'.rd O.bufpFreeFaults (4 * r + k) = (s.m.rd O.bufpFreeFaults (4 * r + k) + 1) % 2 ^ (8 * O.bufpFreeFaults.len)) ∧
  (∀ (m : Mach) (r k i j : Nat) (q q' : CellReq), k < 3 → q.first = k → q'.first = k → q.word.owner < 64 → q'.word.owner < 64 → (m.pool r k).rot < 64 →
    (q.word.owner + 64 - (m.pool r k).rot) % 64 < (q'.word.owner + 64 - (m.pool r k).rot) % 64 →
    (m.pool r k).head k = some i → (m.pool r k).popped.head k = none → (m.pool r (k + 1)).head (k + 1) = some j →
    (m.cellArb r [q', q]).1 = [(q, (k, i)), (q', (k + 1, j))] ∧ ((m.cellArb r [q', q]).2.pool r k).rot = (q.word.owner + 1) % 64) ∧
  (∀ (s : State) (b : Fin 16) (len p : Nat), s.Live → p = 2 * s.m.poolStack b + (if 4096 < len then 1 else 0) →
    Completes (.hbmPoolAlloc b len) s fun m' =>
      if s.m.mayTake s.mc (4096 < len) = false then m' = s.m else
      (1048576 * s.m.rd O.hrqLimit b < s.m.rd O.hrqInuse b + bufSize p →
        m'.dp.hpools = s.m.dp.hpools ∧ m'.rd O.hrqInuse b = s.m.rd O.hrqInuse b ∧
        m'.rd O.hrqQuotaRefused b = (s.m.rd O.hrqQuotaRefused b + 1) % 2 ^ (8 * O.hrqQuotaRefused.len)) ∧
      (s.m.rd O.hrqInuse b + bufSize p ≤ 1048576 * s.m.rd O.hrqLimit b → s.m.hpoolState s.mc p = 0 → (s.m.hpool p).free ≠ 0 →
        (s.m.hpool p).stock ≠ 0 →
        (m'.hpool p).free = (s.m.hpool p).free - 1 ∧ (m'.hpool p).stock = (s.m.hpool p).stock - 1 ∧
        m'.rd O.hrqInuse b = s.m.rd O.hrqInuse b + bufSize p ∧ m'.rd O.hplAllocs p = (s.m.rd O.hplAllocs p + 1) % 2 ^ (8 * O.hplAllocs.len))) ∧
  (∀ (s : State) (p : Fin 16), s.Live →
    Completes (.hbmStockRefill p) s fun m' =>
      if (s.m.hpool p).stock < 32 ∧ (s.m.hpool p).stock < (s.m.hpool p).free then
        m'.hpool p = { s.m.hpool p with stock := (s.m.hpool p).stock + 1 } ∧ m'.com = s.m.com
      else m' = s.m) ∧
  (∀ (s : State) (b : Fin 16) (k : Fin 8) (off : Nat), s.Live → off < poolStart (2 * k) ∨ 45 * 2 ^ 28 ≤ off → s.m.stackLost k = false →
    Completes (.hbmPoolFree b k off) s fun m' => m'.dp.hpools = s.m.dp.hpools ∧ AppendsFault s.m m' (416 + k) 0x0A (2 * k)) ∧
  (∀ (s : State) (b p : Fin 16) (k : Fin 8) (i d : Nat), s.Live → k.val = p / 2 → i < 262144 → 0 < d → d < bufSize p → s.m.stackLost (p / 2) = false →
    Completes (.hbmPoolFree b k (poolStart p + i * bufSize p + d)) s fun m' => m'.dp.hpools = s.m.dp.hpools ∧ AppendsFault s.m m' (416 + p / 2) 0x0A p) ∧
  (∀ (s : State) (b p : Fin 16) (k : Fin 8) (i : Nat), s.Live → k.val = p / 2 →
    Completes (.hbmPoolFree b k (poolStart p + i * bufSize p)) s fun m' =>
      (s.m.stackLost (p / 2) = true → m' = s.m) ∧
      (s.m.stackLost (p / 2) = false → i < 262144 → bufSize p ≤ s.m.rd O.hrqInuse b → (s.m.hpool p).frozen = false →
        (s.m.hpool p).free = 262144 → (m'.hpool p).frozen = true ∧ AppendsFault s.m m' (416 + p / 2) 0x0B p) ∧
      (s.m.stackLost (p / 2) = false → i < 262144 → bufSize p ≤ s.m.rd O.hrqInuse b → (s.m.hpool p).frozen = false →
        (s.m.hpool p).free ≠ 262144 →
        (m'.hpool p).freed = i :: (s.m.hpool p).freed ∧ (m'.hpool p).free = (s.m.hpool p).free + 1 ∧
        m'.rd O.hrqInuse b = s.m.rd O.hrqInuse b - bufSize p)) ∧
  (∀ (s : State) (ses : Fin 64) (p : Nat), s.Live → s.Admits ses O.hplRebuild 0 p →
    Completes (.hplRebuild ses p) s fun m' =>
      if ((stackBasins (p / 2)).all fun b => decide (s.m.fst (fnNum .sluice b) = .stopped)) = true then
        m'.com.status = .deferred ∧ (m'.hpool p).rebuilding = true ∧ (m'.hpool p).frozen = false ∧ (m'.hpool p).charge = []
      else m' = s.m.st .functionRunning) ∧
  (∀ (s : State) (p : Fin 16), s.Live →
    Completes (.hplRebuildDone p) s fun m' => m'.hpool p = { s.m.hpool p with rebuilding := false } ∧ m'.com = s.m.com)

/-! Sluices and mills (ch. 11). -/

/-- R360, R361, R363, R366, R375, R379, R386, R387: an event that has arrived at a running sluice joins its list, and the context that posted it goes on, or
it waits where the list is full and its kind may wait; the dispatchable event that the pointer finds first enters a free context, or for FLOW and AGE
the one that a pre-emption frees; the timers post SWEEP and SPLIT; TRC-ARM begins a trace. -/
def Obligations.EventsDispatched : Prop :=
  (∀ (s : State) (b : Fin 16), s.Live → s.m.takeMsg (chansTo (2 * (b / 4))) (eventFor b) = none →
    Completes (.eventPost b) s fun m' =>
      ((s.m.slu b).inbox = [] → m' = s.m) ∧
      (∀ e, (s.m.slu b).inbox = [e] → s.m.running .sluice b = true →
        (e.kind = 1 → ((s.m.slu b).flow.filter fun x => x.flag 7).length + 8192 > (s.m.slu b).flow.length →
          ∃ z : Mach, m' = z.posted s.mc e ∧ (z.slu b).flow = (s.m.slu b).flow ++ [{ e with by_ := none }] ∧ (z.slu b).inbox = []) ∧
        (e.kind = 9 → (s.m.slu b).maint.length < 64 →
          ∃ z : Mach, m' = z.posted s.mc e ∧ (z.slu b).maint = (s.m.slu b).maint ++ [{ e with by_ := none }] ∧ (z.slu b).inbox = []) ∧
        (e.kind = 7 → 4096 ≤ (s.m.slu b).age.length → e.waited = false →
          (m'.slu b).inbox = [{ e with waited := true }] ∧ (m'.slu b).age = (s.m.slu b).age ∧
          m'.rd O.sluPostWaits b = (s.m.rd O.sluPostWaits b + 1) % 2 ^ (8 * O.sluPostWaits.len)))) ∧
  (∀ (s : State) (b : Fin 16) (t : Nat) (e : Ev) (y : Mach), s.Live → s.m.takeMsg (chansTo (2 * (b / 4))) (eventFor b) = some (.event t e, y) →
    (s.m.slu b).inbox = [] → s.m.running .sluice b = true → e.kind = 8 → (s.m.slu b).exp.length < 2048 →
    Completes (.eventPost b) s fun m' =>
      ∃ z : Mach, m' = z.posted s.mc e ∧ (z.slu b).exp = (s.m.slu b).exp ++ [{ e with by_ := none }] ∧ (z.slu b).inbox = []) ∧
  (∀ (s : State) (b : Fin 16), s.Live →
    Completes (.eventDispatch b) s fun m' =>
      (s.m.running .sluice b = false → m' = s.m) ∧
      (∀ cls i e, s.m.running .sluice b = true → cls = s.m.ent O.schedList b ((s.m.slu b).ptr % 64) % 4 →
        (s.m.slu b).oldest (s.m.millServes b) cls = some i → ((s.m.slu b).list cls)[i]? = some e →
        (∀ sh k, s.m.ctxFree s.mc b cls = some sh → s.m.ctxNum s.mc b = some k →
          m'.ctx b k = some { ev := e.general, cls := cls, shared := sh, ord := (s.m.slu b).ord, asked := false, reply := none } ∧
          (m'.slu b).list cls = ((s.m.slu b).list cls).eraseIdx i ∧
          m'.rd O.sluDispatched b = (s.m.rd O.sluDispatched b + 1) % 2 ^ (8 * O.sluDispatched.len)) ∧
        (∀ k x, s.m.ctxFree s.mc b cls = none → cls ≤ 1 → s.m.victim s.mc b = some (k, x) →
          m'.ctx b k = some { ev := e.general, cls := cls, shared := true, ord := (s.m.slu b).ord, asked := false, reply := none } ∧
          (m'.slu b).list cls = ((s.m.slu b).list cls).eraseIdx i ∧
          m'.rd O.sluPreempted b = (s.m.rd O.sluPreempted b + 1) % 2 ^ (8 * O.sluPreempted.len) ∧
          ∃ y, (m'.slu b).list x.cls = y :: (s.m.slu b).list x.cls ∧ y.flag 5 = true ∧ y.body = x.ev.body))) ∧
  (∀ (s : State) (b : Fin 16), s.Live →
    Completes (.sweepTimer b) s fun m' =>
      (s.m.running .sluice b = false ∨ s.m.sharesOf b = [] → m' = s.m) ∧
      (s.m.running .sluice b = true → s.m.sharesOf b ≠ [] →
        (s.m.slu b).sweepAt + s.m.sweepGap b ≤ m'.ns ∧ (m'.slu b).sweepAt = m'.ns ∧
        ((s.m.slu b).sweepOut = true → (m'.slu b).sweepDue = true ∧ (m'.slu b).inbox = (s.m.slu b).inbox) ∧
        ((s.m.slu b).sweepOut = false → (m'.slu b).sweepOut = true ∧ ∃ e, (m'.slu b).inbox = (s.m.slu b).inbox ++ [e] ∧ e.kind = 9))) ∧
  (∀ (s : State) (b : Fin 16), s.Live →
    Completes (.splitTimer b) s fun m' =>
      (s.m.dp.growing = false → m' = s.m) ∧
      (∀ k, s.m.dp.growing = true → ((s.m.sharesOf b).find? fun x => decide (s.m.rd O.bsnSplit x < s.m.nb)) = some k → (s.m.slu b).splitOut = false →
        s.m.running .sluice b = true → s.m.running .basin b = true →
        (m'.slu b).splitOut = true ∧ (s.m.slu b).splitAt + 1000000000 / s.m.rd O.flwGrowRate ≤ m'.ns ∧
        (m'.slu b).inbox = (s.m.slu b).inbox ++ [mkEv 10 0x40 b domNone (s.m.rd O.bsnSplit k * 2 ^ 32) 0 (16 * s.m.dp.growths + k)])) ∧
  (∀ (s : State) (ses : Fin 64) (b : Fin 16), s.Live → s.Admits ses O.trcArm b 0 →
    Completes (.trcArm ses b) s fun m' =>
      m'.com.status = .ok ∧ m'.rd O.trcState b = (if s.m.rd O.trcMode b = 0 then 0 else 1) ∧ m'.rd O.trcNext b = 0 ∧ m'.rd O.trcLost b = 0 ∧
      (m'.slu b).trcQ = [])

/-- R308, R310 to R314, R337, R350, R361, R369 to R373: at the head of its key's chain CREATE makes the record of its entry, asking for a port where its
class has a pool, or is refused where its destination is no backend group or the table has no room; LINK-CREATE makes the link of a pair, or undoes
the pair; PAIR-NOTE copies the closing bits to the partner and PAIR-DELETE deletes it, void where the record is not there. An event whose entry waits
does nothing yet, one whose entry is lost ends, and a context waits for its posts to meet their lists. -/
def Obligations.RecordsCreated : Prop :=
  (∀ (s : State) (b : Fin 16) (k : Nat), s.Live →
    Completes (.create b k) s fun m' =>
      (s.m.turn b k 1 = .wait → m' = s.m) ∧ (s.m.turn b k 1 = .gone → m' = s.m.ctxDone s.mc b k 0) ∧
      (∀ cx e x d p, s.m.turn b k 1 = .head cx e x → d = fld 16 (x.result.getD 0) 4 4 →
        p = (if cx.asked then .got (fld 32 x.cls 4 3) else s.m.poolOf x.cls) →
        (d / 2 ^ 28 = 5 → s.m.entF O.epTable 0 (d % 2 ^ 24) 0 1 ≠ 1 →
          m' = (s.m.bump O.bsnEndpointInvalid b).createFails s.mc b k e x 0x20 24 ∧ (cx.posts = 0 → m'.ctx b k = none)) ∧
        (d / 2 ^ 28 ≠ 5 → p = .none →
          ∀ r ver, s.m.passRecord x (s.m.newRec x) (filterDrops (s.m.newRec x) 0 (bit (fld 64 x.q 58 1) 6) (fld 64 x.q 59 1)) 0x40 = (r, ver) →
            (∀ z, s.m.placeNew s.mc b e r = .wait z → m' = z) ∧
            (∀ z, s.m.placeNew s.mc b e r = .full z → rPaired r = false →
              m' = (z.bump O.bsnTableFull b).createFails s.mc b k e x 0x33 24 ∧ (cx.posts = 0 → m'.ctx b k = none)) ∧
            (∀ g z y, s.m.placeNew s.mc b e r = .at_ g z → rPaired r = false → y = ((z.recMade s.mc b r).pendDone b x.key).epUsed [rf r 90 3] →
              m' = (y.freed.sendVerdict b x ver).recDone s.mc b k e 1 (24 + 3 * y.movesOf b e) (some x.key) r 0 (y.freeVal 8) ∧
              (cx.posts = 0 → m'.ctx b k = none))) ∧
        (∀ i, d / 2 ^ 28 ≠ 5 → p = .got i →
          (cx.asked = false → s.m.canXlate x.key (s.m.entF O.epTable 0 i 4 16) = true →
            m' = (s.m.setCtx b k (some { cx with asked := true })).postEv b (s.m.poolHome i)
              (mkEv 5 0 b (domPool i) (i * 2 ^ 40 + b * 2 ^ 36 + k * 2 ^ 28) 0 0)) ∧
          (cx.asked = true → cx.reply = none → m' = s.m) ∧
          (∀ why, cx.asked = true → cx.reply = some (.inr why) → m' = s.m.createFails s.mc b k e x why 24) ∧
          (∀ port, cx.asked = true → cx.reply = some (.inl port) →
            m' = s.m.createPlace s.mc b k e x (withXlate (rset (s.m.newRec x) 90 3 i) 1 (s.m.entF O.epTable 0 i 4 16) port) none 24)) ∧
        (∀ i, d / 2 ^ 28 ≠ 5 → p = .got i → cx.asked = false → s.m.canXlate x.key (s.m.entF O.epTable 0 i 4 16) = false →
          m' = s.m.createPlace s.mc b k e x (s.m.newRec x) none 24 true) ∧
        (∀ i n, s.m.backend d x.hash = (.got i, n) → p = .none → bit (s.m.entF O.epTable 0 (d % 2 ^ 24) 1 1) 0 = false →
          m' = s.m.createPlace s.mc b k e x (s.m.withPin (s.m.newRec x) i) (some i) (24 + (n - 8 + 7) / 8)))) ∧
  (∀ (s : State) (b : Fin 16) (k : Nat), s.Live →
    Completes (.linkCreate b k) s fun m' =>
      (s.m.turn b k 2 = .wait → m' = s.m) ∧ (s.m.turn b k 2 = .gone → m' = (s.m.linkFailOf b k).ctxDone s.mc b k 0) ∧
      (∀ cx e x, s.m.turn b k 2 = .head cx e x →
        (s.m.running .basin b = false ∨ (∃ w y, s.m.wayByKey b x.hash x.key = some (w, y) ∧ s.m.expired y.rec_ = none) →
          m' = (s.m.linkFail b cx.ev (byCtx b k)).recDone s.mc b k e 2 8 none 0 2 0 ∧
          ∃ f, m'.ctx b k = some { cx with posts := cx.posts + 1, fin := some f }) ∧
        (∀ r, s.m.running .basin b = true → s.m.wayByKey b x.hash x.key = none → s.m.findRec (rKey cx.ev.sender) = none →
          r = s.m.linkRec cx.ev.sender →
          (∀ z, s.m.placeNew s.mc b e r = .wait z → m' = z) ∧
          (∀ z, s.m.placeNew s.mc b e r = .full z → m' = ((z.bump O.bsnTableFull b).linkFail b cx.ev (byCtx b k)).recDone s.mc b k e 2 8 none 0 2 0) ∧
          (∀ g z, s.m.placeNew s.mc b e r = .at_ g z →
            m' = ((z.recMade s.mc b r).setPair x.key cx.ev.pair).freed.recDone s.mc b k e 2 8 (some x.key) r 0 (z.freeVal 8) ∧ (cx.posts = 0 → m'.ctx b k = none))))) ∧
  (∀ (s : State) (b : Fin 16) (k : Nat), s.Live →
    Completes (.pairNote b k) s fun m' =>
      (s.m.turn b k 3 = .wait → m' = s.m) ∧ (s.m.turn b k 3 = .gone → m' = s.m.ctxDone s.mc b k 0) ∧
      (∀ cx e x, s.m.turn b k 3 = .head cx e x → (cx.posts = 0 → m'.ctx b k = none) ∧
        (s.m.wayByKey b x.hash x.key = none ∨ (∃ w y, s.m.wayByKey b x.hash x.key = some (w, y) ∧ s.m.namesSender y.rec_ cx.ev = false) ∨
          s.m.pairOf x.key ≠ cx.ev.pair →
          m' = (s.m.bump O.pairNoteVoid b).recDone s.mc b k e 3 4 none 0 1 0) ∧
        (∀ w y u, s.m.wayByKey b x.hash x.key = some (w, y) → s.m.namesSender y.rec_ cx.ev = true → s.m.pairOf x.key = cx.ev.pair →
          u = rChange y.rec_ (rsetBits (rsetBits y.rec_ 50 5 4 (cx.ev.arg / 2 ^ 62)) 50 3 3 (cx.ev.arg / 2 ^ 61 % 2)) →
          m' = (s.m.setRec w y u).recDone s.mc b k e 3 4 (some x.key) u 0 0))) ∧
  (∀ (s : State) (b : Fin 16) (k : Nat), s.Live →
    Completes (.pairDelete b k) s fun m' =>
      (s.m.turn b k 4 = .wait → m' = s.m) ∧ (s.m.turn b k 4 = .gone → m' = s.m.ctxDone s.mc b k 0) ∧
      (∀ cx e x, s.m.turn b k 4 = .head cx e x → cx.ev.flag 3 = false →
        (s.m.wayByKey b x.hash x.key = none → cx.ev.flag 4 = false → m' = (s.m.bump O.pairDeleteVoid b).recDone s.mc b k e 4 6 none 0 1 0) ∧
        (s.m.wayByKey b x.hash x.key = none → cx.ev.flag 4 = true → s.m.dp.linkFails.contains (rKey cx.ev.sender) = true →
          m' = ({ s.m with dp.linkFails := s.m.dp.linkFails.erase (rKey cx.ev.sender) }).recDone s.mc b k e 4 6 none 0 1 0) ∧
        (∀ i, s.m.wayByKey b x.hash x.key = none → cx.ev.flag 4 = true → s.m.dp.linkFails.contains (rKey cx.ev.sender) = false →
          i = fld 8 cx.ev.arg 0 3 → i ≠ 0xFFFFFF →
          m' = (s.m.postRelease b k i (fld 8 cx.ev.arg 3 2)).recDone s.mc b k e 4 6 none 0 1 0) ∧
        (∀ w y, s.m.wayByKey b x.hash x.key = some (w, y) → s.m.namesSender y.rec_ cx.ev = true → fld 8 cx.ev.arg 0 3 = 0xFFFFFF →
          m' = (s.m.delRec s.mc b w y 4 false true).recDone s.mc b k e 4 6 none y.rec_ 0 4 ∧ (∃ u, m'.way w = some u ∧ u.rec_ = 0) ∧
          (cx.posts = 0 → m'.ctx b k = none))))

/-- R284, R286, R343, R369, R370, R375, R377, R385: POOL-ALLOC takes the first free port from the cursor on and PORT-RELEASE gives one back, or reports a
port that is not out, and a scan that meets a poisoned line of the bitmap fails (R436); AGE deletes a record that is still expired; EXPORT tells of a refusal or an active flow; SWEEP visits its buckets, or waits at a full
list; SPLIT moves on the split pointer; a recount makes the pools good. -/
def Obligations.MillWork : Prop :=
  (∀ (s : State) (b : Fin 16) (k : Nat) (cx : Ctx) (e lo hi : Nat), s.Live → s.m.ctx b k = some cx → cx.ev.kind = 5 → e = cx.ev.arg / 2 ^ 40 →
    lo = s.m.entF O.epTable 0 e 30 2 → hi = s.m.entF O.epTable 0 e 32 2 → (s.m.ppool e).buf ≠ none →
    Completes (.poolAlloc b k) s fun m' =>
      (∀ j, ((poolScan lo hi (s.m.ppool e).cursor).findIdx? fun q => (s.m.ppool e).bad.contains (q / 512)) = some j →
        (∀ i, ((poolScan lo hi (s.m.ppool e).cursor).findIdx? fun q => !mget false (s.m.ppool e).bits q) = some i → j ≤ i) →
        (m'.ppool e).bits = (s.m.ppool e).bits ∧ m'.rd O.poolState = 1) ∧
      (((poolScan lo hi (s.m.ppool e).cursor).findIdx? fun q => !mget false (s.m.ppool e).bits q) = none →
        (m'.ppool e).bits = (s.m.ppool e).bits ∧ m'.rd O.poolExhaustedCnt b = (s.m.rd O.poolExhaustedCnt b + 1) % 2 ^ (8 * O.poolExhaustedCnt.len)) ∧
      (∀ i port, ((poolScan lo hi (s.m.ppool e).cursor).findIdx? fun q => !mget false (s.m.ppool e).bits q) = some i → (s.m.ppool e).bad = [] →
        port = (poolScan lo hi (s.m.ppool e).cursor).getD i 0 →
        mget false (m'.ppool e).bits port = true ∧ (m'.ppool e).count = (s.m.ppool e).count + 1 ∧
        (m'.ppool e).cursor = (if port = hi then lo else port + 1) ∧
        m'.rd O.poolAllocs b = (s.m.rd O.poolAllocs b + 1) % 2 ^ (8 * O.poolAllocs.len))) ∧
  (∀ (s : State) (b : Fin 16) (k : Nat) (cx : Ctx) (e port : Nat), s.Live → s.m.ctx b k = some cx → cx.ev.kind = 6 → e = fld 8 cx.ev.arg 0 3 →
    port = fld 8 cx.ev.arg 3 2 →
    Completes (.portRelease b k) s fun m' =>
      (cx.posts = 0 → m'.ctx b k = none) ∧
      if mget false (s.m.ppool e).bits port = true then
        mget false (m'.ppool e).bits port = false ∧ (m'.ppool e).count = (s.m.ppool e).count - 1 ∧ m'.flt = s.m.flt ∧
        (∀ lo hi, lo ≤ port → port ≤ hi → ∃ i, ((poolScan lo hi (m'.ppool e).cursor).findIdx? fun q => !mget false (m'.ppool e).bits q) = some i)
      else
        m'.dp.ppool = s.m.dp.ppool ∧ m'.rd O.portFreeFault b = (s.m.rd O.portFreeFault b + 1) % 2 ^ (8 * O.portFreeFault.len) ∧
        AppendsFault s.m m' (256 + 2 * b) 0x0A b) ∧
  (∀ (s : State) (b : Fin 16) (k : Nat), s.Live →
    Completes (.age b k) s fun m' =>
      (s.m.turn b k 7 = .wait → m' = s.m) ∧ (s.m.turn b k 7 = .gone → m' = s.m.ctxDone s.mc b k 0) ∧
      (∀ cx e x, s.m.turn b k 7 = .head cx e x →
        (s.m.wayByKey b x.hash x.key = none ∨ (∃ w y, s.m.wayByKey b x.hash x.key = some (w, y) ∧ s.m.expired y.rec_ = none) →
          m' = (s.m.bump O.ageVoid b).recDone s.mc b k e 7 10 none 0 1 0 ∧ (cx.posts = 0 → m'.ctx b k = none)) ∧
        (∀ w y why, s.m.wayByKey b x.hash x.key = some (w, y) → s.m.expired y.rec_ = some why →
          m' = (s.m.ageOut s.mc b w y why (byCtx b k)).recDone s.mc b k e 7 10 none y.rec_ 0 why ∧ (∃ u, m'.way w = some u ∧ u.rec_ = 0) ∧
          (rPaired y.rec_ = false → cx.posts = 0 → m'.ctx b k = none)))) ∧
  (∀ (s : State) (b : Fin 16) (k : Nat) (cx : Ctx), s.Live → s.m.ctx b k = some cx → cx.ev.kind = 8 →
    Completes (.exportEvent b k) s fun m' =>
      (s.m.epiSets b 8 = false → cx.posts = 0 → m'.ctx b k = none) ∧
      (fld 8 cx.ev.arg 0 1 = 1 →
        m' = (s.m.flRefusal s.mc b cx.ev.body (fld 8 cx.ev.arg 1 1)).ctxFinish s.mc b k ⟨none, 8, 4, none, 0, 0, 2⟩) ∧
      (fld 8 cx.ev.arg 0 1 ≠ 1 →
        (s.m.findRec cx.ev.body = none → m' = s.m.ctxFinish s.mc b k ⟨none, 8, 4, none, 0, 1, 2⟩) ∧
        ∀ g r, s.m.findRec cx.ev.body = some (g, r) →
          (∀ z, (s.m.epiSets b 8 = false ∨ (s.m.wayBySlot g).isSome = true) ∧ z = s.m ∨
              s.m.epiSets b 8 = true ∧ s.m.wayBySlot g = none ∧ s.m.place b g (s.m.hOf cx.ev.body) r false = some z →
            m' = (z.flFlow s.mc b (z.rd O.flFlowTemplate) r 2 true).ctxFinish s.mc b k ⟨none, 8, 4, some cx.ev.body, r, 0, 2⟩) ∧
          (s.m.epiSets b 8 = true → s.m.wayBySlot g = none → s.m.place b g (s.m.hOf cx.ev.body) r false = none → m' = s.m))) ∧
  (∀ (s : State) (b : Fin 16) (k n : Nat) (cx : Ctx), s.Live → s.m.ctx b k = some cx → cx.ev.kind = 9 → n = cx.ev.arg / 2 ^ 16 % 2 ^ 16 →
    Completes (.sweep b k) s fun m' =>
      (∀ z, s.m.sweepRun s.mc b k cx.ev.sender (cx.ev.arg / 2 ^ 32) n cx.ev.pos (4 * n + 1) = (none, z) → (z.slu b).sweepDue = false →
        (cx.posts = 0 → m'.ctx b k = none) ∧ (m'.slu b).sweepOut = false) ∧
      (∀ pos full z, s.m.sweepRun s.mc b k cx.ev.sender (cx.ev.arg / 2 ^ 32) n cx.ev.pos (4 * n + 1) = (some (pos, full), z) →
        m'.ctx b k = some { cx with ev := { cx.ev with pos := pos, waited := full } } ∧
        (full = true → cx.ev.waited = false ∨ pos ≠ cx.ev.pos →
          m'.rd O.sweepStalls b = (z.rd O.sweepStalls b + 1) % 2 ^ (8 * O.sweepStalls.len)) ∧
        (full = false → m'.rd O.sweepStalls b = z.rd O.sweepStalls b))) ∧
  (∀ (s : State) (b : Fin 16) (k p j : Nat) (cx : Ctx), s.Live → s.m.ctx b k = some cx → cx.ev.kind = 10 → p = cx.ev.arg / 2 ^ 32 →
    j = cx.ev.sender % 16 →
    Completes (.split b k) s fun m' =>
      (s.m.dp.growing = false ∨ cx.ev.sender / 16 ≠ s.m.dp.growths ∨ s.m.rd O.bsnSplit j ≠ p →
        (cx.posts = 0 → m'.ctx b k = none) ∧ (m'.slu b).splitOut = false ∧ m'.dp.eddy = s.m.dp.eddy ∧ m'.rd O.bsnSplit j = s.m.rd O.bsnSplit j) ∧
      (s.m.dp.growing = true → cx.ev.sender / 16 = s.m.dp.growths → s.m.rd O.bsnSplit j = p →
        (s.m.running .basin b = false → m' = s.m) ∧
        (∀ i z, s.m.running .basin b = true → (s.m.splitBegin j p).splitRun s.mc b k j p cx.ev.pos 16 = (false, i, z) →
          m' = z.setCtx b k (some { cx with ev := { cx.ev with pos := i, waited := true } })) ∧
        (∀ i z, s.m.running .basin b = true → (s.m.splitBegin j p).splitRun s.mc b k j p cx.ev.pos 16 = (true, i, z) →
            mget false m'.dp.splits j = false ∧ (cx.posts = 0 → m'.ctx b k = none) ∧ (m'.slu b).splitOut = false ∧
            if ((List.range 16).all fun i => decide ((z.wr O.bsnSplit j (p + 1)).rd O.bsnSplit i = z.nb)) = true then
              m'.dp.growing = false ∧ m'.rd O.flwSizeLog2 = z.rd O.flwSizeLog2 + 1 ∧ ∀ i : Fin 16, m'.rd O.bsnSplit i = 0
            else m'.dp.growing = z.dp.growing ∧ m'.rd O.bsnSplit j = p + 1))) ∧
  (∀ (s : State) (ses : Fin 64), s.Live → s.Admits ses O.poolRecount 0 0 →
    Completes (.poolRecount ses) s fun m' =>
      if s.m.basinsStopped = true ∧ ∀ v ∈ List.range 16, s.m.running .sluice v = true then
        m'.com.status = .deferred ∧ m'.poolStateV = 2 ∧ m'.dp.ppool = s.m.dp.ppool
      else m' = s.m.st .functionRunning) ∧
  (∀ (s : State), s.Live →
    Completes .poolRecountDone s fun m' =>
      if s.m.dp.recounting = true then m'.poolStateV = 0 ∧ m'.dp.recounting = false else m' = s.m)

/-! Lifecycle, keys and debug (chs. 18 and 19). -/

/-- R535 to R540: what the lifecycle commands draw and do. LC-SHIP makes a device in TEST or RETURNED, with its claim slot LOADED, SHIPPED in PILOT;
OWNER-CLAIM makes it OWNED with a new root and its claim slot LOCKED; OWNER-TRANSFER replaces the root; OWNER-RETURN erases the owner's slots and root. -/
def Obligations.LifecycleCommands : Prop :=
  (∀ (s : State) (ses : Fin 64), s.Powered → s.Admits ses O.lcShip 0 0 →
    Moves (.lcShip ses) s fun c' m' =>
      c' = s.mc ∧
      if ¬ (s.m.sec.life = .test ∨ s.m.sec.life = .returned) ∨ (s.m.slot 64).state ≠ 1 then m' = s.m.st .lifecycle
      else if s.mc.mode ≠ .pilot then m' = s.m.st .mode
      else m'.com.status = .ok ∧ m'.sec.life = .shipped ∧ m'.rd O.lcSince = s.m.now ∧ m'.rd O.sesPaths = 3 ∧ m'.dp = s.m.dp ∧ m'.com.fns = s.m.com.fns) ∧
  (∀ (s : State) (ses : Fin 64) (arg : Nat), s.Powered → s.Admits ses O.ownerClaim 0 arg →
    Moves (.ownerClaim ses arg) s fun c' m' =>
      c' = s.mc ∧
      if s.m.sec.life ≠ .shipped then m' = s.m.st .lifecycle
      else if s.mc.mode ≠ .pilot then m' = s.m.st .mode
      else if arg ≠ digest8 (octets 1312 (s.m.rd O.ownerRootNext)) ∨ s.m.otherWayIn = false then m' = s.m.st .range
      else
        m'.com.status = .ok ∧ m'.sec.life = .owned ∧ m'.sec.root = octets 1312 (s.m.rd O.ownerRootNext) ∧ (m'.slot 64).state = 3 ∧
        m'.rd O.secFloorOwner = 0 ∧ m'.rd O.lcSince = s.m.now) ∧
  (∀ (s : State) (ses : Fin 64) (arg : Nat), s.Powered → s.Admits ses O.ownerTransfer 0 arg →
    Moves (.ownerTransfer ses arg) s fun c' m' =>
      c' = s.mc ∧
      if s.m.sec.life ≠ .owned then m' = s.m.st .lifecycle
      else if arg ≠ digest8 (octets 1312 (s.m.rd O.ownerRootNext)) then m' = s.m.st .range
      else if s.m.bundleBusy = true then m' = s.m.st .busy
      else
        m'.com.status = .ok ∧ m'.sec.life = .owned ∧ m'.sec.root = octets 1312 (s.m.rd O.ownerRootNext) ∧ m'.rd O.secFloorOwner = 0 ∧
        (m'.slot 64).state = (s.m.slot 64).state) ∧
  (∀ (s : State) (ses : Fin 64) (arg : Nat), s.Powered → s.Admits ses O.ownerReturn 0 arg →
    Moves (.ownerReturn ses arg) s fun c' m' =>
      c' = s.mc ∧
      if s.m.sec.life ≠ .owned then m' = s.m.st .lifecycle
      else if s.mc.mode ≠ .pilot then m' = s.m.st .mode
      else if arg ≠ Config.devSerial.toNat then m' = s.m.st .range
      else
        m'.com.status = .ok ∧ m'.sec.life = .returned ∧ m'.sec.root = [] ∧ m'.rd O.secFloorOwner = 0 ∧ ∀ k, k < 64 → (m'.slot k).state = 0)

/-- R546, R547, R559, R562, R565: SLOT-ERASE empties a slot that no enabled session names; a TRNG health failure stops the DRBG until a retest passes;
a cipher request of an owned device is carried out in its entry, and one that seals uses up a nonce of its slot. -/
def Obligations.KeysAndCipher : Prop :=
  (∀ (s : State) (ses : Fin 64) (k : Fin 69), s.Powered → s.Admits ses O.slotErase k 0 →
    Completes (.slotErase ses k) s fun m' =>
      if 64 ≤ k.val then m' = s.m.st .range
      else if ((List.range 64).any fun j => s.m.sesEn j && decide (s.m.sesSlot j = k)) = true then m' = s.m.st .busy
      else m'.com.status = .ok ∧ (m'.slot k).state = 0 ∧ m'.rd O.slotLoaded k = 0 ∧ ∀ j : Fin 69, j ≠ k → (m'.slot j).state = (s.m.slot j).state) ∧
  (∀ (s : State), s.Powered →
    Completes .trngHealthFail s fun m' =>
      if s.m.rd O.trngState = 2 then m' = s.m
      else m'.rd O.trngState = 2 ∧ m'.rd O.trngFails = (s.m.rd O.trngFails + 1) % 2 ^ (8 * O.trngFails.len) ∧ m'.dp = s.m.dp) ∧
  (∀ (s : State) (ses : Fin 64) (pass : Bool), s.Powered → s.Admits ses O.trngRetest 0 0 →
    Completes (.trngRetest ses pass) s fun m' =>
      m'.com.status = .ok ∧ m'.rd O.trngState = (if pass then 0 else 2) ∧ (pass = true → m'.sec.generates = 0) ∧ m'.dp = s.m.dp) ∧
  (∀ (s : State) (ses : Fin 64) (i : Fin 16) (op : Nat) (x : Instr) (e : List Byte), s.Powered → cipherRow ses i op = some x →
    s.m.sesOn ses = true → areaOpen s.mc.judged 0xA0 0x400 true = true → 2 ≤ s.m.sesP ses → e = s.m.cipherEnt ses i → oct e 0 1 = op →
    Completes x s fun m' =>
      (s.m.sec.life ≠ .owned → m' = s.m.st .lifecycle) ∧
      (s.m.sec.life = .owned → cipherEntryOk e = false → m' = s.m.st .range) ∧
      (s.m.sec.life = .owned → cipherEntryOk e = true →
        m'.com.status = .ok ∧ m'.ent O.cipherReq 0 (16 * ses + i) = ofOctets (s.m.cipher s.mc e).1 ∧
        (s.m.sealSlot (oct e 2 1) = true → op = 1 ∨ op = 3 → (s.m.slot (oct e 2 1)).nonce + 1 < 2 ^ 48 →
          (m'.slot (oct e 2 1)).nonce = (s.m.slot (oct e 2 1)).nonce + 1) ∧
        (s.m.sealSlot (oct e 2 1) = false ∨ op = 2 ∨ op = 4 → m'.sec = s.m.sec)))

/-- R568 to R580, Tables 19.2 and 19.4: a TAP instruction is taken where its level and mode allow it, and refused into BYPASS; under EXTEST and CLAMP the
output balls stand at their boundary cells, whose contents are free (log entry 128), under HIGHZ at none, and else at what the block drives; instruments are read and
margins overridden under their instructions; a wick that passes its checks is in force until it expires or is revoked; TEST has its own level request. -/
def Obligations.DebugServed : Prop :=
  (∀ (s : State) (op : Fin 256) (island : Bool), s.Live →
    Completes (.tapInstructionLoad op island) s fun m' =>
      (tapKnown op = false → m' = { s.m with dbg.tap := 0xFF }) ∧
      (tapKnown op = true → s.m.tapOk s.mc op = false → m' = { (s.m.bump O.dbgTapRefused) with dbg.tap := 0xFF }) ∧
      (tapKnown op = true → s.m.tapOk s.mc op = true → op.val ≠ 0x20 → op.val ≠ 2 → op.val ≠ 3 → op.val ≠ 1 → m' = { s.m with dbg.tap := op }) ∧
      (op.val = 1 → m' = ({ s.m with dbg.tap := 1 }).val 0x1204876B) ∧
      (s.m.tapOk s.mc op = true → op.val = 2 ∨ op.val = 3 → m' = ({ s.m with dbg.tap := op, dbg.cells := s.m.freeVal 8 }).freed) ∧
      (op.val = 3 ∨ op.val = 4 → s.m.tapOk s.mc op = true →
        m'.balls s.mc = [some (bit m'.dbg.cells 0), some (bit m'.dbg.cells 1), some (bit m'.dbg.cells 2)]) ∧
      (op.val = 5 → s.m.tapOk s.mc op = true → m'.balls s.mc = [none, none, none]) ∧
      ((op.val ≠ 3 ∧ op.val ≠ 4 ∧ op.val ≠ 5) ∨ s.m.tapOk s.mc op = false →
        m'.balls s.mc = [some (m'.faultN s.mc), some (m'.ready s.mc), some m'.thermtripN]) ∧
      (s.m.tapOk s.mc op = true → op.val = 0x20 → s.m.dbg.scanned = false → (m'.slot 65).state = 0 ∧ m'.dbg.scanned = true ∧ m'.dp.hbm = [])) ∧
  (∀ (s : State) (op : IjtagOp) (ro rw : Bool), s.Live → rw = (decide (s.m.dbg.tap = 0x11) && s.m.tapOk s.mc 0x11) →
    ro = (rw || (decide (s.m.dbg.tap = 0x10) && s.m.tapOk s.mc 0x10)) →
    Moves (.ijtagAccess op) s fun c' m' =>
      c' = s.mc ∧
      (∀ t, op = .read t → m'.com.objs = s.m.com.objs ∧ m'.dp = s.m.dp ∧
        (ro = false ∨ t = 439 → m' = s.m) ∧ (ro = true → t ≠ 439 → s.m.tilePower s.mc t = 1 → m'.com.value = s.m.freeVal 32) ∧
        (ro = true → t ≠ 439 → s.m.tilePower s.mc t ≠ 1 → m'.com.value = 2 ^ 32)) ∧
      (∀ t k, op = .margin t k →
        (rw = true → t < 442 → t ≠ 439 → k < 64 → m' = { s.m with pwr.override := mset none s.m.pwr.override t (some k) } ∧ m'.tileMargin t = k) ∧
        (rw = false → m' = s.m)) ∧
      (∀ t, op = .bist t → rw = true → t < 436 → s.m.tilePower s.mc t = 1 → m' = s.m.blkWipe s.mc (blkOf t)) ∧
      (∀ f, op = .inject f → rw = true → AppendsFault s.m m' f.tile f.cls f.detail)) ∧
  (∀ (s : State) (ses : Fin 64) (sigOk : Bool) (w : List Byte), s.Live → s.Admits ses O.wickApply 0 0 → w = s.m.wickBuf →
    Moves (.wickApply ses sigOk) s fun c' m' =>
      c' = s.mc ∧ (s.m.wickStatus s.mc w sigOk ≠ .ok → m' = s.m.st (s.m.wickStatus s.mc w sigOk)) ∧
      (s.m.wickStatus s.mc w sigOk = .ok →
        m'.com.status = .ok ∧ m'.dbg.wick = some ⟨oct w 48 1, oct w 50 1, oct w 88 8⟩ ∧ m'.rd O.dbgExpiry = s.m.ns + oct w 52 4 * 1000000000 ∧
        m'.rd O.dbgWickSession = oct w 50 1 ∧ m'.dbg.level = m'.dbgGives ∧ m'.dp = s.m.dp)) ∧
  (∀ (s : State) (ses : Fin 64), s.Live → s.Admits ses O.wickRevoke 0 0 →
    Moves (.wickRevoke ses) s fun c' m' =>
      c' = s.mc ∧ m'.com.status = .ok ∧ m'.dbg.wick = none ∧ (s.m.dbg.wick = none → m' = s.m.st .ok) ∧
        (s.m.dbg.wick ≠ none → m'.rd O.dbgExpiry = 0 ∧ m'.dbg.level = m'.dbgGives)) ∧
  (∀ (s : State), s.Live →
    Moves .wickExpiry s fun c' m' =>
      c' = s.mc ∧ (s.m.dbg.wick = none → m' = s.m) ∧
      (s.m.dbg.wick ≠ none → m'.dbg.wick = none ∧ s.m.rd O.dbgExpiry ≤ m'.ns ∧ m'.dbg.level = m'.dbgGives)) ∧
  (∀ (s : State) (ses : Fin 64) (v : Nat), s.Live → s.Admits ses O.dbgLevelReq 0 v →
    Moves (.dbgLevelReq ses v) s fun c' m' =>
      c' = s.mc ∧
      if s.m.sec.life ≠ .test then m' = s.m.st .lifecycle
      else if 4 < v % 256 then m' = s.m.st .range
      else if levelModeOk s.mc (v % 256) = false then m' = s.m.st .mode
      else m'.com.status = .ok ∧ m'.dbg.testLevel = some (v % 256) ∧ m'.dbg.level = m'.dbgGives) ∧
  (∀ (s : State) (ses : Fin 64) (v : Nat) (i : Instr) (o : ObjDef), s.Live → s.Admits ses o 0 v →
    (i = .dbgOwnerConsentWrite ses v ∧ o = O.dbgOwnerConsent) ∨ (i = .dbgObserveEnWrite ses v ∧ o = O.dbgObserveEn) →
    Moves i s fun c' m' => c' = s.mc ∧ m'.com.status = .ok ∧ m'.rd o = v ∧ m'.dbg.level = m'.dbgGives ∧ m'.dp = s.m.dp)

/-! Faults and containment (ch. 20). -/

/-- R584, R586, R588 to R590: a detected fault joins the snuffer's queue, and at 255 waiting it is counted and overflow latched; the snuffer takes the
oldest record, places its block at the level of its class or one above the present one, and faults its functions. -/
def Obligations.FaultsDecided : Prop :=
  (∀ (s : State) (f : FaultRep), s.Live →
    Moves (.faultDetect f) s fun c' m' =>
      c' = s.mc ∧ m'.dp = s.m.dp ∧ m'.com.fns = s.m.com.fns ∧
      (s.m.flt.queue.length < 255 → AppendsFault s.m m' f.tile f.cls f.detail ∧ m'.flt.blk = s.m.flt.blk) ∧
      (255 ≤ s.m.flt.queue.length → s.m.flt.queue.any (·.overflow) = false → m'.rd O.fltOverflowLatch = 1 ∧ m'.flt.queue.any (·.overflow) = true)) ∧
  (∀ (s : State), s.Live → s.m.flt.queue = [] → Moves .snufferDecide s fun c' m' => c' = s.mc ∧ m' = s.m) ∧
  (∀ (s : State) (r : FltRec) (t : List FltRec) (lvl : Nat), s.Live → s.m.flt.queue = r :: t → r.overflow = false → r.tile < 442 →
    lvl = (s.m.cont r.tile).level →
    Moves .snufferDecide s fun c' m' =>
      c' = s.mc ∧
      (r.init = 0 ∨ r.suppressed = true ∨ topLevel r.tile ≤ lvl → m'.flt.queue = t ∧ m'.flt.blk = s.m.flt.blk ∧ m'.dp = s.m.dp ∧ m'.com.fns = s.m.com.fns) ∧
      (r.init ≠ 0 → r.suppressed = false → lvl < topLevel r.tile → (tileBlk r.tile).1 ≠ .chset →
        (m'.cont r.tile).level = if lvl = 0 then min r.init (topLevel r.tile) else lvl + 1) ∧
      (r.init ≠ 0 → r.suppressed = false → lvl = 0 → r.init < 3 → (tileBlk r.tile).1 = .reach ∨ (tileBlk r.tile).1 = .basin ∨ (tileBlk r.tile).1 = .mill →
        ∀ f ∈ blkFns (tileBlk r.tile).1 (tileBlk r.tile).2, m'.fst f = .faulted))

/-- R588, R590, R598, R600, R601, R604: a block at level 1 whose reset is over runs again, and its containment ends FLT-STABLE later; FLT-RESTORE begins
the way back of what is isolated; a share is handed back and a stack rebuilt; FLT-ACK clears the overflow latch or the pin latch; a snuffer whose
heartbeat stops leaves only the Lantern die's own rows. -/
def Obligations.ContainmentEnds : Prop :=
  (∀ (s : State) (t : Fin 442), s.Live →
    Moves (.blockRestartComplete t) s fun c' m' =>
      c' = s.mc ∧
      (s.m.restartOn s.mc t = false → m' = s.m) ∧
      ((s.m.cont t).hostReset = false → (s.m.cont t).level ≠ 1 ∨ (s.m.cont t).resetting = false → m' = s.m) ∧
      (∀ k : Fin 8, t.val = 416 + k → (s.m.cont t).hostReset = true → (s.m.cont t).level < 2 → (s.m.cont t).resetting = false →
        s.m.restartOn s.mc t = true → m'.stackStale k = true ∧ (m'.cont t).hostReset = false ∧ (m'.cont t).level = (s.m.cont t).level) ∧
      ((s.m.cont t).level = 1 → (s.m.cont t).resetting = true → s.m.restartOn s.mc t = true →
        (m'.cont t).level = 1 ∧ (m'.cont t).resetting = false ∧ ((s.m.cont t).restore = false → (m'.cont t).stableAt = some s.m.ns))) ∧
  (∀ (s : State) (t : Fin 442), s.Live →
    Moves (.containmentEnd t) s fun c' m' =>
      c' = s.mc ∧
      ((s.m.cont t).stableAt = none ∨ (s.m.cont t).level ≠ 1 ∨ (s.m.cont t).resetting = true → m' = s.m) ∧
      (∀ u, (s.m.cont t).stableAt = some u → (s.m.cont t).level = 1 → (s.m.cont t).resetting = false →
        (m'.cont t).level = 0 ∧ u + 1000 * s.m.rd O.fltStable ≤ m'.ns ∧ m'.rd O.fltBlkSince (blkOf t) = m'.now ∧ m'.dp = s.m.dp)) ∧
  (∀ (s : State) (ses : Fin 64) (arg : Nat) (keys : List Nat), s.Live → s.Admits ses O.fltRestore 0 arg →
    keys = (s.m.restoreKeys arg).filter (fun k => decide (2 ≤ (mget {} s.m.flt.blk k).level)) →
    Moves (.fltRestore ses arg) s fun c' m' =>
      c' = s.mc ∧
      (keys = [] → m' = s.m.st .range) ∧
      ((keys.any fun k => decide (k < 1000) && s.m.restoreOwes k) = true → m' = s.m.st .busy) ∧
      (keys ≠ [] → (keys.any fun k => decide (k < 1000) && s.m.restoreOwes k) = false → m'.com.status = .deferred) ∧
      (∀ k, keys = [k] → k < 442 → blkOf k = k → s.m.restoreOwes k = false →
        (m'.cont k).level = 1 ∧ (m'.cont k).resetting = true ∧ (m'.cont k).restore = true)) ∧
  (∀ (s : State) (b : Fin 16), s.Live →
    Completes (.handbackComplete b) s fun m' =>
      if (s.m.flt.handback.any fun x => decide (x.1 = b)) = true ∧ ((s.m.ifts (s.m.server b)).any fun p => decide (s.m.shareOf p.2.key = b)) = false then
        m'.server b = b ∧ (m'.flt.handback.any fun x => decide (x.1 = b)) = false
      else m' = s.m) ∧
  (∀ (s : State) (k : Fin 8), s.Live →
    Completes (.stackRebuildComplete k) s fun m' =>
      if s.m.stackStale k = false ∨ s.m.stackLost k = true ∨ (mget false s.m.flt.lostPair (k % 4) = false ∧ s.m.stackLost (partner k) = true) then m' = s.m
      else m'.stackStale k = false ∧ s.m.rebuildEnd k ≤ m'.ns ∧ m'.rd O.fltRebuildDone k = 0x210000000 ∧ mget false m'.flt.lostPair (k % 4) = false) ∧
  (∀ (s : State) (ses : Fin 64), s.Live → s.Admits ses O.fltAck 0 0 →
    Moves (.fltAckOverflow ses) s fun c' m' =>
      c' = s.mc ∧
      if (s.m.flt.queue.any fun r => r.overflow || r.rescan) = true then m' = s.m.st .busy
      else m'.com.status = .ok ∧ m'.rd O.fltOverflowLatch = 0 ∧ m'.flt = s.m.flt ∧ m'.dp = s.m.dp) ∧
  (∀ (s : State) (ses : Fin 64), s.Live → s.Admits ses O.fltAck 0 1 →
    Moves (.fltAckPin ses) s fun c' m' => c' = s.mc ∧ m' = ({ s.m with flt.pinLatch := false }).st .ok) ∧
  (∀ (s : State), s.Live → Completes .snufferHeartbeatLoss s fun m' => m' = { s.m with flt.dead := true } ∧ m'.faultN s.mc = false) ∧
  (∀ (s : State) (i : Instr), s.m.flt.dead = true → lanternRow i = false → exec i s = .fault .snufferDead)

/-! Trim and the Adtieb record (ch. 21). -/

/-- R613 to R615, R618 to R620: an entry of a view of the working image is written in TRIM where it may stand there; a measurement puts its codes into it; a
commit raises its generation and ends with the image stored; a commit of the Adtieb record that falls due takes the next slot; each whole second of FRC is
counted once against its mode and what held in it, and each temperature and core voltage in its bin. -/
def Obligations.TrimAndAdtieb : Prop :=
  (∀ (s : State) (ses : Fin 64) (view : Fin 3) (i : Nat) (val : List Byte), s.Live → s.m.sesOn ses = true →
    areaOpen s.mc.judged 0xB8 0x11 true = true → 2 ≤ s.m.sesP ses →
    Completes (.trimWorkWrite ses view i val) s fun m' =>
      (s.mc.mode ≠ .trim → m' = s.m.st .mode) ∧
      (∀ g, s.mc.mode = .trim → s.m.trm.work = some g →
        (view.val = 1 → val.length = 16 → i < 442 → tileRecOk i (ofOctets val) = true → s.m.trimBusy = false →
          m' = ({ s.m with trm.work := some { g with tiles := mset none g.tiles i (some (ofOctets val)) } }).st .ok) ∧
        (view.val = 2 → val.length = 8 → i < 13 → dieRecOk i (ofOctets val) = true → s.m.trimBusy = false →
          m' = ({ s.m with trm.work := some { g with dies := mset none g.dies i (some (ofOctets val)) } }).st .ok) ∧
        (view.val = 1 → val.length = 16 → i < 442 → tileRecOk i (ofOctets val) = false → m' = s.m.st .range))) ∧
  (∀ (s : State) (ses : Fin 64) (arg : Nat), s.Live → s.Admits ses O.trimMeasure 0 arg →
    Completes (.trimMeasure ses arg) s fun m' =>
      if s.m.trimBusy = true then m' = s.m.st .busy else m' = ({ s.m with trm.measuring := some arg }).st .deferred) ∧
  (∀ (s : State), s.Live →
    Completes .trimMeasureDone s fun m' =>
      (s.m.trm.measuring = none ∨ s.m.trm.work = none → m' = s.m) ∧
      (∀ arg g, s.m.trm.measuring = some arg → s.m.trm.work = some g →
        m'.trm.measuring = none ∧ ∃ h, m'.trm.work = some h ∧
          (arg ≠ 0xFFFF → h.tile arg = s.m.measured arg (g.tile arg) ∧ ∀ t, t ≠ arg → h.tile t = g.tile t) ∧ h.dies = g.dies)) ∧
  (∀ (s : State) (ses : Fin 64), s.Live → s.Admits ses O.trimCommit 0 0 →
    Completes (.trimCommit ses) s fun m' =>
      (s.m.trm.work = none → m' = s.m.st .mode) ∧
      (s.m.trm.work ≠ none → s.m.trimBusy = true → m' = s.m.st .busy) ∧
      (∀ g, s.m.trm.work = some g → s.m.trimBusy = false →
        m'.com.status = .deferred ∧ m'.trimState = 4 ∧
        ∃ h, m'.trm.committing = some h ∧ h.generation = (g.generation + 1) % 2 ^ 32 ∧ h.written = s.m.now ∧ h.sound = true ∧
          h.origin = (if g.contentDigest = factoryDigest then 0 else 1) ∧ ∀ t, h.tile t = g.tile t)) ∧
  (∀ (s : State), s.Live →
    Completes .trimCommitDone s fun m' =>
      (s.m.trm.committing = none → m' = s.m) ∧
      (∀ g, s.m.trm.committing = some g → m'.trm.stored = some g ∧ m'.trm.committing = none ∧ m'.trimValid = if g.sound then some g else none)) ∧
  (∀ (s : State), s.Powered →
    Completes .adtiebCommit s fun m' =>
      ∃ t, t = (match s.m.trm.commitDue, s.m.trm.lastCommit with
        | true, some u => u + 1000000000
        | _, _ => (s.m.ns / 600000000000 + 1) * 600000000000) ∧ t ≤ m'.ns ∧
      (s.m.trm.commitDue = true ∨ s.m.trm.lastCommit = none →
        m'.rd O.adtCommits = s.m.rd O.adtCommits + 1 ∧ m'.rd O.adtLastCommit = m'.now ∧ m'.trm.lastCommit = some m'.ns ∧ m'.trm.commitDue = false ∧
        m'.trm.images = (⟨s.m.rd O.adtCommits + 1, s.mc.mode.code, s.m.trm.counters, s.m.trm.hists⟩ :: s.m.trm.images).take 16)) ∧
  (∀ (s : State) (temps : List (Option Int)), s.Powered →
    Completes (.adtiebSecond temps) s fun m' =>
      ∃ sec z, sec = max (s.m.trm.secDone + 1) (s.m.ns / 1000000000) ∧ z = s.m.reach (sec * 1000000000) ∧
        m'.trm.secDone = sec ∧ m'.ns = z.ns ∧ sec * 1000000000 ≤ m'.ns ∧
        (∀ i, mget 0 m'.trm.counters i = mget 0 s.m.trm.counters i + (if i = 9 ∧ 1 ≤ s.m.dbg.level then 1 else 0) +
          (if i = 12 ∧ s.m.rd O.marginSource = 1 then 1 else 0) + (if i = 12 + s.mc.mode.code then 1 else 0) +
          (if i = 31 ∧ ((List.range 4).any fun d => decide (z.avsState s.mc d = 3)) = true then 1 else 0)) ∧
        (∀ k t, k < 21 → temps[k]? = some (some t) →
          mget 0 m'.trm.hists (25 * k + tempBin (t + if k < 13 then s.m.tempOffset k else 0)) =
            min 0xFFFFFFFF (mget 0 s.m.trm.hists (25 * k + tempBin (t + if k < 13 then s.m.tempOffset k else 0)) + 1)) ∧
        (∀ d < 4, s.m.diePowered s.mc d = true →
          mget 0 m'.trm.hists (1000 + 24 * d + vcoreBin (s.m.rd O.coreVcoreRead d)) =
            min 0xFFFFFFFF (mget 0 s.m.trm.hists (1000 + 24 * d + vcoreBin (s.m.rd O.coreVcoreRead d)) + 1)))

/-! The block as a whole. -/

/-- A step with a command at the front of the queue is that command's effect on the state with the queue's rest; with an empty queue the clock ticks by
1 ns and nothing else changes, or, in DARK, nothing at all (log entry 6). Nothing follows a command while no reply waits, no flow slot is being read, the
mode is not EBB, no loop has a state and no general counter is selected; nor does a mode move, while no batch runs, no transition is in progress and
GUARD is where containment calls for it. A command of one unit leaves the mode alone but for GUARD (R77). -/
def Obligations.StepRunsFront : Prop :=
  (∀ (s : State) (i : Instr) (r : List Instr), s.pending = i :: r → step s = exec i { s with pending := r }) ∧
  (∀ (s : State), s.pending = [] →
    ∃ t, step s = .next t ∧ t.pending = [] ∧ t.mc = s.mc ∧ t.m.dp = s.m.dp ∧ t.m.com.objs = s.m.com.objs ∧ t.m.clk = s.m.clk ∧
      if s.mc.mode = .dark then t = s else t.m.com.frc = s.m.com.frc + 65536) ∧
  (∀ (m : Mach) (c : ModeCtl), m.clk.owed = [] →
    (∀ v < 16, (∀ w ∈ (m.basin v).inOther, ∀ id, w.op ≠ .read id) ∧ ∀ p ∈ m.ifts v, ∀ id, p.2.op ≠ .read id) →
    c.mode ≠ .ebb → m.pwr.avs = [] → m.gecOn = [] → m.after c = m) ∧
  (∀ (m : Mach) (c : ModeCtl), m.clk.job = none → c.trans = none → m.dbg.scanEnd = false → (c.mode = .lit ∨ c.mode = .lean → m.guardDue = false) →
    (c.mode = .guard → m.guardDue = true) → settled (c, m) = (c, m.after c)) ∧
  (∀ (m : Mach) (c : ModeCtl), m.dbg.scanEnd = false → (c.mode = .lit ∨ c.mode = .lean → m.guardDue = false) →
    (c.mode = .guard → m.guardDue = false → c.trans ≠ none) → finish (c, m) = (c, m.after c))

/-- Commands are taken first in, first out: a step that gives a next state leaves the queue's rest, in every state, and leaves none to its own making. -/
def Obligations.QueueInOrder : Prop := ∀ s t : State, step s = .next t → t.pending = s.pending.tail

/-- R67, R71 to R73, R77, R78: the agreement of mode, target, MODE-RETURN and transition is kept by every step. -/
def Obligations.ModeStaysSound : Prop := ∀ s t : State, s.mc.Sound → step s = .next t → t.mc.Sound

/-- R74, Table 3.2: no step but that of the Lantern rail's loss leads into DARK, and none but that of its return leads out. -/
def Obligations.DarkOnlyByRail : Prop :=
  ∀ s t : State, step s = .next t →
    (t.mc.mode = .dark → s.mc.mode = .dark ∨ s.pending.head? = some .lanternRailLoss) ∧
    (s.mc.mode = .dark → t.mc.mode ≠ .dark → ∃ straps ref tr im bad, s.pending.head? = some (.lanternRailValid straps ref tr im bad))

/-- R74, R109: after reset the block is in DARK with no command waiting, its mode sound, no packet, function or pending value held, FRC at 0, and its
objects and tables in canonical form. -/
def Obligations.ResetState : Prop :=
  State.reset.pending = [] ∧ State.reset.mc.mode = .dark ∧ State.reset.mc.Sound ∧ State.reset.m.dp = {} ∧ State.reset.m.com.fns = [] ∧
  State.reset.m.com.pend = [] ∧ State.reset.m.com.frc = 0 ∧ State.reset.m.flt.queue = [] ∧ State.reset.m.flt.blk = [] ∧
  Map.wf 0 State.reset.m.com.objs = true ∧ Map.wf 0 State.reset.m.com.tabs = true
end

