-- ==== Sys2Proof/Laws/Exec.lean ====
section
/-! SUPPORT. What exec is on each command: its effect under one of the four ways a row acts on the state. -/

namespace Sys2Proof.Machine

variable (s : State)

theorem exec_lanternRailValid (straps : Fin 8) (refclk trngPass imageOk : Bool) (corrupt : List (Fin 69)) :
    exec (.lanternRailValid straps refclk trngPass imageOk corrupt) s = (
      let r := lanternUp s.mc s.m straps refclk trngPass imageOk (corrupt.map fun k => k.val)
      .next { s with
        mc := r.1
        m := r.2 }) := rfl
theorem exec_lanternRailLoss :
    exec .lanternRailLoss s = (
      let r : ModeCtl × Mach := ({}, darken s.m)
      .next { s with
        mc := r.1
        m := r.2 }) := rfl
theorem exec_coreUndervolt (d : Fin 4) (mv : Nat) : exec (.coreUndervolt d mv) s = (s.run fun c m => m.coreUndervolt c d mv) := rfl
theorem exec_railOutOfRange (r : Fin 12) (mv : Nat) : exec (.railOutOfRange r mv) s = (s.run fun c m => m.railSample c r mv) := rfl
theorem exec_thermalTrip (sensor : Fin 21) (temp : Int) : exec (.thermalTrip sensor temp) s = (s.run fun c m => m.thermalTrip c sensor temp) := rfl
theorem exec_dieTempLimit (die : Fin 13) (temp : Int) : exec (.dieTempLimit die temp) s = (s.run fun c m => m.dieTempLimit c die temp) := rfl
theorem exec_paceWindow (t : Fin 442) (eq : Nat) : exec (.paceWindow t eq) s = (s.run fun c m => (m.crbSettle c).paceWindow c t eq) := rfl
theorem exec_avsInterval (d : Fin 4) (mv ma : Nat) : exec (.avsInterval d mv ma) s = (s.run fun c m => m.avsInterval c d mv ma) := rfl
theorem exec_avsFailure (d : Fin 4) : exec (.avsFailure d) s = (s.run fun c m => m.avsFailure c d) := rfl
theorem exec_paceDeficit (d : Fin 4) : exec (.paceDeficit d) s = (s.run fun c m => m.paceDeficit c d) := rfl
theorem exec_avsLoopEnWrite (ses : Fin 64) (v : Nat) : exec (.avsLoopEnWrite ses v) s = (s.run fun c m => m.guarded c ses O.avsLoopEn 0 v fun m => m.avsLoopEnSet c v) := rfl
theorem exec_coreVcoreSetWrite (ses : Fin 64) (d : Fin 4) (v : Nat) : exec (.coreVcoreSetWrite ses d v) s = (s.run fun c m => m.guarded c ses O.coreVcoreSet d v fun m => m.vcoreSet d v) := rfl
theorem exec_modeReqPilot (ses : Fin 64) : exec (.modeReqPilot ses) s = (s.move fun c m => modeReq c m ses .pilot) := rfl
theorem exec_modeReqTrim (ses : Fin 64) : exec (.modeReqTrim ses) s = (s.move fun c m => modeReq c m ses .trim) := rfl
theorem exec_modeReqPrimed (ses : Fin 64) : exec (.modeReqPrimed ses) s = (s.move fun c m => modeReq c m ses .primed) := rfl
theorem exec_modeReqLit (ses : Fin 64) : exec (.modeReqLit ses) s = (s.move fun c m => modeReq c m ses .lit) := rfl
theorem exec_modeReqLean (ses : Fin 64) : exec (.modeReqLean ses) s = (s.move fun c m => modeReq c m ses .lean) := rfl
theorem exec_modeReqEbb (ses : Fin 64) : exec (.modeReqEbb ses) s = (s.move fun c m => modeReq c m ses .ebb) := rfl
theorem exec_modeReqBanked (ses : Fin 64) : exec (.modeReqBanked ses) s = (s.move fun c m => modeReq c m ses .banked) := rfl
theorem exec_modeReqProbe (ses : Fin 64) : exec (.modeReqProbe ses) s = (s.move fun c m => modeReq c m ses .probe) := rfl
theorem exec_modeReqQuench (ses : Fin 64) : exec (.modeReqQuench ses) s = (s.move fun c m => modeReq c m ses .quench) := rfl
theorem exec_kindleComplete (failed : List (Fin 442)) : exec (.kindleComplete failed) s = (s.move fun c m => Sys2Proof.Machine.kindleComplete c m (failed.map fun t => t.val)) := rfl
theorem exec_kindleAbort (cause : KindleCause) : exec (.kindleAbort cause) s = (s.move fun c m => Sys2Proof.Machine.kindleAbort c m cause) := rfl
theorem exec_leanToLitEntry (timeout : Bool) : exec (.leanToLitEntry timeout) s = (s.move fun c m => leanToLit c m timeout) := rfl
theorem exec_ebbDrained : exec .ebbDrained s = (s.run fun c m => Sys2Proof.Machine.ebbDrained c m) := rfl
theorem exec_ebbLimitExpiry : exec .ebbLimitExpiry s = (s.run fun c m => ebbLimit c m) := rfl
theorem exec_ebbReturn : exec .ebbReturn s = (s.move fun c m => Sys2Proof.Machine.ebbReturn c m) := rfl
theorem exec_bankedEntry : exec .bankedEntry s = (s.move fun c m => Sys2Proof.Machine.bankedEntry c m) := rfl
theorem exec_bankedExitComplete : exec .bankedExitComplete s = (s.move fun c m => bankedExit c m) := rfl
theorem exec_quenchZeroise : exec .quenchZeroise s = (s.move fun c m => Sys2Proof.Machine.quenchZeroise c m) := rfl
theorem exec_quenchComplete : exec .quenchComplete s = (s.move fun c m => Sys2Proof.Machine.quenchComplete c m) := rfl
theorem exec_resetBlock (ses : Fin 64) (tile : Nat) : exec (.resetBlock ses tile) s = (s.move fun c m => (c, m.guarded c ses O.resetBlock 0 tile fun m => m.resetBlock c tile)) := rfl
theorem exec_resetDie (ses : Fin 64) (die : Nat) : exec (.resetDie ses die) s = (s.move fun c m => (c, m.guarded c ses O.resetDie 0 die fun m => m.resetDie c die)) := rfl
theorem exec_resetAssembly (ses : Fin 64) : exec (.resetAssembly ses) s = (s.move fun c m => Sys2Proof.Machine.resetAssembly c m ses) := rfl
theorem exec_fnStart (ses : Fin 64) (fn : Fin 65536) : exec (.fnStart ses fn) s = (s.run fun c m => m.startCmd c ses fn) := rfl
theorem exec_fnStop (ses : Fin 64) (fn : Fin 65536) : exec (.fnStop ses fn) s = (s.run fun c m => m.stopCmd c ses fn) := rfl
theorem exec_fnInitComplete (fn : Fin 65536) : exec (.fnInitComplete fn) s = (s.move fun c m => (c, m.initComplete c fn)) := rfl
theorem exec_fnStopComplete (fn : Fin 65536) : exec (.fnStopComplete fn) s = (s.move fun c m => (c, m.stopComplete c fn)) := rfl
theorem exec_rlLanding (id : Fin 4294967296) (idx : Nat) : exec (.rlLanding id idx) s = (s.run fun c m => m.rlLand c id idx) := rfl
theorem exec_holdAgeExpiry (r : Fin 8) (pkt : Nat) : exec (.holdAgeExpiry r pkt) s = (s.run fun c m => m.holdAge c r pkt) := rfl
theorem exec_objectWrite (ses : Fin 64) (id : Fin 4294967296) (val : List Byte) : exec (.objectWrite ses id val) s = (s.lanMove fun c m => Sys2Proof.Machine.objectWrite c m ses id val) := rfl
theorem exec_readClear (ses : Fin 64) (id : Fin 4294967296) : exec (.readClear ses id) s = (s.lan fun c m => (m.gecSettle c).readRow c ses id) := rfl
theorem exec_mgtFrameRx (p : Fin 2) (f : MgtFrame) : exec (.mgtFrameRx p f) s = (s.lan fun _ m => m.mgtFrame p f) := rfl
theorem exec_mgtSpeedWrite (ses : Fin 64) (p : Fin 2) (v : Nat) : exec (.mgtSpeedWrite ses p v) s = (s.lan fun c m => m.guarded c ses O.mgtSpeed p v fun m => m.putHost c O.mgtSpeed p v) := rfl
theorem exec_inbandClelekRx (b : Fin 1024) (f : ClFrame) : exec (.inbandClelekRx b f) s = (s.lan fun c m => m.inbandRx c b f) := rfl
theorem exec_clelekRead : exec .clelekRead s = (s.lanMove fun c m => Sys2Proof.Machine.clelekRead c (m.gecSettle c)) := rfl
theorem exec_clelekWrite : exec .clelekWrite s = (s.lanMove fun c m => Sys2Proof.Machine.clelekWrite c m) := rfl
theorem exec_clelekBatch : exec .clelekBatch s = (s.lanMove fun c m => engine c m 3 fun m f g => (c, m.clelekBatch c f g)) := rfl
theorem exec_batchExecute : exec .batchExecute s = (s.lanMove fun c m => jobTake c m false) := rfl
theorem exec_windowRead : exec .windowRead s = (s.lanMove fun c m => engine c (m.gecSettle c) 40 fun m f g => (c, m.windowRead c f g)) := rfl
theorem exec_windowWrite : exec .windowWrite s = (s.lanMove fun c m => engine c m 41 fun m f g => (c, m.windowWrite c f g)) := rfl
theorem exec_subscribe : exec .subscribe s = (s.lanMove fun c m => engine c m 50 fun m f _ => (c, m.subscribe c f)) := rfl
theorem exec_subscribeCancel : exec .subscribeCancel s = (s.lanMove fun c m => engine c m 51 fun m f _ => (c, m.subCancel c f)) := rfl
theorem exec_attest : exec .attest s = (s.lanMove fun c m => engine c m 7 fun m f _ => (c, m.attest c f)) := rfl
theorem exec_attestSigned : exec .attestSigned s = (s.lan fun c m => m.attestSigned c) := rfl
theorem exec_importKey : exec .importKey s = (s.lanMove fun c m => engine c m 8 fun m f _ => (c, m.importKey c f)) := rfl
theorem exec_bundle (sigOk : Option (List Byte)) : exec (.bundle sigOk) s = (s.lanMove fun c m => engine c m 9 fun m f g => (c, m.clelekBundle c f g sigOk)) := rfl
theorem exec_bundleExecute : exec .bundleExecute s = (s.lanMove fun c m => jobTake c m true) := rfl
theorem exec_clelekBadOp : exec .clelekBadOp s = (s.lanMove fun c m => engine c m 0 fun m _ _ => (c, m)) := rfl
theorem exec_messageTimeout (ses : Fin 64) : exec (.messageTimeout ses) s = (s.lan fun c m => m.msgTimeout c ses) := rfl
theorem exec_sesConfigWrite (ses target : Fin 64) (sub : Nat) (v : Nat) : exec (.sesConfigWrite ses target sub v) s = (s.lan fun c m => m.sesConfig c ses target sub v) := rfl
theorem exec_noteLoss (slot : Fin 16) : exec (.noteLoss slot) s = (s.lan fun c m => m.noteLoss c slot) := rfl
theorem exec_injectPort (f : InjFrame) : exec (.injectPort f) s = (s.run fun c m => m.inject c f false) := rfl
theorem exec_injectPipeline (f : InjFrame) : exec (.injectPipeline f) s = (s.run fun c m => m.inject c f true) := rfl
theorem exec_injectDrain : exec .injectDrain s = (s.run fun c m => m.injectDrain c) := rfl
theorem exec_puntSend : exec .puntSend s = (s.run fun c m => m.puntSend c) := rfl
theorem exec_defectRaise (b : Fin 1024) (k : DefectRep) : exec (.defectRaise b k) s = (s.run fun c m => m.defect c b true k) := rfl
theorem exec_defectClear (b : Fin 1024) (k : DefectRep) : exec (.defectClear b k) s = (s.run fun c m => m.defect c b false k) := rfl
theorem exec_downHoldExpiry (b : Fin 1024) : exec (.downHoldExpiry b) s = (s.run fun c m => m.downExpiry c b) := rfl
theorem exec_upHoldExpiry (b : Fin 1024) : exec (.upHoldExpiry b) s = (s.run fun c m => m.upExpiry c b) := rfl
theorem exec_anRestart (b : Fin 1024) : exec (.anRestart b) s = (s.run fun _ m => m.anRestart b) := rfl
theorem exec_bpEnableWrite (ses : Fin 64) (b : Fin 1024) (v : Nat) : exec (.bpEnableWrite ses b v) s = (s.run fun c m => m.guarded c ses O.bpEnable b v fun m => m.enableWrite c b v) := rfl
theorem exec_bpHoldWrite (ses : Fin 64) (b : Fin 1024) (up : Bool) (v : Nat) : exec (.bpHoldWrite ses b up v) s = (s.run fun c m => m.guarded c ses (if up then O.bpUpHold else O.bpDownHold) b v fun m => m.holdWrite c b up v) := rfl
theorem exec_pauseRx (b : Fin 1024) (opcode : Nat) (enable : Nat) (quanta : List Nat) : exec (.pauseRx b opcode enable quanta) s = (s.run fun c m => m.pauseRx c b opcode enable quanta) := rfl
theorem exec_pauseExpiry (b : Fin 1024) (cls : Fin 8) : exec (.pauseExpiry b cls) s = (s.run fun _ m => m.pauseExpiry b cls) := rfl
theorem exec_xoffRefresh (b : Fin 1024) (cls : Fin 8) : exec (.xoffRefresh b cls) s = (s.run fun c m => m.xoffRefresh c b cls) := rfl
theorem exec_pmSecond (b : Fin 1024) (f : PmInput) : exec (.pmSecond b f) s = (s.run fun c m => m.pmSecond c b f) := rfl
theorem exec_flxCalUseWrite (ses : Fin 64) (g : Fin 128) (v : Nat) : exec (.flxCalUseWrite ses g v) s = (s.run fun c m => m.guarded c ses O.flxCalUse g v fun m => m.calUse g v) := rfl
theorem exec_flxCalSwitch (g : Fin 128) : exec (.flxCalSwitch g) s = (s.run fun c m => m.calSwitch c g) := rfl
theorem exec_flxCalTimeout (g : Fin 128) : exec (.flxCalTimeout g) s = (s.run fun c m => m.calTimeout c g) := rfl
theorem exec_frameRx (b : Fin 1024) (client : Nat) (fcsOk overflow : Bool) (data : List Byte) : exec (.frameRx b client fcsOk overflow data) s = (s.run fun c m => m.frameRx c b client fcsOk overflow data) := rfl
theorem exec_contextAssign (r : Fin 8) : exec (.contextAssign r) s = (s.run fun c m => m.contextAssign c r) := rfl
theorem exec_parseComplete (r : Fin 8) (pkt : Nat) : exec (.parseComplete r pkt) s = (s.run fun c m => m.parseComplete c r pkt) := rfl
theorem exec_graphParseStart (r : Fin 8) : exec (.graphParseStart r) s = (s.run fun c m => m.graphStart c r) := rfl
theorem exec_graphParseComplete (r : Fin 8) : exec (.graphParseComplete r) s = (s.run fun c m => m.graphComplete c r) := rfl
theorem exec_keyEpoch : exec .keyEpoch s = (s.run fun c m => m.keyEpoch c) := rfl
theorem exec_passStart (r : Fin 8) (pkt : Nat) : exec (.passStart r pkt) s = (s.run fun c m => m.passStart c r pkt) := rfl
theorem exec_passEnd (r : Fin 8) (pkt : Nat) : exec (.passEnd r pkt) s = (s.run fun c m => m.passEnd c r pkt) := rfl
theorem exec_backwaterReentry (r : Fin 8) (pkt : Nat) : exec (.backwaterReentry r pkt) s = (s.run fun c m => m.backwaterReentry c r pkt) := rfl
theorem exec_queryReceipt (b : Fin 16) (src : Nat) : exec (.queryReceipt b src) s = (s.run fun c m => m.queryReceipt c b src) := rfl
theorem exec_bucketReadDone (b : Fin 16) (e : Nat) : exec (.bucketReadDone b e) s = (s.run fun _ m => m.bucketRead b e) := rfl
theorem exec_resultArrival (b : Fin 16) (e : Nat) : exec (.resultArrival b e) s = (s.run fun _ m => m.resultArrival b e) := rfl
theorem exec_operationApply (b : Fin 16) (e : Nat) : exec (.operationApply b e) s = (s.run fun c m => m.operationApply c b e) := rfl
theorem exec_parkArrival (b : Fin 16) (e : Nat) : exec (.parkArrival b e) s = (s.run fun c m => m.parkArrival c b e) := rfl
theorem exec_verdictWaitBasin (b : Fin 16) (e : Nat) : exec (.verdictWaitBasin b e) s = (s.run fun c m => m.verdictWaitBasin c b e) := rfl
theorem exec_verdictWaitLane (r : Fin 8) (lane : Fin 4096) : exec (.verdictWaitLane r lane) s = (s.run fun c m => m.verdictWaitLane c r lane) := rfl
theorem exec_verdictArrival (r : Fin 8) (pkt : Nat) : exec (.verdictArrival r pkt) s = (s.run fun c m => m.verdictArrival c r pkt) := rfl
theorem exec_laneRelease (r : Fin 8) (lane : Fin 4096) : exec (.laneRelease r lane) s = (s.run fun c m => m.laneRelease c r lane) := rfl
theorem exec_writeBackAge (b : Fin 16) (slot : Nat) : exec (.writeBackAge b slot) s = (s.run fun _ m => m.writeBackAge b slot) := rfl
theorem exec_flwReqLookup (ses : Fin 64) (i : Fin 256) : exec (.flwReqLookup ses i) s = (s.run fun c m => m.hostReq c ses i 1) := rfl
theorem exec_flwReqInsert (ses : Fin 64) (i : Fin 256) : exec (.flwReqInsert ses i) s = (s.run fun c m => m.hostReq c ses i 2) := rfl
theorem exec_flwReqUpdate (ses : Fin 64) (i : Fin 256) : exec (.flwReqUpdate ses i) s = (s.run fun c m => m.hostReq c ses i 3) := rfl
theorem exec_flwReqDelete (ses : Fin 64) (i : Fin 256) : exec (.flwReqDelete ses i) s = (s.run fun c m => m.hostReq c ses i 4) := rfl
theorem exec_flwClear (ses : Fin 64) : exec (.flwClear ses) s = (s.run fun c m => m.guarded c ses O.flwClear 0 0 fun m => m.flwClear) := rfl
theorem exec_flwClearDone : exec .flwClearDone s = (s.run fun _ m => m.flwClearDone) := rfl
theorem exec_flwSizeWrite (ses : Fin 64) (v : Nat) : exec (.flwSizeWrite ses v) s = (s.run fun c m => m.guarded c ses O.flwSizeLog2 0 v fun m => m.flwSize v) := rfl
theorem exec_flwGrow (ses : Fin 64) : exec (.flwGrow ses) s = (s.run fun c m => m.guarded c ses O.flwGrow 0 0 fun m => m.flwGrow) := rfl
theorem exec_eventPost (b : Fin 16) : exec (.eventPost b) s = (s.run fun c m => m.eventPost c b) := rfl
theorem exec_eventDispatch (b : Fin 16) : exec (.eventDispatch b) s = (s.run fun c m => m.eventDispatch c b) := rfl
theorem exec_create (b : Fin 16) (ctx : Nat) : exec (.create b ctx) s = (s.run fun c m => m.createEv c b ctx) := rfl
theorem exec_linkCreate (b : Fin 16) (ctx : Nat) : exec (.linkCreate b ctx) s = (s.run fun c m => m.linkEv c b ctx) := rfl
theorem exec_pairNote (b : Fin 16) (ctx : Nat) : exec (.pairNote b ctx) s = (s.run fun c m => m.pairNoteEv c b ctx) := rfl
theorem exec_pairDelete (b : Fin 16) (ctx : Nat) : exec (.pairDelete b ctx) s = (s.run fun c m => m.pairDeleteEv c b ctx) := rfl
theorem exec_poolAlloc (b : Fin 16) (ctx : Nat) : exec (.poolAlloc b ctx) s = (s.run fun c m => m.poolAllocEv c b ctx) := rfl
theorem exec_portRelease (b : Fin 16) (ctx : Nat) : exec (.portRelease b ctx) s = (s.run fun c m => m.portReleaseEv c b ctx) := rfl
theorem exec_age (b : Fin 16) (ctx : Nat) : exec (.age b ctx) s = (s.run fun c m => m.ageEv c b ctx) := rfl
theorem exec_exportEvent (b : Fin 16) (ctx : Nat) : exec (.exportEvent b ctx) s = (s.run fun c m => m.exportEv c b ctx) := rfl
theorem exec_sweep (b : Fin 16) (ctx : Nat) : exec (.sweep b ctx) s = (s.run fun c m => m.sweepEv c b ctx) := rfl
theorem exec_split (b : Fin 16) (ctx : Nat) : exec (.split b ctx) s = (s.run fun c m => m.splitEv c b ctx) := rfl
theorem exec_sweepTimer (b : Fin 16) : exec (.sweepTimer b) s = (s.run fun _ m => m.sweepTimer b) := rfl
theorem exec_splitTimer (b : Fin 16) : exec (.splitTimer b) s = (s.run fun _ m => m.splitTimer b) := rfl
theorem exec_poolRecount (ses : Fin 64) : exec (.poolRecount ses) s = (s.run fun c m => m.guarded c ses O.poolRecount 0 0 fun m => m.poolRecount) := rfl
theorem exec_poolRecountDone : exec .poolRecountDone s = (s.run fun _ m => m.poolRecountDone) := rfl
theorem exec_trcArm (ses : Fin 64) (b : Fin 16) : exec (.trcArm ses b) s = (s.run fun c m => m.guarded c ses O.trcArm b 0 fun m => m.trcArm b) := rfl
theorem exec_hbmRequest (q : HbmReq) : exec (.hbmRequest q) s = (s.run fun c m => m.hbmRequest c q) := rfl
theorem exec_hbmReadComplete (pc : Fin 512) (ecc : EccOutcome) : exec (.hbmReadComplete pc ecc) s = (s.run fun c m => m.readComplete c pc ecc) := rfl
theorem exec_hbmWriteComplete (pc : Fin 512) : exec (.hbmWriteComplete pc) s = (s.run fun c m => m.writeComplete c pc) := rfl
theorem exec_hbmRefresh (pc : Fin 512) (bank : Nat) : exec (.hbmRefresh pc bank) s = (s.run fun c m => m.refresh c pc bank) := rfl
theorem exec_hbmRetrain (stk : Fin 8) (ch : Fin 32) (ok : Bool) (temp : Int) : exec (.hbmRetrain stk ch ok temp) s = (s.run fun c m => m.retrain c stk ch ok temp) := rfl
theorem exec_selfRefreshIdle (stk : Fin 8) (ch : Fin 32) : exec (.selfRefreshIdle stk ch) s = (s.run fun c m => m.srIdle c stk ch) := rfl
theorem exec_selfRefreshExit (stk : Fin 8) (ch : Fin 32) : exec (.selfRefreshExit stk ch) s = (s.run fun c m => m.srExit c stk ch) := rfl
theorem exec_hbmScrub (stk : Fin 8) (line : Nat) (ecc : EccOutcome) : exec (.hbmScrub stk line ecc) s = (s.run fun c m => m.scrub c stk line ecc) := rfl
theorem exec_hbmMapOrderWrite (ses : Fin 64) (v : Nat) : exec (.hbmMapOrderWrite ses v) s = (s.run fun c m => m.guarded c ses O.hbmMapOrder 0 v fun m => m.remap v) := rfl
theorem exec_remapDone : exec .remapDone s = (s.run fun _ m => m.remapDone) := rfl
theorem exec_cellFree (r : Fin 8) (pool : Fin 4) (cell : Nat) (owner : Nat) : exec (.cellFree r pool cell owner) s = (s.run fun c m => m.cellFree c r (pool, cell) owner) := rfl
theorem exec_hbmPoolAlloc (b : Fin 16) (len : Nat) : exec (.hbmPoolAlloc b len) s = (s.run fun c m => m.poolAllocCmd c b len) := rfl
theorem exec_hbmStockRefill (p : Fin 16) : exec (.hbmStockRefill p) s = (s.run fun _ m => m.hpoolRefill p) := rfl
theorem exec_hbmPoolFree (b : Fin 16) (p : Fin 8) (buf : Nat) : exec (.hbmPoolFree b p buf) s = (s.run fun c m => m.hpoolFreeAt c b p buf) := rfl
theorem exec_hplRebuild (ses : Fin 64) (p : Nat) : exec (.hplRebuild ses p) s = (s.run fun c m => m.guarded c ses O.hplRebuild 0 p fun m => m.hplRebuild p) := rfl
theorem exec_hplRebuildDone (p : Fin 16) : exec (.hplRebuildDone p) s = (s.run fun _ m => m.hplRebuildDone p) := rfl
theorem exec_channelSend (ch : Fin 256) : exec (.channelSend ch) s = (s.run fun c m => m.channelSend c ch) := rfl
theorem exec_voqRequestArrival (e : Fin 8) : exec (.voqRequestArrival e) s = (s.run fun _ m => m.requestArrival e) := rfl
theorem exec_grantIssue (e : Fin 8) : exec (.grantIssue e) s = (s.run fun _ m => m.grantIssue e) := rfl
theorem exec_grantArrival (i : Fin 8) : exec (.grantArrival i) s = (s.run fun _ m => m.grantArrival i) := rfl
theorem exec_creditReturn (e : Fin 8) : exec (.creditReturn e) s = (s.run fun _ m => m.creditReturn e) := rfl
theorem exec_egressArrival (e : Fin 8) : exec (.egressArrival e) s = (s.run fun c m => m.egressArrival c e) := rfl
theorem exec_skipArrival (e : Fin 8) : exec (.skipArrival e) s = (s.run fun c m => m.skipArrival c e) := rfl
theorem exec_mcReplicate (e : Fin 8) : exec (.mcReplicate e) s = (s.run fun c m => m.mcReplicate c e) := rfl
theorem exec_doneArrival (i : Fin 8) : exec (.doneArrival i) s = (s.run fun c m => m.doneArrival c i) := rfl
theorem exec_portStateArrival (r : Fin 8) : exec (.portStateArrival r) s = (s.run fun c m => m.portStateArrival c r) := rfl
theorem exec_voqDropDequeue (r : Fin 8) : exec (.voqDropDequeue r) s = (s.run fun c m => m.voqDrop c r) := rfl
theorem exec_schedDecision (b : Fin 1024) : exec (.schedDecision b) s = (s.run fun c m => m.schedule c b) := rfl
theorem exec_pcsFrameStart (b : Fin 1024) : exec (.pcsFrameStart b) s = (s.run fun c m => m.pcsStart c b) := rfl
theorem exec_shaperRefill (b : Fin 1024) (q : Option (Fin 65536)) : exec (.shaperRefill b q) s = (s.run fun c m => m.shaperFill c b (q.map fun k => k.val)) := rfl
theorem exec_egressDropDequeue (b : Fin 1024) : exec (.egressDropDequeue b) s = (s.run fun c m => m.egressDrop c b) := rfl
theorem exec_gateUseWrite (ses : Fin 64) (b : Fin 1024) (v : Nat) : exec (.gateUseWrite ses b v) s = (s.run fun c m => m.guarded c ses O.esGateUse b v fun m => m.gateUse b v) := rfl
theorem exec_gateSwitchLand (b : Fin 1024) : exec (.gateSwitchLand b) s = (s.run fun c m => m.gateLand c b) := rfl
theorem exec_tbRateWrite (ses : Fin 64) (v : Nat) : exec (.tbRateWrite ses v) s = (s.run fun c m => m.guarded c ses O.tbRate 0 v fun m => m.tbRate v) := rfl
theorem exec_tbAdjust (ses : Fin 64) (v : Nat) : exec (.tbAdjust ses v) s = (s.run fun c m => m.guarded c ses O.tbAdjust 0 v fun m => m.tbStep (.adjust (sgn 64 v))) := rfl
theorem exec_tbSet (ses : Fin 64) (v : Nat) : exec (.tbSet ses v) s = (s.run fun c m => m.guarded c ses O.tbSet 0 v fun m => m.tbStep (.set v)) := rfl
theorem exec_tbSetAtPps (ses : Fin 64) (v : Nat) : exec (.tbSetAtPps ses v) s = (s.run fun c m => m.guarded c ses O.tbSetAtPps 0 v fun m => m.tbStep (.setAtPps v)) := rfl
theorem exec_anchorLanding : exec .anchorLanding s = (s.run fun c m => m.anchorLand c) := rfl
theorem exec_ppsInEdge (rising : Bool) : exec (.ppsInEdge rising) s = (s.run fun c m => m.ppsEdge c rising) := rfl
theorem exec_ppsOutEdge : exec .ppsOutEdge s = (s.run fun _ m => m.ppsOutEdge) := rfl
theorem exec_refLoss : exec .refLoss s = (s.run fun c m => m.refLoss c) := rfl
theorem exec_refRelock : exec .refRelock s = (s.run fun _ m => m.refRelock) := rfl
theorem exec_tsTxqNextRead (ses : Fin 64) : exec (.tsTxqNextRead ses) s = (s.run fun c m => m.readObj c ses (O.tsTxqNext.key 0)) := rfl
theorem exec_cntStickyClear (ses : Fin 64) (v : Nat) : exec (.cntStickyClear ses v) s = (s.run fun c m => m.guarded c ses O.cntStickyClear 0 v fun m => m.stickyClear v) := rfl
theorem exec_gecSelectWrite (ses : Fin 64) (i : Fin 256) (v : Nat) : exec (.gecSelectWrite ses i v) s = (s.run fun c m => m.guarded c ses O.gecSelect i v fun m => (m.gecSettle c).gecWrite c i v) := rfl
theorem exec_bwWindowEnd (b : Fin 1024) : exec (.bwWindowEnd b) s = (s.run fun _ m => m.bwEnd b) := rfl
theorem exec_flBufferFlushAge (b : Fin 16) : exec (.flBufferFlushAge b) s = (s.run fun c m => m.flushAge c b) := rfl
theorem exec_flMessageSend (col die : Fin 4) : exec (.flMessageSend col die) s = (s.run fun c m => m.messageSend c col die) := rfl
theorem exec_flTemplatePeriod (col : Fin 4) : exec (.flTemplatePeriod col) s = (s.run fun _ m => m.templatePeriod col) := rfl
theorem exec_flLossSecond : exec .flLossSecond s = (s.run fun c m => m.lossSecond c) := rfl
theorem exec_flColEnWrite (ses : Fin 64) (col : Fin 4) (v : Nat) : exec (.flColEnWrite ses col v) s = (s.run fun c m => m.guarded c ses O.flColEn col v fun m => m.colEnable c col v) := rfl
theorem exec_flTemplateWrite (ses : Fin 64) (t : Fin 16) (mask : Nat) : exec (.flTemplateWrite ses t mask) s = (s.run fun c m => m.templateCmd c ses t mask) := rfl
theorem exec_lcShip (ses : Fin 64) : exec (.lcShip ses) s = (s.lanMove fun c m => (c, m.guarded c ses O.lcShip 0 0 fun m => m.lcShip c)) := rfl
theorem exec_ownerClaim (ses : Fin 64) (arg : Nat) : exec (.ownerClaim ses arg) s = (s.lanMove fun c m => (c, m.guarded c ses O.ownerClaim 0 arg fun m => m.ownerClaim c arg)) := rfl
theorem exec_ownerTransfer (ses : Fin 64) (arg : Nat) : exec (.ownerTransfer ses arg) s = (s.lanMove fun c m => (c, m.guarded c ses O.ownerTransfer 0 arg fun m => m.ownerTransfer c arg)) := rfl
theorem exec_ownerReturn (ses : Fin 64) (arg : Nat) : exec (.ownerReturn ses arg) s = (s.lanMove fun c m => (c, m.guarded c ses O.ownerReturn 0 arg fun m => m.ownerReturn c arg)) := rfl
theorem exec_slotErase (ses : Fin 64) (slot : Fin 69) : exec (.slotErase ses slot) s = (s.lan fun c m => m.guarded c ses O.slotErase slot 0 fun m => m.slotErase c slot) := rfl
theorem exec_trngHealthFail : exec .trngHealthFail s = (s.lan fun c m => m.trngFail c) := rfl
theorem exec_trngRetest (ses : Fin 64) (pass : Bool) : exec (.trngRetest ses pass) s = (s.lan fun c m => m.guarded c ses O.trngRetest 0 0 fun m => m.trngRetest c pass) := rfl
theorem exec_cipherSeal (ses : Fin 64) (i : Fin 16) : exec (.cipherSeal ses i) s = (s.lan fun c m => m.cipherRun c ses i 1) := rfl
theorem exec_cipherOpen (ses : Fin 64) (i : Fin 16) : exec (.cipherOpen ses i) s = (s.lan fun c m => m.cipherRun c ses i 2) := rfl
theorem exec_cipherMac (ses : Fin 64) (i : Fin 16) : exec (.cipherMac ses i) s = (s.lan fun c m => m.cipherRun c ses i 3) := rfl
theorem exec_cipherVerify (ses : Fin 64) (i : Fin 16) : exec (.cipherVerify ses i) s = (s.lan fun c m => m.cipherRun c ses i 4) := rfl
theorem exec_tapInstructionLoad (op : Fin 256) (keyIsland : Bool) : exec (.tapInstructionLoad op keyIsland) s = (s.run fun c m => m.tapLoad c op keyIsland) := rfl
theorem exec_wickApply (ses : Fin 64) (sigOk : Bool) : exec (.wickApply ses sigOk) s = (s.move fun c m => (c, m.guarded c ses O.wickApply 0 0 fun m => m.wickApply c ses sigOk)) := rfl
theorem exec_wickRevoke (ses : Fin 64) : exec (.wickRevoke ses) s = (s.move fun c m => (c, m.guarded c ses O.wickRevoke 0 0 fun m => m.wickRevoke c ses)) := rfl
theorem exec_wickExpiry : exec .wickExpiry s = (s.move fun c m => (c, m.wickExpire c)) := rfl
theorem exec_dbgLevelReq (ses : Fin 64) (v : Nat) : exec (.dbgLevelReq ses v) s = (s.move fun c m => (c, m.guarded c ses O.dbgLevelReq 0 v fun m => m.levelReq c ses v)) := rfl
theorem exec_dbgOwnerConsentWrite (ses : Fin 64) (v : Nat) : exec (.dbgOwnerConsentWrite ses v) s = (s.move fun c m => (c, m.guarded c ses O.dbgOwnerConsent 0 v fun m => m.putSec c ses O.dbgOwnerConsent 0 v)) := rfl
theorem exec_dbgObserveEnWrite (ses : Fin 64) (v : Nat) : exec (.dbgObserveEnWrite ses v) s = (s.move fun c m => (c, m.guarded c ses O.dbgObserveEn 0 v fun m => m.putSec c ses O.dbgObserveEn 0 v)) := rfl
theorem exec_faultDetect (f : FaultRep) : exec (.faultDetect f) s = (s.move fun c m => (c, m.fault c f)) := rfl
theorem exec_snufferDecide : exec .snufferDecide s = (s.move fun c m => (c, m.snuffDecide c)) := rfl
theorem exec_blockRestartComplete (tile : Fin 442) : exec (.blockRestartComplete tile) s = (s.move fun c m => (c, m.blkRestart c tile)) := rfl
theorem exec_containmentEnd (tile : Fin 442) : exec (.containmentEnd tile) s = (s.move fun c m => (c, m.containEnd c tile)) := rfl
theorem exec_fltRestore (ses : Fin 64) (arg : Nat) : exec (.fltRestore ses arg) s = (s.move fun c m => (c, m.guarded c ses O.fltRestore 0 arg fun m => m.restore c arg)) := rfl
theorem exec_handbackComplete (b : Fin 16) : exec (.handbackComplete b) s = (s.run fun _ m => m.handback b) := rfl
theorem exec_stackRebuildComplete (stk : Fin 8) : exec (.stackRebuildComplete stk) s = (s.run fun c m => m.rebuilt c stk) := rfl
theorem exec_fltAckOverflow (ses : Fin 64) : exec (.fltAckOverflow ses) s = (s.move fun c m => (c, m.guarded c ses O.fltAck 0 0 fun m => m.ackOverflow)) := rfl
theorem exec_fltAckPin (ses : Fin 64) : exec (.fltAckPin ses) s = (s.move fun c m => (c, m.guarded c ses O.fltAck 0 1 fun m => m.ackPin)) := rfl
theorem exec_snufferHeartbeatLoss : exec .snufferHeartbeatLoss s = (s.run fun _ m => m.heartbeatLoss) := rfl
theorem exec_trimWorkWrite (ses : Fin 64) (view : Fin 3) (i : Nat) (val : List Byte) : exec (.trimWorkWrite ses view i val) s = (s.run fun c m => m.trimWorkWrite c ses view i val) := rfl
theorem exec_trimMeasure (ses : Fin 64) (arg : Nat) : exec (.trimMeasure ses arg) s = (s.run fun c m => m.guarded c ses O.trimMeasure 0 arg fun m => m.trimMeasure arg) := rfl
theorem exec_trimMeasureDone : exec .trimMeasureDone s = (s.run fun _ m => m.trimMeasureDone) := rfl
theorem exec_trimCommit (ses : Fin 64) : exec (.trimCommit ses) s = (s.run fun c m => m.guarded c ses O.trimCommit 0 0 fun m => m.trimCommit) := rfl
theorem exec_trimCommitDone : exec .trimCommitDone s = (s.run fun c m => m.trimCommitDone c) := rfl
theorem exec_adtiebCommit : exec .adtiebCommit s = (s.lan fun c m => m.adtDue c) := rfl
theorem exec_adtiebSecond (temps : List (Option Int)) : exec (.adtiebSecond temps) s = (s.lan fun c m => m.adtSecond c temps) := rfl
theorem exec_mgtLinkChange (p : Fin 2) (up : Bool) : exec (.mgtLinkChange p up) s = (s.lan fun _ m => m.mgtLink p up) := rfl
theorem exec_ijtagAccess (op : IjtagOp) : exec (.ijtagAccess op) s = (s.move fun c m => (c, m.ijtag c op)) := rfl
theorem exec_ppsOutFall : exec .ppsOutFall s = (s.run fun _ m => m.ppsOutFall) := rfl

end Sys2Proof.Machine
end

