-- ==== Sys2Proof/Laws/Map.lean ====
section
/-! SUPPORT. Sparse maps: what reading a key after a write gives, and that a write keeps the canonical form. -/

namespace Sys2Proof.Machine

variable {α : Type}

@[simp] theorem mget_nil (d : α) (k : Nat) : mget d [] k = d := rfl

theorem mget_mdrop_same (d : α) (m : Map α) (k : Nat) : mget d (mdrop m k) k = d := by
  induction m with
  | nil => rfl
  | cons p r ih =>
    obtain ⟨k', v⟩ := p
    by_cases h : k' = k <;> simp [mdrop, mget, h, ih]

theorem mget_mdrop_ne (d : α) (m : Map α) {k j : Nat} (h : j ≠ k) : mget d (mdrop m k) j = mget d m j := by
  induction m with
  | nil => rfl
  | cons p r ih =>
    obtain ⟨k', v⟩ := p
    by_cases e : k' = k
    · subst e
      simp [mdrop, mget, ih, Ne.symm h]
    · simp [mdrop, mget, e, ih]

theorem mget_mput_same (d : α) (m : Map α) (k : Nat) (v : α) : mget d (mput (mdrop m k) k v) k = v := by
  induction m with
  | nil => simp [mdrop, mput, mget]
  | cons p r ih =>
    obtain ⟨k', v'⟩ := p
    by_cases e : k' = k
    · simp [mdrop, e, ih]
    · by_cases l : k < k' <;> simp [mdrop, mput, mget, e, l, ih]

theorem mget_mput_ne (d : α) (m : Map α) {k j : Nat} (v : α) (h : j ≠ k) : mget d (mput m k v) j = mget d m j := by
  induction m with
  | nil => simp [mput, mget, Ne.symm h]
  | cons p r ih =>
    obtain ⟨k', v'⟩ := p
    by_cases l : k < k'
    · simp [mput, mget, l, Ne.symm h]
    · simp [mput, mget, l, ih]

variable [DecidableEq α]

/-- A key reads as what was last written to it. -/
@[simp] theorem mget_mset_same (d : α) (m : Map α) (k : Nat) (v : α) : mget d (mset d m k v) k = v := by
  unfold mset
  split
  · rename_i h
    rw [mget_mdrop_same, h]
  · exact mget_mput_same d m k v

/-- A write leaves every other key as it was. -/
theorem mget_mset_ne (d : α) (m : Map α) {k j : Nat} (v : α) (h : j ≠ k) : mget d (mset d m k v) j = mget d m j := by
  unfold mset
  split
  · exact mget_mdrop_ne d m h
  · rw [mget_mput_ne d _ v h, mget_mdrop_ne d m h]

/-- The same, read under any default. -/
theorem mget_mset_ne' (d e : α) (m : Map α) {k j : Nat} (v : α) (h : j ≠ k) : mget d (mset e m k v) j = mget d m j := by
  unfold mset
  split
  · exact mget_mdrop_ne d m h
  · rw [mget_mput_ne d _ v h, mget_mdrop_ne d m h]

theorem mget_mset (d : α) (m : Map α) (k j : Nat) (v : α) : mget d (mset d m k v) j = if j = k then v else mget d m j := by
  by_cases h : j = k
  · subst h
    simp
  · simp [mget_mset_ne d m v h, h]

/-! The canonical form. -/

/-- Every key of a map lies above n. -/
def Map.above (n : Nat) (m : Map α) : Prop := ∀ p ∈ m, n < p.1

omit [DecidableEq α] in
theorem Map.sorted_cons (k : Nat) (v : α) (r : Map α) : Map.sorted ((k, v) :: r) = true ↔ Map.above k r ∧ Map.sorted r = true := by
  induction r generalizing k v with
  | nil => simp [Map.sorted, Map.above]
  | cons p t ih =>
    obtain ⟨k', v'⟩ := p
    simp only [Map.sorted, Bool.and_eq_true, decide_eq_true_eq]
    constructor
    · rintro ⟨h, hs⟩
      refine ⟨?_, hs⟩
      intro q hq
      rcases List.mem_cons.mp hq with rfl | hq
      · exact h
      · exact Nat.lt_trans h (((ih k' v').mp hs).1 q hq)
    · rintro ⟨h, hs⟩
      exact ⟨h (k', v') (by simp), hs⟩

omit [DecidableEq α] in
theorem mem_mdrop {p : Nat × α} {m : Map α} {k : Nat} (h : p ∈ mdrop m k) : p ∈ m ∧ p.1 ≠ k := by
  induction m with
  | nil => simp [mdrop] at h
  | cons q r ih =>
    obtain ⟨k', v⟩ := q
    by_cases e : k' = k
    · simp only [mdrop, e, if_true] at h
      exact ⟨List.mem_cons_of_mem _ (ih h).1, (ih h).2⟩
    · simp only [mdrop, e, if_false, List.mem_cons] at h
      rcases h with rfl | h
      · exact ⟨by simp, e⟩
      · exact ⟨List.mem_cons_of_mem _ (ih h).1, (ih h).2⟩

omit [DecidableEq α] in
theorem mdrop_sorted {m : Map α} (k : Nat) (h : Map.sorted m = true) : Map.sorted (mdrop m k) = true := by
  induction m with
  | nil => rfl
  | cons q r ih =>
    obtain ⟨k', v⟩ := q
    obtain ⟨ha, hs⟩ := (Map.sorted_cons k' v r).mp h
    by_cases e : k' = k
    · simpa [mdrop, e] using ih hs
    · simp only [mdrop, e, if_false]
      exact (Map.sorted_cons _ _ _).mpr ⟨fun p hp => ha p (mem_mdrop hp).1, ih hs⟩

omit [DecidableEq α] in
theorem mem_mput {p : Nat × α} {m : Map α} {k : Nat} {v : α} (h : p ∈ mput m k v) : p = (k, v) ∨ p ∈ m := by
  induction m with
  | nil => simpa [mput] using h
  | cons q r ih =>
    obtain ⟨k', v'⟩ := q
    by_cases l : k < k'
    · simpa [mput, l] using h
    · simp only [mput, l, if_false, List.mem_cons] at h
      rcases h with rfl | h
      · simp
      · rcases ih h with rfl | h
        · simp
        · exact Or.inr (List.mem_cons_of_mem _ h)

omit [DecidableEq α] in
theorem mput_sorted {m : Map α} (k : Nat) (v : α) (h : Map.sorted m = true) (hk : ∀ p ∈ m, p.1 ≠ k) : Map.sorted (mput m k v) = true := by
  induction m with
  | nil => rfl
  | cons q r ih =>
    obtain ⟨k', v'⟩ := q
    obtain ⟨ha, hs⟩ := (Map.sorted_cons k' v' r).mp h
    by_cases l : k < k'
    · simp only [mput, l, if_true]
      refine (Map.sorted_cons _ _ _).mpr ⟨?_, h⟩
      intro p hp
      rcases List.mem_cons.mp hp with rfl | hp
      · exact l
      · exact Nat.lt_trans l (ha p hp)
    · simp only [mput, l, if_false]
      refine (Map.sorted_cons _ _ _).mpr ⟨?_, ih hs fun p hp => hk p (List.mem_cons_of_mem _ hp)⟩
      intro p hp
      have hne : k' ≠ k := hk (k', v') (by simp)
      rcases mem_mput hp with rfl | hp
      · exact Nat.lt_of_le_of_ne (Nat.le_of_not_lt l) hne
      · exact ha p hp

/-- A write keeps the canonical form. -/
theorem mset_wf (d : α) {m : Map α} (k : Nat) (v : α) (h : Map.wf d m = true) : Map.wf d (mset d m k v) = true := by
  simp only [Map.wf, Bool.and_eq_true, List.all_eq_true, Bool.not_eq_true', decide_eq_false_iff_not] at h ⊢
  obtain ⟨hs, ha⟩ := h
  unfold mset
  split
  · exact ⟨mdrop_sorted k hs, fun p hp => ha p (mem_mdrop hp).1⟩
  · rename_i hv
    refine ⟨mput_sorted k v (mdrop_sorted k hs) fun p hp => (mem_mdrop hp).2, fun p hp => ?_⟩
    rcases mem_mput hp with rfl | hp
    · exact hv
    · exact ha p (mem_mdrop hp).1

end Sys2Proof.Machine
end

