-- ==== Sys2Proof/Laws/State.lean ====
section
/-! SUPPORT. What each named update of the machine leaves as it was, one lemma for each part, and what reading back the updated part gives. -/

namespace Sys2Proof.Machine

variable (m : Mach)

@[simp] theorem wr_pwr (o : ObjDef) (i v : Nat) : (m.wr o i v).pwr = m.pwr := rfl
@[simp] theorem wr_trn (o : ObjDef) (i v : Nat) : (m.wr o i v).trn = m.trn := rfl
@[simp] theorem wr_clk (o : ObjDef) (i v : Nat) : (m.wr o i v).clk = m.clk := rfl
@[simp] theorem wr_tb (o : ObjDef) (i v : Nat) : (m.wr o i v).tb = m.tb := rfl
@[simp] theorem wr_sec (o : ObjDef) (i v : Nat) : (m.wr o i v).sec = m.sec := rfl
@[simp] theorem wr_dbg (o : ObjDef) (i v : Nat) : (m.wr o i v).dbg = m.dbg := rfl
@[simp] theorem wr_flt (o : ObjDef) (i v : Nat) : (m.wr o i v).flt = m.flt := rfl
@[simp] theorem wr_trm (o : ObjDef) (i v : Nat) : (m.wr o i v).trm = m.trm := rfl
@[simp] theorem wr_dp (o : ObjDef) (i v : Nat) : (m.wr o i v).dp = m.dp := rfl
@[simp] theorem wr_frc (o : ObjDef) (i v : Nat) : (m.wr o i v).com.frc = m.com.frc := rfl
@[simp] theorem wr_free (o : ObjDef) (i v : Nat) : (m.wr o i v).com.free = m.com.free := rfl
@[simp] theorem wr_tabs (o : ObjDef) (i v : Nat) : (m.wr o i v).com.tabs = m.com.tabs := rfl
@[simp] theorem wr_pend (o : ObjDef) (i v : Nat) : (m.wr o i v).com.pend = m.com.pend := rfl
@[simp] theorem wr_fns (o : ObjDef) (i v : Nat) : (m.wr o i v).com.fns = m.com.fns := rfl
@[simp] theorem wr_status (o : ObjDef) (i v : Nat) : (m.wr o i v).com.status = m.com.status := rfl
@[simp] theorem wr_value (o : ObjDef) (i v : Nat) : (m.wr o i v).com.value = m.com.value := rfl
@[simp] theorem wr_out (o : ObjDef) (i v : Nat) : (m.wr o i v).com.out = m.com.out := rfl

@[simp] theorem bump_pwr (o : ObjDef) (i n : Nat) : (m.bump o i n).pwr = m.pwr := rfl
@[simp] theorem bump_trn (o : ObjDef) (i n : Nat) : (m.bump o i n).trn = m.trn := rfl
@[simp] theorem bump_clk (o : ObjDef) (i n : Nat) : (m.bump o i n).clk = m.clk := rfl
@[simp] theorem bump_tb (o : ObjDef) (i n : Nat) : (m.bump o i n).tb = m.tb := rfl
@[simp] theorem bump_sec (o : ObjDef) (i n : Nat) : (m.bump o i n).sec = m.sec := rfl
@[simp] theorem bump_dbg (o : ObjDef) (i n : Nat) : (m.bump o i n).dbg = m.dbg := rfl
@[simp] theorem bump_flt (o : ObjDef) (i n : Nat) : (m.bump o i n).flt = m.flt := rfl
@[simp] theorem bump_trm (o : ObjDef) (i n : Nat) : (m.bump o i n).trm = m.trm := rfl
@[simp] theorem bump_dp (o : ObjDef) (i n : Nat) : (m.bump o i n).dp = m.dp := rfl
@[simp] theorem bump_frc (o : ObjDef) (i n : Nat) : (m.bump o i n).com.frc = m.com.frc := rfl
@[simp] theorem bump_free (o : ObjDef) (i n : Nat) : (m.bump o i n).com.free = m.com.free := rfl
@[simp] theorem bump_tabs (o : ObjDef) (i n : Nat) : (m.bump o i n).com.tabs = m.com.tabs := rfl
@[simp] theorem bump_pend (o : ObjDef) (i n : Nat) : (m.bump o i n).com.pend = m.com.pend := rfl
@[simp] theorem bump_fns (o : ObjDef) (i n : Nat) : (m.bump o i n).com.fns = m.com.fns := rfl
@[simp] theorem bump_status (o : ObjDef) (i n : Nat) : (m.bump o i n).com.status = m.com.status := rfl
@[simp] theorem bump_value (o : ObjDef) (i n : Nat) : (m.bump o i n).com.value = m.com.value := rfl
@[simp] theorem bump_out (o : ObjDef) (i n : Nat) : (m.bump o i n).com.out = m.com.out := rfl

@[simp] theorem lower_pwr (o : ObjDef) (i n : Nat) : (m.lower o i n).pwr = m.pwr := rfl
@[simp] theorem lower_trn (o : ObjDef) (i n : Nat) : (m.lower o i n).trn = m.trn := rfl
@[simp] theorem lower_clk (o : ObjDef) (i n : Nat) : (m.lower o i n).clk = m.clk := rfl
@[simp] theorem lower_tb (o : ObjDef) (i n : Nat) : (m.lower o i n).tb = m.tb := rfl
@[simp] theorem lower_sec (o : ObjDef) (i n : Nat) : (m.lower o i n).sec = m.sec := rfl
@[simp] theorem lower_dbg (o : ObjDef) (i n : Nat) : (m.lower o i n).dbg = m.dbg := rfl
@[simp] theorem lower_flt (o : ObjDef) (i n : Nat) : (m.lower o i n).flt = m.flt := rfl
@[simp] theorem lower_trm (o : ObjDef) (i n : Nat) : (m.lower o i n).trm = m.trm := rfl
@[simp] theorem lower_dp (o : ObjDef) (i n : Nat) : (m.lower o i n).dp = m.dp := rfl
@[simp] theorem lower_frc (o : ObjDef) (i n : Nat) : (m.lower o i n).com.frc = m.com.frc := rfl
@[simp] theorem lower_free (o : ObjDef) (i n : Nat) : (m.lower o i n).com.free = m.com.free := rfl
@[simp] theorem lower_tabs (o : ObjDef) (i n : Nat) : (m.lower o i n).com.tabs = m.com.tabs := rfl
@[simp] theorem lower_pend (o : ObjDef) (i n : Nat) : (m.lower o i n).com.pend = m.com.pend := rfl
@[simp] theorem lower_fns (o : ObjDef) (i n : Nat) : (m.lower o i n).com.fns = m.com.fns := rfl
@[simp] theorem lower_status (o : ObjDef) (i n : Nat) : (m.lower o i n).com.status = m.com.status := rfl
@[simp] theorem lower_value (o : ObjDef) (i n : Nat) : (m.lower o i n).com.value = m.com.value := rfl
@[simp] theorem lower_out (o : ObjDef) (i n : Nat) : (m.lower o i n).com.out = m.com.out := rfl

@[simp] theorem peak_pwr (o : ObjDef) (i v : Nat) : (m.peak o i v).pwr = m.pwr := by
  unfold Mach.peak
  split <;> rfl
@[simp] theorem peak_trn (o : ObjDef) (i v : Nat) : (m.peak o i v).trn = m.trn := by
  unfold Mach.peak
  split <;> rfl
@[simp] theorem peak_clk (o : ObjDef) (i v : Nat) : (m.peak o i v).clk = m.clk := by
  unfold Mach.peak
  split <;> rfl
@[simp] theorem peak_tb (o : ObjDef) (i v : Nat) : (m.peak o i v).tb = m.tb := by
  unfold Mach.peak
  split <;> rfl
@[simp] theorem peak_sec (o : ObjDef) (i v : Nat) : (m.peak o i v).sec = m.sec := by
  unfold Mach.peak
  split <;> rfl
@[simp] theorem peak_dbg (o : ObjDef) (i v : Nat) : (m.peak o i v).dbg = m.dbg := by
  unfold Mach.peak
  split <;> rfl
@[simp] theorem peak_flt (o : ObjDef) (i v : Nat) : (m.peak o i v).flt = m.flt := by
  unfold Mach.peak
  split <;> rfl
@[simp] theorem peak_trm (o : ObjDef) (i v : Nat) : (m.peak o i v).trm = m.trm := by
  unfold Mach.peak
  split <;> rfl
@[simp] theorem peak_dp (o : ObjDef) (i v : Nat) : (m.peak o i v).dp = m.dp := by
  unfold Mach.peak
  split <;> rfl
@[simp] theorem peak_frc (o : ObjDef) (i v : Nat) : (m.peak o i v).com.frc = m.com.frc := by
  unfold Mach.peak
  split <;> rfl
@[simp] theorem peak_free (o : ObjDef) (i v : Nat) : (m.peak o i v).com.free = m.com.free := by
  unfold Mach.peak
  split <;> rfl
@[simp] theorem peak_tabs (o : ObjDef) (i v : Nat) : (m.peak o i v).com.tabs = m.com.tabs := by
  unfold Mach.peak
  split <;> rfl
@[simp] theorem peak_pend (o : ObjDef) (i v : Nat) : (m.peak o i v).com.pend = m.com.pend := by
  unfold Mach.peak
  split <;> rfl
@[simp] theorem peak_fns (o : ObjDef) (i v : Nat) : (m.peak o i v).com.fns = m.com.fns := by
  unfold Mach.peak
  split <;> rfl
@[simp] theorem peak_status (o : ObjDef) (i v : Nat) : (m.peak o i v).com.status = m.com.status := by
  unfold Mach.peak
  split <;> rfl
@[simp] theorem peak_value (o : ObjDef) (i v : Nat) : (m.peak o i v).com.value = m.com.value := by
  unfold Mach.peak
  split <;> rfl
@[simp] theorem peak_out (o : ObjDef) (i v : Nat) : (m.peak o i v).com.out = m.com.out := by
  unfold Mach.peak
  split <;> rfl

@[simp] theorem setEnt_pwr (o : ObjDef) (i idx v : Nat) : (m.setEnt o i idx v).pwr = m.pwr := rfl
@[simp] theorem setEnt_trn (o : ObjDef) (i idx v : Nat) : (m.setEnt o i idx v).trn = m.trn := rfl
@[simp] theorem setEnt_clk (o : ObjDef) (i idx v : Nat) : (m.setEnt o i idx v).clk = m.clk := rfl
@[simp] theorem setEnt_tb (o : ObjDef) (i idx v : Nat) : (m.setEnt o i idx v).tb = m.tb := rfl
@[simp] theorem setEnt_sec (o : ObjDef) (i idx v : Nat) : (m.setEnt o i idx v).sec = m.sec := rfl
@[simp] theorem setEnt_dbg (o : ObjDef) (i idx v : Nat) : (m.setEnt o i idx v).dbg = m.dbg := rfl
@[simp] theorem setEnt_flt (o : ObjDef) (i idx v : Nat) : (m.setEnt o i idx v).flt = m.flt := rfl
@[simp] theorem setEnt_trm (o : ObjDef) (i idx v : Nat) : (m.setEnt o i idx v).trm = m.trm := rfl
@[simp] theorem setEnt_dp (o : ObjDef) (i idx v : Nat) : (m.setEnt o i idx v).dp = m.dp := rfl
@[simp] theorem setEnt_frc (o : ObjDef) (i idx v : Nat) : (m.setEnt o i idx v).com.frc = m.com.frc := rfl
@[simp] theorem setEnt_free (o : ObjDef) (i idx v : Nat) : (m.setEnt o i idx v).com.free = m.com.free := rfl
@[simp] theorem setEnt_objs (o : ObjDef) (i idx v : Nat) : (m.setEnt o i idx v).com.objs = m.com.objs := rfl
@[simp] theorem setEnt_pend (o : ObjDef) (i idx v : Nat) : (m.setEnt o i idx v).com.pend = m.com.pend := rfl
@[simp] theorem setEnt_fns (o : ObjDef) (i idx v : Nat) : (m.setEnt o i idx v).com.fns = m.com.fns := rfl
@[simp] theorem setEnt_status (o : ObjDef) (i idx v : Nat) : (m.setEnt o i idx v).com.status = m.com.status := rfl
@[simp] theorem setEnt_value (o : ObjDef) (i idx v : Nat) : (m.setEnt o i idx v).com.value = m.com.value := rfl
@[simp] theorem setEnt_out (o : ObjDef) (i idx v : Nat) : (m.setEnt o i idx v).com.out = m.com.out := rfl

@[simp] theorem bumpF_pwr (o : ObjDef) (i idx off n b : Nat) : (m.bumpF o i idx off n b).pwr = m.pwr := rfl
@[simp] theorem bumpF_trn (o : ObjDef) (i idx off n b : Nat) : (m.bumpF o i idx off n b).trn = m.trn := rfl
@[simp] theorem bumpF_clk (o : ObjDef) (i idx off n b : Nat) : (m.bumpF o i idx off n b).clk = m.clk := rfl
@[simp] theorem bumpF_tb (o : ObjDef) (i idx off n b : Nat) : (m.bumpF o i idx off n b).tb = m.tb := rfl
@[simp] theorem bumpF_sec (o : ObjDef) (i idx off n b : Nat) : (m.bumpF o i idx off n b).sec = m.sec := rfl
@[simp] theorem bumpF_dbg (o : ObjDef) (i idx off n b : Nat) : (m.bumpF o i idx off n b).dbg = m.dbg := rfl
@[simp] theorem bumpF_flt (o : ObjDef) (i idx off n b : Nat) : (m.bumpF o i idx off n b).flt = m.flt := rfl
@[simp] theorem bumpF_trm (o : ObjDef) (i idx off n b : Nat) : (m.bumpF o i idx off n b).trm = m.trm := rfl
@[simp] theorem bumpF_dp (o : ObjDef) (i idx off n b : Nat) : (m.bumpF o i idx off n b).dp = m.dp := rfl
@[simp] theorem bumpF_frc (o : ObjDef) (i idx off n b : Nat) : (m.bumpF o i idx off n b).com.frc = m.com.frc := rfl
@[simp] theorem bumpF_free (o : ObjDef) (i idx off n b : Nat) : (m.bumpF o i idx off n b).com.free = m.com.free := rfl
@[simp] theorem bumpF_objs (o : ObjDef) (i idx off n b : Nat) : (m.bumpF o i idx off n b).com.objs = m.com.objs := rfl
@[simp] theorem bumpF_pend (o : ObjDef) (i idx off n b : Nat) : (m.bumpF o i idx off n b).com.pend = m.com.pend := rfl
@[simp] theorem bumpF_fns (o : ObjDef) (i idx off n b : Nat) : (m.bumpF o i idx off n b).com.fns = m.com.fns := rfl
@[simp] theorem bumpF_status (o : ObjDef) (i idx off n b : Nat) : (m.bumpF o i idx off n b).com.status = m.com.status := rfl
@[simp] theorem bumpF_value (o : ObjDef) (i idx off n b : Nat) : (m.bumpF o i idx off n b).com.value = m.com.value := rfl
@[simp] theorem bumpF_out (o : ObjDef) (i idx off n b : Nat) : (m.bumpF o i idx off n b).com.out = m.com.out := rfl

@[simp] theorem st_pwr (r : Status) : (m.st r).pwr = m.pwr := rfl
@[simp] theorem st_trn (r : Status) : (m.st r).trn = m.trn := rfl
@[simp] theorem st_clk (r : Status) : (m.st r).clk = m.clk := rfl
@[simp] theorem st_tb (r : Status) : (m.st r).tb = m.tb := rfl
@[simp] theorem st_sec (r : Status) : (m.st r).sec = m.sec := rfl
@[simp] theorem st_dbg (r : Status) : (m.st r).dbg = m.dbg := rfl
@[simp] theorem st_flt (r : Status) : (m.st r).flt = m.flt := rfl
@[simp] theorem st_trm (r : Status) : (m.st r).trm = m.trm := rfl
@[simp] theorem st_dp (r : Status) : (m.st r).dp = m.dp := rfl
@[simp] theorem st_frc (r : Status) : (m.st r).com.frc = m.com.frc := rfl
@[simp] theorem st_free (r : Status) : (m.st r).com.free = m.com.free := rfl
@[simp] theorem st_objs (r : Status) : (m.st r).com.objs = m.com.objs := rfl
@[simp] theorem st_tabs (r : Status) : (m.st r).com.tabs = m.com.tabs := rfl
@[simp] theorem st_pend (r : Status) : (m.st r).com.pend = m.com.pend := rfl
@[simp] theorem st_fns (r : Status) : (m.st r).com.fns = m.com.fns := rfl
@[simp] theorem st_value (r : Status) : (m.st r).com.value = m.com.value := rfl
@[simp] theorem st_out (r : Status) : (m.st r).com.out = m.com.out := rfl

@[simp] theorem val_pwr (v : Nat) : (m.val v).pwr = m.pwr := rfl
@[simp] theorem val_trn (v : Nat) : (m.val v).trn = m.trn := rfl
@[simp] theorem val_clk (v : Nat) : (m.val v).clk = m.clk := rfl
@[simp] theorem val_tb (v : Nat) : (m.val v).tb = m.tb := rfl
@[simp] theorem val_sec (v : Nat) : (m.val v).sec = m.sec := rfl
@[simp] theorem val_dbg (v : Nat) : (m.val v).dbg = m.dbg := rfl
@[simp] theorem val_flt (v : Nat) : (m.val v).flt = m.flt := rfl
@[simp] theorem val_trm (v : Nat) : (m.val v).trm = m.trm := rfl
@[simp] theorem val_dp (v : Nat) : (m.val v).dp = m.dp := rfl
@[simp] theorem val_frc (v : Nat) : (m.val v).com.frc = m.com.frc := rfl
@[simp] theorem val_free (v : Nat) : (m.val v).com.free = m.com.free := rfl
@[simp] theorem val_objs (v : Nat) : (m.val v).com.objs = m.com.objs := rfl
@[simp] theorem val_tabs (v : Nat) : (m.val v).com.tabs = m.com.tabs := rfl
@[simp] theorem val_pend (v : Nat) : (m.val v).com.pend = m.com.pend := rfl
@[simp] theorem val_fns (v : Nat) : (m.val v).com.fns = m.com.fns := rfl
@[simp] theorem val_status (v : Nat) : (m.val v).com.status = m.com.status := rfl
@[simp] theorem val_out (v : Nat) : (m.val v).com.out = m.com.out := rfl

@[simp] theorem emit_pwr (x : Out) : (m.emit x).pwr = m.pwr := by
  unfold Mach.emit
  split <;> rfl
@[simp] theorem emit_trn (x : Out) : (m.emit x).trn = m.trn := by
  unfold Mach.emit
  split <;> rfl
@[simp] theorem emit_clk (x : Out) : (m.emit x).clk = m.clk := by
  unfold Mach.emit
  split <;> rfl
@[simp] theorem emit_tb (x : Out) : (m.emit x).tb = m.tb := by
  unfold Mach.emit
  split <;> rfl
@[simp] theorem emit_sec (x : Out) : (m.emit x).sec = m.sec := by
  unfold Mach.emit
  split <;> rfl
@[simp] theorem emit_dbg (x : Out) : (m.emit x).dbg = m.dbg := by
  unfold Mach.emit
  split <;> rfl
@[simp] theorem emit_flt (x : Out) : (m.emit x).flt = m.flt := by
  unfold Mach.emit
  split <;> rfl
@[simp] theorem emit_trm (x : Out) : (m.emit x).trm = m.trm := by
  unfold Mach.emit
  split <;> rfl
@[simp] theorem emit_dp (x : Out) : (m.emit x).dp = m.dp := by
  unfold Mach.emit
  split <;> rfl
@[simp] theorem emit_frc (x : Out) : (m.emit x).com.frc = m.com.frc := by
  unfold Mach.emit
  split <;> rfl
@[simp] theorem emit_free (x : Out) : (m.emit x).com.free = m.com.free := by
  unfold Mach.emit
  split <;> rfl
@[simp] theorem emit_objs (x : Out) : (m.emit x).com.objs = m.com.objs := by
  unfold Mach.emit
  split <;> rfl
@[simp] theorem emit_tabs (x : Out) : (m.emit x).com.tabs = m.com.tabs := by
  unfold Mach.emit
  split <;> rfl
@[simp] theorem emit_pend (x : Out) : (m.emit x).com.pend = m.com.pend := by
  unfold Mach.emit
  split <;> rfl
@[simp] theorem emit_fns (x : Out) : (m.emit x).com.fns = m.com.fns := by
  unfold Mach.emit
  split <;> rfl
@[simp] theorem emit_status (x : Out) : (m.emit x).com.status = m.com.status := by
  unfold Mach.emit
  split <;> rfl
@[simp] theorem emit_value (x : Out) : (m.emit x).com.value = m.com.value := by
  unfold Mach.emit
  split <;> rfl

@[simp] theorem freed_pwr : (m.freed).pwr = m.pwr := rfl
@[simp] theorem freed_trn : (m.freed).trn = m.trn := rfl
@[simp] theorem freed_clk : (m.freed).clk = m.clk := rfl
@[simp] theorem freed_tb : (m.freed).tb = m.tb := rfl
@[simp] theorem freed_sec : (m.freed).sec = m.sec := rfl
@[simp] theorem freed_dbg : (m.freed).dbg = m.dbg := rfl
@[simp] theorem freed_flt : (m.freed).flt = m.flt := rfl
@[simp] theorem freed_trm : (m.freed).trm = m.trm := rfl
@[simp] theorem freed_dp : (m.freed).dp = m.dp := rfl
@[simp] theorem freed_frc : (m.freed).com.frc = m.com.frc := rfl
@[simp] theorem freed_objs : (m.freed).com.objs = m.com.objs := rfl
@[simp] theorem freed_tabs : (m.freed).com.tabs = m.com.tabs := rfl
@[simp] theorem freed_pend : (m.freed).com.pend = m.com.pend := rfl
@[simp] theorem freed_fns : (m.freed).com.fns = m.com.fns := rfl
@[simp] theorem freed_status : (m.freed).com.status = m.com.status := rfl
@[simp] theorem freed_value : (m.freed).com.value = m.com.value := rfl
@[simp] theorem freed_out : (m.freed).com.out = m.com.out := rfl

@[simp] theorem reach_pwr (t : Nat) : (m.reach t).pwr = m.pwr := rfl
@[simp] theorem reach_trn (t : Nat) : (m.reach t).trn = m.trn := rfl
@[simp] theorem reach_clk (t : Nat) : (m.reach t).clk = m.clk := rfl
@[simp] theorem reach_tb (t : Nat) : (m.reach t).tb = m.tb := rfl
@[simp] theorem reach_sec (t : Nat) : (m.reach t).sec = m.sec := rfl
@[simp] theorem reach_dbg (t : Nat) : (m.reach t).dbg = m.dbg := rfl
@[simp] theorem reach_flt (t : Nat) : (m.reach t).flt = m.flt := rfl
@[simp] theorem reach_trm (t : Nat) : (m.reach t).trm = m.trm := rfl
@[simp] theorem reach_dp (t : Nat) : (m.reach t).dp = m.dp := rfl
@[simp] theorem reach_free (t : Nat) : (m.reach t).com.free = m.com.free := rfl
@[simp] theorem reach_objs (t : Nat) : (m.reach t).com.objs = m.com.objs := rfl
@[simp] theorem reach_tabs (t : Nat) : (m.reach t).com.tabs = m.com.tabs := rfl
@[simp] theorem reach_pend (t : Nat) : (m.reach t).com.pend = m.com.pend := rfl
@[simp] theorem reach_fns (t : Nat) : (m.reach t).com.fns = m.com.fns := rfl
@[simp] theorem reach_status (t : Nat) : (m.reach t).com.status = m.com.status := rfl
@[simp] theorem reach_value (t : Nat) : (m.reach t).com.value = m.com.value := rfl
@[simp] theorem reach_out (t : Nat) : (m.reach t).com.out = m.com.out := rfl

@[simp] theorem setFn_pwr (f : Nat) (r : FnRec) : (m.setFn f r).pwr = m.pwr := rfl
@[simp] theorem setFn_trn (f : Nat) (r : FnRec) : (m.setFn f r).trn = m.trn := rfl
@[simp] theorem setFn_clk (f : Nat) (r : FnRec) : (m.setFn f r).clk = m.clk := rfl
@[simp] theorem setFn_tb (f : Nat) (r : FnRec) : (m.setFn f r).tb = m.tb := rfl
@[simp] theorem setFn_sec (f : Nat) (r : FnRec) : (m.setFn f r).sec = m.sec := rfl
@[simp] theorem setFn_dbg (f : Nat) (r : FnRec) : (m.setFn f r).dbg = m.dbg := rfl
@[simp] theorem setFn_flt (f : Nat) (r : FnRec) : (m.setFn f r).flt = m.flt := rfl
@[simp] theorem setFn_trm (f : Nat) (r : FnRec) : (m.setFn f r).trm = m.trm := rfl
@[simp] theorem setFn_dp (f : Nat) (r : FnRec) : (m.setFn f r).dp = m.dp := rfl
@[simp] theorem setFn_frc (f : Nat) (r : FnRec) : (m.setFn f r).com.frc = m.com.frc := rfl
@[simp] theorem setFn_free (f : Nat) (r : FnRec) : (m.setFn f r).com.free = m.com.free := rfl
@[simp] theorem setFn_objs (f : Nat) (r : FnRec) : (m.setFn f r).com.objs = m.com.objs := rfl
@[simp] theorem setFn_tabs (f : Nat) (r : FnRec) : (m.setFn f r).com.tabs = m.com.tabs := rfl
@[simp] theorem setFn_pend (f : Nat) (r : FnRec) : (m.setFn f r).com.pend = m.com.pend := rfl
@[simp] theorem setFn_status (f : Nat) (r : FnRec) : (m.setFn f r).com.status = m.com.status := rfl
@[simp] theorem setFn_value (f : Nat) (r : FnRec) : (m.setFn f r).com.value = m.com.value := rfl
@[simp] theorem setFn_out (f : Nat) (r : FnRec) : (m.setFn f r).com.out = m.com.out := rfl

@[simp] theorem met_pwr (f : Nat) : (m.met f).pwr = m.pwr := rfl
@[simp] theorem met_trn (f : Nat) : (m.met f).trn = m.trn := rfl
@[simp] theorem met_clk (f : Nat) : (m.met f).clk = m.clk := rfl
@[simp] theorem met_tb (f : Nat) : (m.met f).tb = m.tb := rfl
@[simp] theorem met_sec (f : Nat) : (m.met f).sec = m.sec := rfl
@[simp] theorem met_dbg (f : Nat) : (m.met f).dbg = m.dbg := rfl
@[simp] theorem met_flt (f : Nat) : (m.met f).flt = m.flt := rfl
@[simp] theorem met_trm (f : Nat) : (m.met f).trm = m.trm := rfl
@[simp] theorem met_dp (f : Nat) : (m.met f).dp = m.dp := rfl
@[simp] theorem met_frc (f : Nat) : (m.met f).com.frc = m.com.frc := rfl
@[simp] theorem met_free (f : Nat) : (m.met f).com.free = m.com.free := rfl
@[simp] theorem met_objs (f : Nat) : (m.met f).com.objs = m.com.objs := rfl
@[simp] theorem met_tabs (f : Nat) : (m.met f).com.tabs = m.com.tabs := rfl
@[simp] theorem met_pend (f : Nat) : (m.met f).com.pend = m.com.pend := rfl
@[simp] theorem met_status (f : Nat) : (m.met f).com.status = m.com.status := rfl
@[simp] theorem met_value (f : Nat) : (m.met f).com.value = m.com.value := rfl
@[simp] theorem met_out (f : Nat) : (m.met f).com.out = m.com.out := rfl

@[simp] theorem setPend_pwr (o : ObjDef) (i : Nat) (v : Option Nat) : (m.setPend o i v).pwr = m.pwr := rfl
@[simp] theorem setPend_trn (o : ObjDef) (i : Nat) (v : Option Nat) : (m.setPend o i v).trn = m.trn := rfl
@[simp] theorem setPend_clk (o : ObjDef) (i : Nat) (v : Option Nat) : (m.setPend o i v).clk = m.clk := rfl
@[simp] theorem setPend_tb (o : ObjDef) (i : Nat) (v : Option Nat) : (m.setPend o i v).tb = m.tb := rfl
@[simp] theorem setPend_sec (o : ObjDef) (i : Nat) (v : Option Nat) : (m.setPend o i v).sec = m.sec := rfl
@[simp] theorem setPend_dbg (o : ObjDef) (i : Nat) (v : Option Nat) : (m.setPend o i v).dbg = m.dbg := rfl
@[simp] theorem setPend_flt (o : ObjDef) (i : Nat) (v : Option Nat) : (m.setPend o i v).flt = m.flt := rfl
@[simp] theorem setPend_trm (o : ObjDef) (i : Nat) (v : Option Nat) : (m.setPend o i v).trm = m.trm := rfl
@[simp] theorem setPend_dp (o : ObjDef) (i : Nat) (v : Option Nat) : (m.setPend o i v).dp = m.dp := rfl
@[simp] theorem setPend_frc (o : ObjDef) (i : Nat) (v : Option Nat) : (m.setPend o i v).com.frc = m.com.frc := rfl
@[simp] theorem setPend_free (o : ObjDef) (i : Nat) (v : Option Nat) : (m.setPend o i v).com.free = m.com.free := rfl
@[simp] theorem setPend_objs (o : ObjDef) (i : Nat) (v : Option Nat) : (m.setPend o i v).com.objs = m.com.objs := rfl
@[simp] theorem setPend_tabs (o : ObjDef) (i : Nat) (v : Option Nat) : (m.setPend o i v).com.tabs = m.com.tabs := rfl
@[simp] theorem setPend_fns (o : ObjDef) (i : Nat) (v : Option Nat) : (m.setPend o i v).com.fns = m.com.fns := rfl
@[simp] theorem setPend_status (o : ObjDef) (i : Nat) (v : Option Nat) : (m.setPend o i v).com.status = m.com.status := rfl
@[simp] theorem setPend_value (o : ObjDef) (i : Nat) (v : Option Nat) : (m.setPend o i v).com.value = m.com.value := rfl
@[simp] theorem setPend_out (o : ObjDef) (i : Nat) (v : Option Nat) : (m.setPend o i v).com.out = m.com.out := rfl

@[simp] theorem setPendEnt_pwr (o : ObjDef) (i idx : Nat) (v : Option Nat) : (m.setPendEnt o i idx v).pwr = m.pwr := rfl
@[simp] theorem setPendEnt_trn (o : ObjDef) (i idx : Nat) (v : Option Nat) : (m.setPendEnt o i idx v).trn = m.trn := rfl
@[simp] theorem setPendEnt_clk (o : ObjDef) (i idx : Nat) (v : Option Nat) : (m.setPendEnt o i idx v).clk = m.clk := rfl
@[simp] theorem setPendEnt_tb (o : ObjDef) (i idx : Nat) (v : Option Nat) : (m.setPendEnt o i idx v).tb = m.tb := rfl
@[simp] theorem setPendEnt_sec (o : ObjDef) (i idx : Nat) (v : Option Nat) : (m.setPendEnt o i idx v).sec = m.sec := rfl
@[simp] theorem setPendEnt_dbg (o : ObjDef) (i idx : Nat) (v : Option Nat) : (m.setPendEnt o i idx v).dbg = m.dbg := rfl
@[simp] theorem setPendEnt_flt (o : ObjDef) (i idx : Nat) (v : Option Nat) : (m.setPendEnt o i idx v).flt = m.flt := rfl
@[simp] theorem setPendEnt_trm (o : ObjDef) (i idx : Nat) (v : Option Nat) : (m.setPendEnt o i idx v).trm = m.trm := rfl
@[simp] theorem setPendEnt_dp (o : ObjDef) (i idx : Nat) (v : Option Nat) : (m.setPendEnt o i idx v).dp = m.dp := rfl
@[simp] theorem setPendEnt_frc (o : ObjDef) (i idx : Nat) (v : Option Nat) : (m.setPendEnt o i idx v).com.frc = m.com.frc := rfl
@[simp] theorem setPendEnt_free (o : ObjDef) (i idx : Nat) (v : Option Nat) : (m.setPendEnt o i idx v).com.free = m.com.free := rfl
@[simp] theorem setPendEnt_objs (o : ObjDef) (i idx : Nat) (v : Option Nat) : (m.setPendEnt o i idx v).com.objs = m.com.objs := rfl
@[simp] theorem setPendEnt_tabs (o : ObjDef) (i idx : Nat) (v : Option Nat) : (m.setPendEnt o i idx v).com.tabs = m.com.tabs := rfl
@[simp] theorem setPendEnt_fns (o : ObjDef) (i idx : Nat) (v : Option Nat) : (m.setPendEnt o i idx v).com.fns = m.com.fns := rfl
@[simp] theorem setPendEnt_status (o : ObjDef) (i idx : Nat) (v : Option Nat) : (m.setPendEnt o i idx v).com.status = m.com.status := rfl
@[simp] theorem setPendEnt_value (o : ObjDef) (i idx : Nat) (v : Option Nat) : (m.setPendEnt o i idx v).com.value = m.com.value := rfl
@[simp] theorem setPendEnt_out (o : ObjDef) (i idx : Nat) (v : Option Nat) : (m.setPendEnt o i idx v).com.out = m.com.out := rfl

@[simp] theorem adt_pwr (i n : Nat) : (m.adt i n).pwr = m.pwr := rfl
@[simp] theorem adt_trn (i n : Nat) : (m.adt i n).trn = m.trn := rfl
@[simp] theorem adt_clk (i n : Nat) : (m.adt i n).clk = m.clk := rfl
@[simp] theorem adt_tb (i n : Nat) : (m.adt i n).tb = m.tb := rfl
@[simp] theorem adt_sec (i n : Nat) : (m.adt i n).sec = m.sec := rfl
@[simp] theorem adt_dbg (i n : Nat) : (m.adt i n).dbg = m.dbg := rfl
@[simp] theorem adt_flt (i n : Nat) : (m.adt i n).flt = m.flt := rfl
@[simp] theorem adt_dp (i n : Nat) : (m.adt i n).dp = m.dp := rfl
@[simp] theorem adt_frc (i n : Nat) : (m.adt i n).com.frc = m.com.frc := rfl
@[simp] theorem adt_free (i n : Nat) : (m.adt i n).com.free = m.com.free := rfl
@[simp] theorem adt_objs (i n : Nat) : (m.adt i n).com.objs = m.com.objs := rfl
@[simp] theorem adt_tabs (i n : Nat) : (m.adt i n).com.tabs = m.com.tabs := rfl
@[simp] theorem adt_pend (i n : Nat) : (m.adt i n).com.pend = m.com.pend := rfl
@[simp] theorem adt_fns (i n : Nat) : (m.adt i n).com.fns = m.com.fns := rfl
@[simp] theorem adt_status (i n : Nat) : (m.adt i n).com.status = m.com.status := rfl
@[simp] theorem adt_value (i n : Nat) : (m.adt i n).com.value = m.com.value := rfl
@[simp] theorem adt_out (i n : Nat) : (m.adt i n).com.out = m.com.out := rfl

@[simp] theorem setBlk_pwr (k : Nat) (b : Contain) : (m.setBlk k b).pwr = m.pwr := rfl
@[simp] theorem setBlk_trn (k : Nat) (b : Contain) : (m.setBlk k b).trn = m.trn := rfl
@[simp] theorem setBlk_clk (k : Nat) (b : Contain) : (m.setBlk k b).clk = m.clk := rfl
@[simp] theorem setBlk_tb (k : Nat) (b : Contain) : (m.setBlk k b).tb = m.tb := rfl
@[simp] theorem setBlk_sec (k : Nat) (b : Contain) : (m.setBlk k b).sec = m.sec := rfl
@[simp] theorem setBlk_dbg (k : Nat) (b : Contain) : (m.setBlk k b).dbg = m.dbg := rfl
@[simp] theorem setBlk_trm (k : Nat) (b : Contain) : (m.setBlk k b).trm = m.trm := rfl
@[simp] theorem setBlk_dp (k : Nat) (b : Contain) : (m.setBlk k b).dp = m.dp := rfl
@[simp] theorem setBlk_frc (k : Nat) (b : Contain) : (m.setBlk k b).com.frc = m.com.frc := rfl
@[simp] theorem setBlk_free (k : Nat) (b : Contain) : (m.setBlk k b).com.free = m.com.free := rfl
@[simp] theorem setBlk_objs (k : Nat) (b : Contain) : (m.setBlk k b).com.objs = m.com.objs := rfl
@[simp] theorem setBlk_tabs (k : Nat) (b : Contain) : (m.setBlk k b).com.tabs = m.com.tabs := rfl
@[simp] theorem setBlk_pend (k : Nat) (b : Contain) : (m.setBlk k b).com.pend = m.com.pend := rfl
@[simp] theorem setBlk_fns (k : Nat) (b : Contain) : (m.setBlk k b).com.fns = m.com.fns := rfl
@[simp] theorem setBlk_status (k : Nat) (b : Contain) : (m.setBlk k b).com.status = m.com.status := rfl
@[simp] theorem setBlk_value (k : Nat) (b : Contain) : (m.setBlk k b).com.value = m.com.value := rfl
@[simp] theorem setBlk_out (k : Nat) (b : Contain) : (m.setBlk k b).com.out = m.com.out := rfl

@[simp] theorem setAvs_trn (d : Nat) (a : Avs) : (m.setAvs d a).trn = m.trn := rfl
@[simp] theorem setAvs_clk (d : Nat) (a : Avs) : (m.setAvs d a).clk = m.clk := rfl
@[simp] theorem setAvs_tb (d : Nat) (a : Avs) : (m.setAvs d a).tb = m.tb := rfl
@[simp] theorem setAvs_sec (d : Nat) (a : Avs) : (m.setAvs d a).sec = m.sec := rfl
@[simp] theorem setAvs_dbg (d : Nat) (a : Avs) : (m.setAvs d a).dbg = m.dbg := rfl
@[simp] theorem setAvs_flt (d : Nat) (a : Avs) : (m.setAvs d a).flt = m.flt := rfl
@[simp] theorem setAvs_trm (d : Nat) (a : Avs) : (m.setAvs d a).trm = m.trm := rfl
@[simp] theorem setAvs_dp (d : Nat) (a : Avs) : (m.setAvs d a).dp = m.dp := rfl
@[simp] theorem setAvs_frc (d : Nat) (a : Avs) : (m.setAvs d a).com.frc = m.com.frc := rfl
@[simp] theorem setAvs_free (d : Nat) (a : Avs) : (m.setAvs d a).com.free = m.com.free := rfl
@[simp] theorem setAvs_objs (d : Nat) (a : Avs) : (m.setAvs d a).com.objs = m.com.objs := rfl
@[simp] theorem setAvs_tabs (d : Nat) (a : Avs) : (m.setAvs d a).com.tabs = m.com.tabs := rfl
@[simp] theorem setAvs_pend (d : Nat) (a : Avs) : (m.setAvs d a).com.pend = m.com.pend := rfl
@[simp] theorem setAvs_fns (d : Nat) (a : Avs) : (m.setAvs d a).com.fns = m.com.fns := rfl
@[simp] theorem setAvs_status (d : Nat) (a : Avs) : (m.setAvs d a).com.status = m.com.status := rfl
@[simp] theorem setAvs_value (d : Nat) (a : Avs) : (m.setAvs d a).com.value = m.com.value := rfl
@[simp] theorem setAvs_out (d : Nat) (a : Avs) : (m.setAvs d a).com.out = m.com.out := rfl

@[simp] theorem setSlot_pwr (k : Nat) (s : Slot) : (m.setSlot k s).pwr = m.pwr := rfl
@[simp] theorem setSlot_trn (k : Nat) (s : Slot) : (m.setSlot k s).trn = m.trn := rfl
@[simp] theorem setSlot_clk (k : Nat) (s : Slot) : (m.setSlot k s).clk = m.clk := rfl
@[simp] theorem setSlot_tb (k : Nat) (s : Slot) : (m.setSlot k s).tb = m.tb := rfl
@[simp] theorem setSlot_dbg (k : Nat) (s : Slot) : (m.setSlot k s).dbg = m.dbg := rfl
@[simp] theorem setSlot_flt (k : Nat) (s : Slot) : (m.setSlot k s).flt = m.flt := rfl
@[simp] theorem setSlot_trm (k : Nat) (s : Slot) : (m.setSlot k s).trm = m.trm := rfl
@[simp] theorem setSlot_dp (k : Nat) (s : Slot) : (m.setSlot k s).dp = m.dp := rfl
@[simp] theorem setSlot_frc (k : Nat) (s : Slot) : (m.setSlot k s).com.frc = m.com.frc := rfl
@[simp] theorem setSlot_free (k : Nat) (s : Slot) : (m.setSlot k s).com.free = m.com.free := rfl
@[simp] theorem setSlot_objs (k : Nat) (s : Slot) : (m.setSlot k s).com.objs = m.com.objs := rfl
@[simp] theorem setSlot_tabs (k : Nat) (s : Slot) : (m.setSlot k s).com.tabs = m.com.tabs := rfl
@[simp] theorem setSlot_pend (k : Nat) (s : Slot) : (m.setSlot k s).com.pend = m.com.pend := rfl
@[simp] theorem setSlot_fns (k : Nat) (s : Slot) : (m.setSlot k s).com.fns = m.com.fns := rfl
@[simp] theorem setSlot_status (k : Nat) (s : Slot) : (m.setSlot k s).com.status = m.com.status := rfl
@[simp] theorem setSlot_value (k : Nat) (s : Slot) : (m.setSlot k s).com.value = m.com.value := rfl
@[simp] theorem setSlot_out (k : Nat) (s : Slot) : (m.setSlot k s).com.out = m.com.out := rfl

@[simp] theorem setMsg_pwr (n : Nat) (x : Option OpenMsg) : (m.setMsg n x).pwr = m.pwr := rfl
@[simp] theorem setMsg_trn (n : Nat) (x : Option OpenMsg) : (m.setMsg n x).trn = m.trn := rfl
@[simp] theorem setMsg_tb (n : Nat) (x : Option OpenMsg) : (m.setMsg n x).tb = m.tb := rfl
@[simp] theorem setMsg_sec (n : Nat) (x : Option OpenMsg) : (m.setMsg n x).sec = m.sec := rfl
@[simp] theorem setMsg_dbg (n : Nat) (x : Option OpenMsg) : (m.setMsg n x).dbg = m.dbg := rfl
@[simp] theorem setMsg_flt (n : Nat) (x : Option OpenMsg) : (m.setMsg n x).flt = m.flt := rfl
@[simp] theorem setMsg_trm (n : Nat) (x : Option OpenMsg) : (m.setMsg n x).trm = m.trm := rfl
@[simp] theorem setMsg_dp (n : Nat) (x : Option OpenMsg) : (m.setMsg n x).dp = m.dp := rfl
@[simp] theorem setMsg_frc (n : Nat) (x : Option OpenMsg) : (m.setMsg n x).com.frc = m.com.frc := rfl
@[simp] theorem setMsg_free (n : Nat) (x : Option OpenMsg) : (m.setMsg n x).com.free = m.com.free := rfl
@[simp] theorem setMsg_objs (n : Nat) (x : Option OpenMsg) : (m.setMsg n x).com.objs = m.com.objs := rfl
@[simp] theorem setMsg_tabs (n : Nat) (x : Option OpenMsg) : (m.setMsg n x).com.tabs = m.com.tabs := rfl
@[simp] theorem setMsg_pend (n : Nat) (x : Option OpenMsg) : (m.setMsg n x).com.pend = m.com.pend := rfl
@[simp] theorem setMsg_fns (n : Nat) (x : Option OpenMsg) : (m.setMsg n x).com.fns = m.com.fns := rfl
@[simp] theorem setMsg_status (n : Nat) (x : Option OpenMsg) : (m.setMsg n x).com.status = m.com.status := rfl
@[simp] theorem setMsg_value (n : Nat) (x : Option OpenMsg) : (m.setMsg n x).com.value = m.com.value := rfl
@[simp] theorem setMsg_out (n : Nat) (x : Option OpenMsg) : (m.setMsg n x).com.out = m.com.out := rfl

@[simp] theorem setJob_pwr (jb : Option Job) : (m.setJob jb).pwr = m.pwr := rfl
@[simp] theorem setJob_trn (jb : Option Job) : (m.setJob jb).trn = m.trn := rfl
@[simp] theorem setJob_tb (jb : Option Job) : (m.setJob jb).tb = m.tb := rfl
@[simp] theorem setJob_sec (jb : Option Job) : (m.setJob jb).sec = m.sec := rfl
@[simp] theorem setJob_dbg (jb : Option Job) : (m.setJob jb).dbg = m.dbg := rfl
@[simp] theorem setJob_flt (jb : Option Job) : (m.setJob jb).flt = m.flt := rfl
@[simp] theorem setJob_trm (jb : Option Job) : (m.setJob jb).trm = m.trm := rfl
@[simp] theorem setJob_dp (jb : Option Job) : (m.setJob jb).dp = m.dp := rfl
@[simp] theorem setJob_frc (jb : Option Job) : (m.setJob jb).com.frc = m.com.frc := rfl
@[simp] theorem setJob_free (jb : Option Job) : (m.setJob jb).com.free = m.com.free := rfl
@[simp] theorem setJob_objs (jb : Option Job) : (m.setJob jb).com.objs = m.com.objs := rfl
@[simp] theorem setJob_tabs (jb : Option Job) : (m.setJob jb).com.tabs = m.com.tabs := rfl
@[simp] theorem setJob_pend (jb : Option Job) : (m.setJob jb).com.pend = m.com.pend := rfl
@[simp] theorem setJob_fns (jb : Option Job) : (m.setJob jb).com.fns = m.com.fns := rfl
@[simp] theorem setJob_status (jb : Option Job) : (m.setJob jb).com.status = m.com.status := rfl
@[simp] theorem setJob_value (jb : Option Job) : (m.setJob jb).com.value = m.com.value := rfl
@[simp] theorem setJob_out (jb : Option Job) : (m.setJob jb).com.out = m.com.out := rfl

@[simp] theorem setPkt_pwr (p : Nat) (x : Option Pkt) : (m.setPkt p x).pwr = m.pwr := rfl
@[simp] theorem setPkt_trn (p : Nat) (x : Option Pkt) : (m.setPkt p x).trn = m.trn := rfl
@[simp] theorem setPkt_clk (p : Nat) (x : Option Pkt) : (m.setPkt p x).clk = m.clk := rfl
@[simp] theorem setPkt_tb (p : Nat) (x : Option Pkt) : (m.setPkt p x).tb = m.tb := rfl
@[simp] theorem setPkt_sec (p : Nat) (x : Option Pkt) : (m.setPkt p x).sec = m.sec := rfl
@[simp] theorem setPkt_dbg (p : Nat) (x : Option Pkt) : (m.setPkt p x).dbg = m.dbg := rfl
@[simp] theorem setPkt_flt (p : Nat) (x : Option Pkt) : (m.setPkt p x).flt = m.flt := rfl
@[simp] theorem setPkt_trm (p : Nat) (x : Option Pkt) : (m.setPkt p x).trm = m.trm := rfl
@[simp] theorem setPkt_com (p : Nat) (x : Option Pkt) : (m.setPkt p x).com = m.com := rfl
@[simp] theorem setPkt_rch (p : Nat) (x : Option Pkt) : (m.setPkt p x).dp.rch = m.dp.rch := rfl
@[simp] theorem setPkt_ports (p : Nat) (x : Option Pkt) : (m.setPkt p x).dp.ports = m.dp.ports := rfl
@[simp] theorem setPkt_bsn (p : Nat) (x : Option Pkt) : (m.setPkt p x).dp.bsn = m.dp.bsn := rfl
@[simp] theorem setPkt_chans (p : Nat) (x : Option Pkt) : (m.setPkt p x).dp.chans = m.dp.chans := rfl
@[simp] theorem setPkt_voqs (p : Nat) (x : Option Pkt) : (m.setPkt p x).dp.voqs = m.dp.voqs := rfl
@[simp] theorem setPkt_slu (p : Nat) (x : Option Pkt) : (m.setPkt p x).dp.slu = m.dp.slu := rfl
@[simp] theorem setPkt_eddy (p : Nat) (x : Option Pkt) : (m.setPkt p x).dp.eddy = m.dp.eddy := rfl
@[simp] theorem setPkt_pcs (p : Nat) (x : Option Pkt) : (m.setPkt p x).dp.pcs = m.dp.pcs := rfl
@[simp] theorem setPkt_hch (p : Nat) (x : Option Pkt) : (m.setPkt p x).dp.hch = m.dp.hch := rfl
@[simp] theorem setPkt_pools (p : Nat) (x : Option Pkt) : (m.setPkt p x).dp.pools = m.dp.pools := rfl
@[simp] theorem setPkt_hpools (p : Nat) (x : Option Pkt) : (m.setPkt p x).dp.hpools = m.dp.hpools := rfl
@[simp] theorem setPkt_cols (p : Nat) (x : Option Pkt) : (m.setPkt p x).dp.cols = m.dp.cols := rfl
@[simp] theorem setPkt_eqs (p : Nat) (x : Option Pkt) : (m.setPkt p x).dp.eqs = m.dp.eqs := rfl

@[simp] theorem setRch_pwr (r : Nat) (x : Rch) : (m.setRch r x).pwr = m.pwr := rfl
@[simp] theorem setRch_trn (r : Nat) (x : Rch) : (m.setRch r x).trn = m.trn := rfl
@[simp] theorem setRch_clk (r : Nat) (x : Rch) : (m.setRch r x).clk = m.clk := rfl
@[simp] theorem setRch_tb (r : Nat) (x : Rch) : (m.setRch r x).tb = m.tb := rfl
@[simp] theorem setRch_sec (r : Nat) (x : Rch) : (m.setRch r x).sec = m.sec := rfl
@[simp] theorem setRch_dbg (r : Nat) (x : Rch) : (m.setRch r x).dbg = m.dbg := rfl
@[simp] theorem setRch_flt (r : Nat) (x : Rch) : (m.setRch r x).flt = m.flt := rfl
@[simp] theorem setRch_trm (r : Nat) (x : Rch) : (m.setRch r x).trm = m.trm := rfl
@[simp] theorem setRch_com (r : Nat) (x : Rch) : (m.setRch r x).com = m.com := rfl
@[simp] theorem setRch_pkts (r : Nat) (x : Rch) : (m.setRch r x).dp.pkts = m.dp.pkts := rfl
@[simp] theorem setRch_ports (r : Nat) (x : Rch) : (m.setRch r x).dp.ports = m.dp.ports := rfl
@[simp] theorem setRch_bsn (r : Nat) (x : Rch) : (m.setRch r x).dp.bsn = m.dp.bsn := rfl
@[simp] theorem setRch_chans (r : Nat) (x : Rch) : (m.setRch r x).dp.chans = m.dp.chans := rfl
@[simp] theorem setRch_voqs (r : Nat) (x : Rch) : (m.setRch r x).dp.voqs = m.dp.voqs := rfl
@[simp] theorem setRch_slu (r : Nat) (x : Rch) : (m.setRch r x).dp.slu = m.dp.slu := rfl
@[simp] theorem setRch_eddy (r : Nat) (x : Rch) : (m.setRch r x).dp.eddy = m.dp.eddy := rfl
@[simp] theorem setRch_pcs (r : Nat) (x : Rch) : (m.setRch r x).dp.pcs = m.dp.pcs := rfl
@[simp] theorem setRch_hch (r : Nat) (x : Rch) : (m.setRch r x).dp.hch = m.dp.hch := rfl
@[simp] theorem setRch_pools (r : Nat) (x : Rch) : (m.setRch r x).dp.pools = m.dp.pools := rfl
@[simp] theorem setRch_hpools (r : Nat) (x : Rch) : (m.setRch r x).dp.hpools = m.dp.hpools := rfl
@[simp] theorem setRch_cols (r : Nat) (x : Rch) : (m.setRch r x).dp.cols = m.dp.cols := rfl
@[simp] theorem setRch_eqs (r : Nat) (x : Rch) : (m.setRch r x).dp.eqs = m.dp.eqs := rfl

@[simp] theorem setPort_pwr (b : Nat) (x : PortSt) : (m.setPort b x).pwr = m.pwr := rfl
@[simp] theorem setPort_trn (b : Nat) (x : PortSt) : (m.setPort b x).trn = m.trn := rfl
@[simp] theorem setPort_clk (b : Nat) (x : PortSt) : (m.setPort b x).clk = m.clk := rfl
@[simp] theorem setPort_tb (b : Nat) (x : PortSt) : (m.setPort b x).tb = m.tb := rfl
@[simp] theorem setPort_sec (b : Nat) (x : PortSt) : (m.setPort b x).sec = m.sec := rfl
@[simp] theorem setPort_dbg (b : Nat) (x : PortSt) : (m.setPort b x).dbg = m.dbg := rfl
@[simp] theorem setPort_flt (b : Nat) (x : PortSt) : (m.setPort b x).flt = m.flt := rfl
@[simp] theorem setPort_trm (b : Nat) (x : PortSt) : (m.setPort b x).trm = m.trm := rfl
@[simp] theorem setPort_com (b : Nat) (x : PortSt) : (m.setPort b x).com = m.com := rfl
@[simp] theorem setPort_pkts (b : Nat) (x : PortSt) : (m.setPort b x).dp.pkts = m.dp.pkts := rfl
@[simp] theorem setPort_rch (b : Nat) (x : PortSt) : (m.setPort b x).dp.rch = m.dp.rch := rfl
@[simp] theorem setPort_bsn (b : Nat) (x : PortSt) : (m.setPort b x).dp.bsn = m.dp.bsn := rfl
@[simp] theorem setPort_chans (b : Nat) (x : PortSt) : (m.setPort b x).dp.chans = m.dp.chans := rfl
@[simp] theorem setPort_voqs (b : Nat) (x : PortSt) : (m.setPort b x).dp.voqs = m.dp.voqs := rfl
@[simp] theorem setPort_slu (b : Nat) (x : PortSt) : (m.setPort b x).dp.slu = m.dp.slu := rfl
@[simp] theorem setPort_eddy (b : Nat) (x : PortSt) : (m.setPort b x).dp.eddy = m.dp.eddy := rfl
@[simp] theorem setPort_pcs (b : Nat) (x : PortSt) : (m.setPort b x).dp.pcs = m.dp.pcs := rfl
@[simp] theorem setPort_hch (b : Nat) (x : PortSt) : (m.setPort b x).dp.hch = m.dp.hch := rfl
@[simp] theorem setPort_pools (b : Nat) (x : PortSt) : (m.setPort b x).dp.pools = m.dp.pools := rfl
@[simp] theorem setPort_hpools (b : Nat) (x : PortSt) : (m.setPort b x).dp.hpools = m.dp.hpools := rfl
@[simp] theorem setPort_cols (b : Nat) (x : PortSt) : (m.setPort b x).dp.cols = m.dp.cols := rfl
@[simp] theorem setPort_eqs (b : Nat) (x : PortSt) : (m.setPort b x).dp.eqs = m.dp.eqs := rfl

@[simp] theorem setBasin_pwr (b : Nat) (x : Bsn) : (m.setBasin b x).pwr = m.pwr := rfl
@[simp] theorem setBasin_trn (b : Nat) (x : Bsn) : (m.setBasin b x).trn = m.trn := rfl
@[simp] theorem setBasin_clk (b : Nat) (x : Bsn) : (m.setBasin b x).clk = m.clk := rfl
@[simp] theorem setBasin_tb (b : Nat) (x : Bsn) : (m.setBasin b x).tb = m.tb := rfl
@[simp] theorem setBasin_sec (b : Nat) (x : Bsn) : (m.setBasin b x).sec = m.sec := rfl
@[simp] theorem setBasin_dbg (b : Nat) (x : Bsn) : (m.setBasin b x).dbg = m.dbg := rfl
@[simp] theorem setBasin_flt (b : Nat) (x : Bsn) : (m.setBasin b x).flt = m.flt := rfl
@[simp] theorem setBasin_trm (b : Nat) (x : Bsn) : (m.setBasin b x).trm = m.trm := rfl
@[simp] theorem setBasin_com (b : Nat) (x : Bsn) : (m.setBasin b x).com = m.com := rfl
@[simp] theorem setBasin_pkts (b : Nat) (x : Bsn) : (m.setBasin b x).dp.pkts = m.dp.pkts := rfl
@[simp] theorem setBasin_rch (b : Nat) (x : Bsn) : (m.setBasin b x).dp.rch = m.dp.rch := rfl
@[simp] theorem setBasin_ports (b : Nat) (x : Bsn) : (m.setBasin b x).dp.ports = m.dp.ports := rfl
@[simp] theorem setBasin_chans (b : Nat) (x : Bsn) : (m.setBasin b x).dp.chans = m.dp.chans := rfl
@[simp] theorem setBasin_voqs (b : Nat) (x : Bsn) : (m.setBasin b x).dp.voqs = m.dp.voqs := rfl
@[simp] theorem setBasin_slu (b : Nat) (x : Bsn) : (m.setBasin b x).dp.slu = m.dp.slu := rfl
@[simp] theorem setBasin_eddy (b : Nat) (x : Bsn) : (m.setBasin b x).dp.eddy = m.dp.eddy := rfl
@[simp] theorem setBasin_pcs (b : Nat) (x : Bsn) : (m.setBasin b x).dp.pcs = m.dp.pcs := rfl
@[simp] theorem setBasin_hch (b : Nat) (x : Bsn) : (m.setBasin b x).dp.hch = m.dp.hch := rfl
@[simp] theorem setBasin_pools (b : Nat) (x : Bsn) : (m.setBasin b x).dp.pools = m.dp.pools := rfl
@[simp] theorem setBasin_hpools (b : Nat) (x : Bsn) : (m.setBasin b x).dp.hpools = m.dp.hpools := rfl
@[simp] theorem setBasin_cols (b : Nat) (x : Bsn) : (m.setBasin b x).dp.cols = m.dp.cols := rfl
@[simp] theorem setBasin_eqs (b : Nat) (x : Bsn) : (m.setBasin b x).dp.eqs = m.dp.eqs := rfl

@[simp] theorem setChan_pwr (n : Nat) (x : ChSt) : (m.setChan n x).pwr = m.pwr := rfl
@[simp] theorem setChan_trn (n : Nat) (x : ChSt) : (m.setChan n x).trn = m.trn := rfl
@[simp] theorem setChan_clk (n : Nat) (x : ChSt) : (m.setChan n x).clk = m.clk := rfl
@[simp] theorem setChan_tb (n : Nat) (x : ChSt) : (m.setChan n x).tb = m.tb := rfl
@[simp] theorem setChan_sec (n : Nat) (x : ChSt) : (m.setChan n x).sec = m.sec := rfl
@[simp] theorem setChan_dbg (n : Nat) (x : ChSt) : (m.setChan n x).dbg = m.dbg := rfl
@[simp] theorem setChan_flt (n : Nat) (x : ChSt) : (m.setChan n x).flt = m.flt := rfl
@[simp] theorem setChan_trm (n : Nat) (x : ChSt) : (m.setChan n x).trm = m.trm := rfl
@[simp] theorem setChan_com (n : Nat) (x : ChSt) : (m.setChan n x).com = m.com := rfl
@[simp] theorem setChan_pkts (n : Nat) (x : ChSt) : (m.setChan n x).dp.pkts = m.dp.pkts := rfl
@[simp] theorem setChan_rch (n : Nat) (x : ChSt) : (m.setChan n x).dp.rch = m.dp.rch := rfl
@[simp] theorem setChan_ports (n : Nat) (x : ChSt) : (m.setChan n x).dp.ports = m.dp.ports := rfl
@[simp] theorem setChan_bsn (n : Nat) (x : ChSt) : (m.setChan n x).dp.bsn = m.dp.bsn := rfl
@[simp] theorem setChan_voqs (n : Nat) (x : ChSt) : (m.setChan n x).dp.voqs = m.dp.voqs := rfl
@[simp] theorem setChan_slu (n : Nat) (x : ChSt) : (m.setChan n x).dp.slu = m.dp.slu := rfl
@[simp] theorem setChan_eddy (n : Nat) (x : ChSt) : (m.setChan n x).dp.eddy = m.dp.eddy := rfl
@[simp] theorem setChan_pcs (n : Nat) (x : ChSt) : (m.setChan n x).dp.pcs = m.dp.pcs := rfl
@[simp] theorem setChan_hch (n : Nat) (x : ChSt) : (m.setChan n x).dp.hch = m.dp.hch := rfl
@[simp] theorem setChan_pools (n : Nat) (x : ChSt) : (m.setChan n x).dp.pools = m.dp.pools := rfl
@[simp] theorem setChan_hpools (n : Nat) (x : ChSt) : (m.setChan n x).dp.hpools = m.dp.hpools := rfl
@[simp] theorem setChan_cols (n : Nat) (x : ChSt) : (m.setChan n x).dp.cols = m.dp.cols := rfl
@[simp] theorem setChan_eqs (n : Nat) (x : ChSt) : (m.setChan n x).dp.eqs = m.dp.eqs := rfl

@[simp] theorem setVoq_pwr (i v : Nat) (x : Voq) : (m.setVoq i v x).pwr = m.pwr := rfl
@[simp] theorem setVoq_trn (i v : Nat) (x : Voq) : (m.setVoq i v x).trn = m.trn := rfl
@[simp] theorem setVoq_clk (i v : Nat) (x : Voq) : (m.setVoq i v x).clk = m.clk := rfl
@[simp] theorem setVoq_tb (i v : Nat) (x : Voq) : (m.setVoq i v x).tb = m.tb := rfl
@[simp] theorem setVoq_sec (i v : Nat) (x : Voq) : (m.setVoq i v x).sec = m.sec := rfl
@[simp] theorem setVoq_dbg (i v : Nat) (x : Voq) : (m.setVoq i v x).dbg = m.dbg := rfl
@[simp] theorem setVoq_flt (i v : Nat) (x : Voq) : (m.setVoq i v x).flt = m.flt := rfl
@[simp] theorem setVoq_trm (i v : Nat) (x : Voq) : (m.setVoq i v x).trm = m.trm := rfl
@[simp] theorem setVoq_com (i v : Nat) (x : Voq) : (m.setVoq i v x).com = m.com := rfl
@[simp] theorem setVoq_pkts (i v : Nat) (x : Voq) : (m.setVoq i v x).dp.pkts = m.dp.pkts := rfl
@[simp] theorem setVoq_rch (i v : Nat) (x : Voq) : (m.setVoq i v x).dp.rch = m.dp.rch := rfl
@[simp] theorem setVoq_ports (i v : Nat) (x : Voq) : (m.setVoq i v x).dp.ports = m.dp.ports := rfl
@[simp] theorem setVoq_bsn (i v : Nat) (x : Voq) : (m.setVoq i v x).dp.bsn = m.dp.bsn := rfl
@[simp] theorem setVoq_chans (i v : Nat) (x : Voq) : (m.setVoq i v x).dp.chans = m.dp.chans := rfl
@[simp] theorem setVoq_slu (i v : Nat) (x : Voq) : (m.setVoq i v x).dp.slu = m.dp.slu := rfl
@[simp] theorem setVoq_eddy (i v : Nat) (x : Voq) : (m.setVoq i v x).dp.eddy = m.dp.eddy := rfl
@[simp] theorem setVoq_pcs (i v : Nat) (x : Voq) : (m.setVoq i v x).dp.pcs = m.dp.pcs := rfl
@[simp] theorem setVoq_hch (i v : Nat) (x : Voq) : (m.setVoq i v x).dp.hch = m.dp.hch := rfl
@[simp] theorem setVoq_pools (i v : Nat) (x : Voq) : (m.setVoq i v x).dp.pools = m.dp.pools := rfl
@[simp] theorem setVoq_hpools (i v : Nat) (x : Voq) : (m.setVoq i v x).dp.hpools = m.dp.hpools := rfl
@[simp] theorem setVoq_cols (i v : Nat) (x : Voq) : (m.setVoq i v x).dp.cols = m.dp.cols := rfl
@[simp] theorem setVoq_eqs (i v : Nat) (x : Voq) : (m.setVoq i v x).dp.eqs = m.dp.eqs := rfl

@[simp] theorem setSlu_pwr (v : Nat) (x : Slu) : (m.setSlu v x).pwr = m.pwr := rfl
@[simp] theorem setSlu_trn (v : Nat) (x : Slu) : (m.setSlu v x).trn = m.trn := rfl
@[simp] theorem setSlu_clk (v : Nat) (x : Slu) : (m.setSlu v x).clk = m.clk := rfl
@[simp] theorem setSlu_tb (v : Nat) (x : Slu) : (m.setSlu v x).tb = m.tb := rfl
@[simp] theorem setSlu_sec (v : Nat) (x : Slu) : (m.setSlu v x).sec = m.sec := rfl
@[simp] theorem setSlu_dbg (v : Nat) (x : Slu) : (m.setSlu v x).dbg = m.dbg := rfl
@[simp] theorem setSlu_flt (v : Nat) (x : Slu) : (m.setSlu v x).flt = m.flt := rfl
@[simp] theorem setSlu_trm (v : Nat) (x : Slu) : (m.setSlu v x).trm = m.trm := rfl
@[simp] theorem setSlu_com (v : Nat) (x : Slu) : (m.setSlu v x).com = m.com := rfl
@[simp] theorem setSlu_pkts (v : Nat) (x : Slu) : (m.setSlu v x).dp.pkts = m.dp.pkts := rfl
@[simp] theorem setSlu_rch (v : Nat) (x : Slu) : (m.setSlu v x).dp.rch = m.dp.rch := rfl
@[simp] theorem setSlu_ports (v : Nat) (x : Slu) : (m.setSlu v x).dp.ports = m.dp.ports := rfl
@[simp] theorem setSlu_bsn (v : Nat) (x : Slu) : (m.setSlu v x).dp.bsn = m.dp.bsn := rfl
@[simp] theorem setSlu_chans (v : Nat) (x : Slu) : (m.setSlu v x).dp.chans = m.dp.chans := rfl
@[simp] theorem setSlu_voqs (v : Nat) (x : Slu) : (m.setSlu v x).dp.voqs = m.dp.voqs := rfl
@[simp] theorem setSlu_eddy (v : Nat) (x : Slu) : (m.setSlu v x).dp.eddy = m.dp.eddy := rfl
@[simp] theorem setSlu_pcs (v : Nat) (x : Slu) : (m.setSlu v x).dp.pcs = m.dp.pcs := rfl
@[simp] theorem setSlu_hch (v : Nat) (x : Slu) : (m.setSlu v x).dp.hch = m.dp.hch := rfl
@[simp] theorem setSlu_pools (v : Nat) (x : Slu) : (m.setSlu v x).dp.pools = m.dp.pools := rfl
@[simp] theorem setSlu_hpools (v : Nat) (x : Slu) : (m.setSlu v x).dp.hpools = m.dp.hpools := rfl
@[simp] theorem setSlu_cols (v : Nat) (x : Slu) : (m.setSlu v x).dp.cols = m.dp.cols := rfl
@[simp] theorem setSlu_eqs (v : Nat) (x : Slu) : (m.setSlu v x).dp.eqs = m.dp.eqs := rfl

@[simp] theorem setWay_pwr (k : Nat) (w : Option Way) : (m.setWay k w).pwr = m.pwr := rfl
@[simp] theorem setWay_trn (k : Nat) (w : Option Way) : (m.setWay k w).trn = m.trn := rfl
@[simp] theorem setWay_clk (k : Nat) (w : Option Way) : (m.setWay k w).clk = m.clk := rfl
@[simp] theorem setWay_tb (k : Nat) (w : Option Way) : (m.setWay k w).tb = m.tb := rfl
@[simp] theorem setWay_sec (k : Nat) (w : Option Way) : (m.setWay k w).sec = m.sec := rfl
@[simp] theorem setWay_dbg (k : Nat) (w : Option Way) : (m.setWay k w).dbg = m.dbg := rfl
@[simp] theorem setWay_flt (k : Nat) (w : Option Way) : (m.setWay k w).flt = m.flt := rfl
@[simp] theorem setWay_trm (k : Nat) (w : Option Way) : (m.setWay k w).trm = m.trm := rfl
@[simp] theorem setWay_com (k : Nat) (w : Option Way) : (m.setWay k w).com = m.com := rfl
@[simp] theorem setWay_pkts (k : Nat) (w : Option Way) : (m.setWay k w).dp.pkts = m.dp.pkts := rfl
@[simp] theorem setWay_rch (k : Nat) (w : Option Way) : (m.setWay k w).dp.rch = m.dp.rch := rfl
@[simp] theorem setWay_ports (k : Nat) (w : Option Way) : (m.setWay k w).dp.ports = m.dp.ports := rfl
@[simp] theorem setWay_bsn (k : Nat) (w : Option Way) : (m.setWay k w).dp.bsn = m.dp.bsn := rfl
@[simp] theorem setWay_chans (k : Nat) (w : Option Way) : (m.setWay k w).dp.chans = m.dp.chans := rfl
@[simp] theorem setWay_voqs (k : Nat) (w : Option Way) : (m.setWay k w).dp.voqs = m.dp.voqs := rfl
@[simp] theorem setWay_slu (k : Nat) (w : Option Way) : (m.setWay k w).dp.slu = m.dp.slu := rfl
@[simp] theorem setWay_pcs (k : Nat) (w : Option Way) : (m.setWay k w).dp.pcs = m.dp.pcs := rfl
@[simp] theorem setWay_hch (k : Nat) (w : Option Way) : (m.setWay k w).dp.hch = m.dp.hch := rfl
@[simp] theorem setWay_pools (k : Nat) (w : Option Way) : (m.setWay k w).dp.pools = m.dp.pools := rfl
@[simp] theorem setWay_hpools (k : Nat) (w : Option Way) : (m.setWay k w).dp.hpools = m.dp.hpools := rfl
@[simp] theorem setWay_cols (k : Nat) (w : Option Way) : (m.setWay k w).dp.cols = m.dp.cols := rfl
@[simp] theorem setWay_eqs (k : Nat) (w : Option Way) : (m.setWay k w).dp.eqs = m.dp.eqs := rfl

@[simp] theorem setPc_pwr (p : Nat) (x : Pc) : (m.setPc p x).pwr = m.pwr := rfl
@[simp] theorem setPc_trn (p : Nat) (x : Pc) : (m.setPc p x).trn = m.trn := rfl
@[simp] theorem setPc_clk (p : Nat) (x : Pc) : (m.setPc p x).clk = m.clk := rfl
@[simp] theorem setPc_tb (p : Nat) (x : Pc) : (m.setPc p x).tb = m.tb := rfl
@[simp] theorem setPc_sec (p : Nat) (x : Pc) : (m.setPc p x).sec = m.sec := rfl
@[simp] theorem setPc_dbg (p : Nat) (x : Pc) : (m.setPc p x).dbg = m.dbg := rfl
@[simp] theorem setPc_flt (p : Nat) (x : Pc) : (m.setPc p x).flt = m.flt := rfl
@[simp] theorem setPc_trm (p : Nat) (x : Pc) : (m.setPc p x).trm = m.trm := rfl
@[simp] theorem setPc_com (p : Nat) (x : Pc) : (m.setPc p x).com = m.com := rfl
@[simp] theorem setPc_pkts (p : Nat) (x : Pc) : (m.setPc p x).dp.pkts = m.dp.pkts := rfl
@[simp] theorem setPc_rch (p : Nat) (x : Pc) : (m.setPc p x).dp.rch = m.dp.rch := rfl
@[simp] theorem setPc_ports (p : Nat) (x : Pc) : (m.setPc p x).dp.ports = m.dp.ports := rfl
@[simp] theorem setPc_bsn (p : Nat) (x : Pc) : (m.setPc p x).dp.bsn = m.dp.bsn := rfl
@[simp] theorem setPc_chans (p : Nat) (x : Pc) : (m.setPc p x).dp.chans = m.dp.chans := rfl
@[simp] theorem setPc_voqs (p : Nat) (x : Pc) : (m.setPc p x).dp.voqs = m.dp.voqs := rfl
@[simp] theorem setPc_slu (p : Nat) (x : Pc) : (m.setPc p x).dp.slu = m.dp.slu := rfl
@[simp] theorem setPc_eddy (p : Nat) (x : Pc) : (m.setPc p x).dp.eddy = m.dp.eddy := rfl
@[simp] theorem setPc_hch (p : Nat) (x : Pc) : (m.setPc p x).dp.hch = m.dp.hch := rfl
@[simp] theorem setPc_pools (p : Nat) (x : Pc) : (m.setPc p x).dp.pools = m.dp.pools := rfl
@[simp] theorem setPc_hpools (p : Nat) (x : Pc) : (m.setPc p x).dp.hpools = m.dp.hpools := rfl
@[simp] theorem setPc_cols (p : Nat) (x : Pc) : (m.setPc p x).dp.cols = m.dp.cols := rfl
@[simp] theorem setPc_eqs (p : Nat) (x : Pc) : (m.setPc p x).dp.eqs = m.dp.eqs := rfl

@[simp] theorem setHchan_pwr (k : Nat) (x : HCh) : (m.setHchan k x).pwr = m.pwr := rfl
@[simp] theorem setHchan_trn (k : Nat) (x : HCh) : (m.setHchan k x).trn = m.trn := rfl
@[simp] theorem setHchan_clk (k : Nat) (x : HCh) : (m.setHchan k x).clk = m.clk := rfl
@[simp] theorem setHchan_tb (k : Nat) (x : HCh) : (m.setHchan k x).tb = m.tb := rfl
@[simp] theorem setHchan_sec (k : Nat) (x : HCh) : (m.setHchan k x).sec = m.sec := rfl
@[simp] theorem setHchan_dbg (k : Nat) (x : HCh) : (m.setHchan k x).dbg = m.dbg := rfl
@[simp] theorem setHchan_flt (k : Nat) (x : HCh) : (m.setHchan k x).flt = m.flt := rfl
@[simp] theorem setHchan_trm (k : Nat) (x : HCh) : (m.setHchan k x).trm = m.trm := rfl
@[simp] theorem setHchan_com (k : Nat) (x : HCh) : (m.setHchan k x).com = m.com := rfl
@[simp] theorem setHchan_pkts (k : Nat) (x : HCh) : (m.setHchan k x).dp.pkts = m.dp.pkts := rfl
@[simp] theorem setHchan_rch (k : Nat) (x : HCh) : (m.setHchan k x).dp.rch = m.dp.rch := rfl
@[simp] theorem setHchan_ports (k : Nat) (x : HCh) : (m.setHchan k x).dp.ports = m.dp.ports := rfl
@[simp] theorem setHchan_bsn (k : Nat) (x : HCh) : (m.setHchan k x).dp.bsn = m.dp.bsn := rfl
@[simp] theorem setHchan_chans (k : Nat) (x : HCh) : (m.setHchan k x).dp.chans = m.dp.chans := rfl
@[simp] theorem setHchan_voqs (k : Nat) (x : HCh) : (m.setHchan k x).dp.voqs = m.dp.voqs := rfl
@[simp] theorem setHchan_slu (k : Nat) (x : HCh) : (m.setHchan k x).dp.slu = m.dp.slu := rfl
@[simp] theorem setHchan_eddy (k : Nat) (x : HCh) : (m.setHchan k x).dp.eddy = m.dp.eddy := rfl
@[simp] theorem setHchan_pcs (k : Nat) (x : HCh) : (m.setHchan k x).dp.pcs = m.dp.pcs := rfl
@[simp] theorem setHchan_pools (k : Nat) (x : HCh) : (m.setHchan k x).dp.pools = m.dp.pools := rfl
@[simp] theorem setHchan_hpools (k : Nat) (x : HCh) : (m.setHchan k x).dp.hpools = m.dp.hpools := rfl
@[simp] theorem setHchan_cols (k : Nat) (x : HCh) : (m.setHchan k x).dp.cols = m.dp.cols := rfl
@[simp] theorem setHchan_eqs (k : Nat) (x : HCh) : (m.setHchan k x).dp.eqs = m.dp.eqs := rfl

@[simp] theorem setPool_pwr (r k : Nat) (p : PoolSt) : (m.setPool r k p).pwr = m.pwr := rfl
@[simp] theorem setPool_trn (r k : Nat) (p : PoolSt) : (m.setPool r k p).trn = m.trn := rfl
@[simp] theorem setPool_clk (r k : Nat) (p : PoolSt) : (m.setPool r k p).clk = m.clk := rfl
@[simp] theorem setPool_tb (r k : Nat) (p : PoolSt) : (m.setPool r k p).tb = m.tb := rfl
@[simp] theorem setPool_sec (r k : Nat) (p : PoolSt) : (m.setPool r k p).sec = m.sec := rfl
@[simp] theorem setPool_dbg (r k : Nat) (p : PoolSt) : (m.setPool r k p).dbg = m.dbg := rfl
@[simp] theorem setPool_flt (r k : Nat) (p : PoolSt) : (m.setPool r k p).flt = m.flt := rfl
@[simp] theorem setPool_trm (r k : Nat) (p : PoolSt) : (m.setPool r k p).trm = m.trm := rfl
@[simp] theorem setPool_com (r k : Nat) (p : PoolSt) : (m.setPool r k p).com = m.com := rfl
@[simp] theorem setPool_pkts (r k : Nat) (p : PoolSt) : (m.setPool r k p).dp.pkts = m.dp.pkts := rfl
@[simp] theorem setPool_rch (r k : Nat) (p : PoolSt) : (m.setPool r k p).dp.rch = m.dp.rch := rfl
@[simp] theorem setPool_ports (r k : Nat) (p : PoolSt) : (m.setPool r k p).dp.ports = m.dp.ports := rfl
@[simp] theorem setPool_bsn (r k : Nat) (p : PoolSt) : (m.setPool r k p).dp.bsn = m.dp.bsn := rfl
@[simp] theorem setPool_chans (r k : Nat) (p : PoolSt) : (m.setPool r k p).dp.chans = m.dp.chans := rfl
@[simp] theorem setPool_voqs (r k : Nat) (p : PoolSt) : (m.setPool r k p).dp.voqs = m.dp.voqs := rfl
@[simp] theorem setPool_slu (r k : Nat) (p : PoolSt) : (m.setPool r k p).dp.slu = m.dp.slu := rfl
@[simp] theorem setPool_eddy (r k : Nat) (p : PoolSt) : (m.setPool r k p).dp.eddy = m.dp.eddy := rfl
@[simp] theorem setPool_pcs (r k : Nat) (p : PoolSt) : (m.setPool r k p).dp.pcs = m.dp.pcs := rfl
@[simp] theorem setPool_hch (r k : Nat) (p : PoolSt) : (m.setPool r k p).dp.hch = m.dp.hch := rfl
@[simp] theorem setPool_hpools (r k : Nat) (p : PoolSt) : (m.setPool r k p).dp.hpools = m.dp.hpools := rfl
@[simp] theorem setPool_cols (r k : Nat) (p : PoolSt) : (m.setPool r k p).dp.cols = m.dp.cols := rfl
@[simp] theorem setPool_eqs (r k : Nat) (p : PoolSt) : (m.setPool r k p).dp.eqs = m.dp.eqs := rfl

@[simp] theorem setHpool_pwr (p : Nat) (x : HPool) : (m.setHpool p x).pwr = m.pwr := rfl
@[simp] theorem setHpool_trn (p : Nat) (x : HPool) : (m.setHpool p x).trn = m.trn := rfl
@[simp] theorem setHpool_clk (p : Nat) (x : HPool) : (m.setHpool p x).clk = m.clk := rfl
@[simp] theorem setHpool_tb (p : Nat) (x : HPool) : (m.setHpool p x).tb = m.tb := rfl
@[simp] theorem setHpool_sec (p : Nat) (x : HPool) : (m.setHpool p x).sec = m.sec := rfl
@[simp] theorem setHpool_dbg (p : Nat) (x : HPool) : (m.setHpool p x).dbg = m.dbg := rfl
@[simp] theorem setHpool_flt (p : Nat) (x : HPool) : (m.setHpool p x).flt = m.flt := rfl
@[simp] theorem setHpool_trm (p : Nat) (x : HPool) : (m.setHpool p x).trm = m.trm := rfl
@[simp] theorem setHpool_com (p : Nat) (x : HPool) : (m.setHpool p x).com = m.com := rfl
@[simp] theorem setHpool_pkts (p : Nat) (x : HPool) : (m.setHpool p x).dp.pkts = m.dp.pkts := rfl
@[simp] theorem setHpool_rch (p : Nat) (x : HPool) : (m.setHpool p x).dp.rch = m.dp.rch := rfl
@[simp] theorem setHpool_ports (p : Nat) (x : HPool) : (m.setHpool p x).dp.ports = m.dp.ports := rfl
@[simp] theorem setHpool_bsn (p : Nat) (x : HPool) : (m.setHpool p x).dp.bsn = m.dp.bsn := rfl
@[simp] theorem setHpool_chans (p : Nat) (x : HPool) : (m.setHpool p x).dp.chans = m.dp.chans := rfl
@[simp] theorem setHpool_voqs (p : Nat) (x : HPool) : (m.setHpool p x).dp.voqs = m.dp.voqs := rfl
@[simp] theorem setHpool_slu (p : Nat) (x : HPool) : (m.setHpool p x).dp.slu = m.dp.slu := rfl
@[simp] theorem setHpool_eddy (p : Nat) (x : HPool) : (m.setHpool p x).dp.eddy = m.dp.eddy := rfl
@[simp] theorem setHpool_pcs (p : Nat) (x : HPool) : (m.setHpool p x).dp.pcs = m.dp.pcs := rfl
@[simp] theorem setHpool_hch (p : Nat) (x : HPool) : (m.setHpool p x).dp.hch = m.dp.hch := rfl
@[simp] theorem setHpool_pools (p : Nat) (x : HPool) : (m.setHpool p x).dp.pools = m.dp.pools := rfl
@[simp] theorem setHpool_cols (p : Nat) (x : HPool) : (m.setHpool p x).dp.cols = m.dp.cols := rfl
@[simp] theorem setHpool_eqs (p : Nat) (x : HPool) : (m.setHpool p x).dp.eqs = m.dp.eqs := rfl

@[simp] theorem setCol_pwr (k : Nat) (x : Col) : (m.setCol k x).pwr = m.pwr := rfl
@[simp] theorem setCol_trn (k : Nat) (x : Col) : (m.setCol k x).trn = m.trn := rfl
@[simp] theorem setCol_clk (k : Nat) (x : Col) : (m.setCol k x).clk = m.clk := rfl
@[simp] theorem setCol_tb (k : Nat) (x : Col) : (m.setCol k x).tb = m.tb := rfl
@[simp] theorem setCol_sec (k : Nat) (x : Col) : (m.setCol k x).sec = m.sec := rfl
@[simp] theorem setCol_dbg (k : Nat) (x : Col) : (m.setCol k x).dbg = m.dbg := rfl
@[simp] theorem setCol_flt (k : Nat) (x : Col) : (m.setCol k x).flt = m.flt := rfl
@[simp] theorem setCol_trm (k : Nat) (x : Col) : (m.setCol k x).trm = m.trm := rfl
@[simp] theorem setCol_com (k : Nat) (x : Col) : (m.setCol k x).com = m.com := rfl
@[simp] theorem setCol_pkts (k : Nat) (x : Col) : (m.setCol k x).dp.pkts = m.dp.pkts := rfl
@[simp] theorem setCol_rch (k : Nat) (x : Col) : (m.setCol k x).dp.rch = m.dp.rch := rfl
@[simp] theorem setCol_ports (k : Nat) (x : Col) : (m.setCol k x).dp.ports = m.dp.ports := rfl
@[simp] theorem setCol_bsn (k : Nat) (x : Col) : (m.setCol k x).dp.bsn = m.dp.bsn := rfl
@[simp] theorem setCol_chans (k : Nat) (x : Col) : (m.setCol k x).dp.chans = m.dp.chans := rfl
@[simp] theorem setCol_voqs (k : Nat) (x : Col) : (m.setCol k x).dp.voqs = m.dp.voqs := rfl
@[simp] theorem setCol_slu (k : Nat) (x : Col) : (m.setCol k x).dp.slu = m.dp.slu := rfl
@[simp] theorem setCol_eddy (k : Nat) (x : Col) : (m.setCol k x).dp.eddy = m.dp.eddy := rfl
@[simp] theorem setCol_pcs (k : Nat) (x : Col) : (m.setCol k x).dp.pcs = m.dp.pcs := rfl
@[simp] theorem setCol_hch (k : Nat) (x : Col) : (m.setCol k x).dp.hch = m.dp.hch := rfl
@[simp] theorem setCol_pools (k : Nat) (x : Col) : (m.setCol k x).dp.pools = m.dp.pools := rfl
@[simp] theorem setCol_hpools (k : Nat) (x : Col) : (m.setCol k x).dp.hpools = m.dp.hpools := rfl
@[simp] theorem setCol_eqs (k : Nat) (x : Col) : (m.setCol k x).dp.eqs = m.dp.eqs := rfl

@[simp] theorem setEq_pwr (q : Nat) (l : List Copy) : (m.setEq q l).pwr = m.pwr := rfl
@[simp] theorem setEq_trn (q : Nat) (l : List Copy) : (m.setEq q l).trn = m.trn := rfl
@[simp] theorem setEq_clk (q : Nat) (l : List Copy) : (m.setEq q l).clk = m.clk := rfl
@[simp] theorem setEq_tb (q : Nat) (l : List Copy) : (m.setEq q l).tb = m.tb := rfl
@[simp] theorem setEq_sec (q : Nat) (l : List Copy) : (m.setEq q l).sec = m.sec := rfl
@[simp] theorem setEq_dbg (q : Nat) (l : List Copy) : (m.setEq q l).dbg = m.dbg := rfl
@[simp] theorem setEq_flt (q : Nat) (l : List Copy) : (m.setEq q l).flt = m.flt := rfl
@[simp] theorem setEq_trm (q : Nat) (l : List Copy) : (m.setEq q l).trm = m.trm := rfl
@[simp] theorem setEq_com (q : Nat) (l : List Copy) : (m.setEq q l).com = m.com := rfl
@[simp] theorem setEq_pkts (q : Nat) (l : List Copy) : (m.setEq q l).dp.pkts = m.dp.pkts := rfl
@[simp] theorem setEq_rch (q : Nat) (l : List Copy) : (m.setEq q l).dp.rch = m.dp.rch := rfl
@[simp] theorem setEq_ports (q : Nat) (l : List Copy) : (m.setEq q l).dp.ports = m.dp.ports := rfl
@[simp] theorem setEq_bsn (q : Nat) (l : List Copy) : (m.setEq q l).dp.bsn = m.dp.bsn := rfl
@[simp] theorem setEq_chans (q : Nat) (l : List Copy) : (m.setEq q l).dp.chans = m.dp.chans := rfl
@[simp] theorem setEq_voqs (q : Nat) (l : List Copy) : (m.setEq q l).dp.voqs = m.dp.voqs := rfl
@[simp] theorem setEq_slu (q : Nat) (l : List Copy) : (m.setEq q l).dp.slu = m.dp.slu := rfl
@[simp] theorem setEq_eddy (q : Nat) (l : List Copy) : (m.setEq q l).dp.eddy = m.dp.eddy := rfl
@[simp] theorem setEq_pcs (q : Nat) (l : List Copy) : (m.setEq q l).dp.pcs = m.dp.pcs := rfl
@[simp] theorem setEq_hch (q : Nat) (l : List Copy) : (m.setEq q l).dp.hch = m.dp.hch := rfl
@[simp] theorem setEq_pools (q : Nat) (l : List Copy) : (m.setEq q l).dp.pools = m.dp.pools := rfl
@[simp] theorem setEq_hpools (q : Nat) (l : List Copy) : (m.setEq q l).dp.hpools = m.dp.hpools := rfl
@[simp] theorem setEq_cols (q : Nat) (l : List Copy) : (m.setEq q l).dp.cols = m.dp.cols := rfl

@[simp] theorem wr_ent (o : ObjDef) (i v : Nat) (oo : ObjDef) (jj ee : Nat) : (m.wr o i v).ent oo jj ee = m.ent oo jj ee := rfl
@[simp] theorem wr_fn (o : ObjDef) (i v : Nat) (gg : Nat) : (m.wr o i v).fn gg = m.fn gg := rfl
@[simp] theorem wr_fst (o : ObjDef) (i v : Nat) (gg : Nat) : (m.wr o i v).fst gg = m.fst gg := rfl
@[simp] theorem wr_ns (o : ObjDef) (i v : Nat) : (m.wr o i v).ns = m.ns := rfl
@[simp] theorem wr_now (o : ObjDef) (i v : Nat) : (m.wr o i v).now = m.now := rfl
@[simp] theorem wr_pendOf (o : ObjDef) (i v : Nat) (oo : ObjDef) (jj : Nat) : (m.wr o i v).pendOf oo jj = m.pendOf oo jj := rfl
@[simp] theorem wr_avs (o : ObjDef) (i v : Nat) (h : Nat) : (m.wr o i v).avs h = m.avs h := rfl
@[simp] theorem wr_cont (o : ObjDef) (i v : Nat) (h : Nat) : (m.wr o i v).cont h = m.cont h := rfl
@[simp] theorem wr_slot (o : ObjDef) (i v : Nat) (h : Nat) : (m.wr o i v).slot h = m.slot h := rfl
@[simp] theorem bump_ent (o : ObjDef) (i n : Nat) (oo : ObjDef) (jj ee : Nat) : (m.bump o i n).ent oo jj ee = m.ent oo jj ee := rfl
@[simp] theorem bump_fn (o : ObjDef) (i n : Nat) (gg : Nat) : (m.bump o i n).fn gg = m.fn gg := rfl
@[simp] theorem bump_fst (o : ObjDef) (i n : Nat) (gg : Nat) : (m.bump o i n).fst gg = m.fst gg := rfl
@[simp] theorem bump_ns (o : ObjDef) (i n : Nat) : (m.bump o i n).ns = m.ns := rfl
@[simp] theorem bump_now (o : ObjDef) (i n : Nat) : (m.bump o i n).now = m.now := rfl
@[simp] theorem bump_pendOf (o : ObjDef) (i n : Nat) (oo : ObjDef) (jj : Nat) : (m.bump o i n).pendOf oo jj = m.pendOf oo jj := rfl
@[simp] theorem bump_avs (o : ObjDef) (i n : Nat) (h : Nat) : (m.bump o i n).avs h = m.avs h := rfl
@[simp] theorem bump_cont (o : ObjDef) (i n : Nat) (h : Nat) : (m.bump o i n).cont h = m.cont h := rfl
@[simp] theorem bump_slot (o : ObjDef) (i n : Nat) (h : Nat) : (m.bump o i n).slot h = m.slot h := rfl
@[simp] theorem lower_ent (o : ObjDef) (i n : Nat) (oo : ObjDef) (jj ee : Nat) : (m.lower o i n).ent oo jj ee = m.ent oo jj ee := rfl
@[simp] theorem lower_fn (o : ObjDef) (i n : Nat) (gg : Nat) : (m.lower o i n).fn gg = m.fn gg := rfl
@[simp] theorem lower_fst (o : ObjDef) (i n : Nat) (gg : Nat) : (m.lower o i n).fst gg = m.fst gg := rfl
@[simp] theorem lower_ns (o : ObjDef) (i n : Nat) : (m.lower o i n).ns = m.ns := rfl
@[simp] theorem lower_now (o : ObjDef) (i n : Nat) : (m.lower o i n).now = m.now := rfl
@[simp] theorem lower_pendOf (o : ObjDef) (i n : Nat) (oo : ObjDef) (jj : Nat) : (m.lower o i n).pendOf oo jj = m.pendOf oo jj := rfl
@[simp] theorem lower_avs (o : ObjDef) (i n : Nat) (h : Nat) : (m.lower o i n).avs h = m.avs h := rfl
@[simp] theorem lower_cont (o : ObjDef) (i n : Nat) (h : Nat) : (m.lower o i n).cont h = m.cont h := rfl
@[simp] theorem lower_slot (o : ObjDef) (i n : Nat) (h : Nat) : (m.lower o i n).slot h = m.slot h := rfl
@[simp] theorem peak_ent (o : ObjDef) (i v : Nat) (oo : ObjDef) (jj ee : Nat) : (m.peak o i v).ent oo jj ee = m.ent oo jj ee := by
  unfold Mach.peak
  split <;> rfl
@[simp] theorem peak_fn (o : ObjDef) (i v : Nat) (gg : Nat) : (m.peak o i v).fn gg = m.fn gg := by
  unfold Mach.peak
  split <;> rfl
@[simp] theorem peak_fst (o : ObjDef) (i v : Nat) (gg : Nat) : (m.peak o i v).fst gg = m.fst gg := by
  unfold Mach.peak
  split <;> rfl
@[simp] theorem peak_ns (o : ObjDef) (i v : Nat) : (m.peak o i v).ns = m.ns := by
  unfold Mach.peak
  split <;> rfl
@[simp] theorem peak_now (o : ObjDef) (i v : Nat) : (m.peak o i v).now = m.now := by
  unfold Mach.peak
  split <;> rfl
@[simp] theorem peak_pendOf (o : ObjDef) (i v : Nat) (oo : ObjDef) (jj : Nat) : (m.peak o i v).pendOf oo jj = m.pendOf oo jj := by
  unfold Mach.peak
  split <;> rfl
@[simp] theorem peak_avs (o : ObjDef) (i v : Nat) (h : Nat) : (m.peak o i v).avs h = m.avs h := by
  unfold Mach.peak
  split <;> rfl
@[simp] theorem peak_cont (o : ObjDef) (i v : Nat) (h : Nat) : (m.peak o i v).cont h = m.cont h := by
  unfold Mach.peak
  split <;> rfl
@[simp] theorem peak_slot (o : ObjDef) (i v : Nat) (h : Nat) : (m.peak o i v).slot h = m.slot h := by
  unfold Mach.peak
  split <;> rfl
@[simp] theorem setEnt_rd (o : ObjDef) (i idx v : Nat) (oo : ObjDef) (jj : Nat) : (m.setEnt o i idx v).rd oo jj = m.rd oo jj := rfl
@[simp] theorem setEnt_rdB (o : ObjDef) (i idx v : Nat) (oo : ObjDef) (jj : Nat) : (m.setEnt o i idx v).rdB oo jj = m.rdB oo jj := rfl
@[simp] theorem setEnt_fn (o : ObjDef) (i idx v : Nat) (gg : Nat) : (m.setEnt o i idx v).fn gg = m.fn gg := rfl
@[simp] theorem setEnt_fst (o : ObjDef) (i idx v : Nat) (gg : Nat) : (m.setEnt o i idx v).fst gg = m.fst gg := rfl
@[simp] theorem setEnt_ns (o : ObjDef) (i idx v : Nat) : (m.setEnt o i idx v).ns = m.ns := rfl
@[simp] theorem setEnt_now (o : ObjDef) (i idx v : Nat) : (m.setEnt o i idx v).now = m.now := rfl
@[simp] theorem setEnt_pendOf (o : ObjDef) (i idx v : Nat) (oo : ObjDef) (jj : Nat) : (m.setEnt o i idx v).pendOf oo jj = m.pendOf oo jj := rfl
@[simp] theorem setEnt_avs (o : ObjDef) (i idx v : Nat) (h : Nat) : (m.setEnt o i idx v).avs h = m.avs h := rfl
@[simp] theorem setEnt_cont (o : ObjDef) (i idx v : Nat) (h : Nat) : (m.setEnt o i idx v).cont h = m.cont h := rfl
@[simp] theorem setEnt_slot (o : ObjDef) (i idx v : Nat) (h : Nat) : (m.setEnt o i idx v).slot h = m.slot h := rfl
@[simp] theorem setEnt_sesEn (o : ObjDef) (i idx v : Nat) (h : Nat) : (m.setEnt o i idx v).sesEn h = m.sesEn h := rfl
@[simp] theorem setEnt_sesOn (o : ObjDef) (i idx v : Nat) (h : Nat) : (m.setEnt o i idx v).sesOn h = m.sesOn h := rfl
@[simp] theorem bumpF_rd (o : ObjDef) (i idx off n b : Nat) (oo : ObjDef) (jj : Nat) : (m.bumpF o i idx off n b).rd oo jj = m.rd oo jj := rfl
@[simp] theorem bumpF_rdB (o : ObjDef) (i idx off n b : Nat) (oo : ObjDef) (jj : Nat) : (m.bumpF o i idx off n b).rdB oo jj = m.rdB oo jj := rfl
@[simp] theorem bumpF_fn (o : ObjDef) (i idx off n b : Nat) (gg : Nat) : (m.bumpF o i idx off n b).fn gg = m.fn gg := rfl
@[simp] theorem bumpF_fst (o : ObjDef) (i idx off n b : Nat) (gg : Nat) : (m.bumpF o i idx off n b).fst gg = m.fst gg := rfl
@[simp] theorem bumpF_ns (o : ObjDef) (i idx off n b : Nat) : (m.bumpF o i idx off n b).ns = m.ns := rfl
@[simp] theorem bumpF_now (o : ObjDef) (i idx off n b : Nat) : (m.bumpF o i idx off n b).now = m.now := rfl
@[simp] theorem bumpF_pendOf (o : ObjDef) (i idx off n b : Nat) (oo : ObjDef) (jj : Nat) : (m.bumpF o i idx off n b).pendOf oo jj = m.pendOf oo jj := rfl
@[simp] theorem bumpF_avs (o : ObjDef) (i idx off n b : Nat) (h : Nat) : (m.bumpF o i idx off n b).avs h = m.avs h := rfl
@[simp] theorem bumpF_cont (o : ObjDef) (i idx off n b : Nat) (h : Nat) : (m.bumpF o i idx off n b).cont h = m.cont h := rfl
@[simp] theorem bumpF_slot (o : ObjDef) (i idx off n b : Nat) (h : Nat) : (m.bumpF o i idx off n b).slot h = m.slot h := rfl
@[simp] theorem bumpF_sesEn (o : ObjDef) (i idx off n b : Nat) (h : Nat) : (m.bumpF o i idx off n b).sesEn h = m.sesEn h := rfl
@[simp] theorem bumpF_sesOn (o : ObjDef) (i idx off n b : Nat) (h : Nat) : (m.bumpF o i idx off n b).sesOn h = m.sesOn h := rfl
@[simp] theorem st_rd (r : Status) (oo : ObjDef) (jj : Nat) : (m.st r).rd oo jj = m.rd oo jj := rfl
@[simp] theorem st_rdB (r : Status) (oo : ObjDef) (jj : Nat) : (m.st r).rdB oo jj = m.rdB oo jj := rfl
@[simp] theorem st_ent (r : Status) (oo : ObjDef) (jj ee : Nat) : (m.st r).ent oo jj ee = m.ent oo jj ee := rfl
@[simp] theorem st_fn (r : Status) (gg : Nat) : (m.st r).fn gg = m.fn gg := rfl
@[simp] theorem st_fst (r : Status) (gg : Nat) : (m.st r).fst gg = m.fst gg := rfl
@[simp] theorem st_ns (r : Status) : (m.st r).ns = m.ns := rfl
@[simp] theorem st_now (r : Status) : (m.st r).now = m.now := rfl
@[simp] theorem st_pendOf (r : Status) (oo : ObjDef) (jj : Nat) : (m.st r).pendOf oo jj = m.pendOf oo jj := rfl
@[simp] theorem st_avs (r : Status) (h : Nat) : (m.st r).avs h = m.avs h := rfl
@[simp] theorem st_cont (r : Status) (h : Nat) : (m.st r).cont h = m.cont h := rfl
@[simp] theorem st_slot (r : Status) (h : Nat) : (m.st r).slot h = m.slot h := rfl
@[simp] theorem st_sesEn (r : Status) (h : Nat) : (m.st r).sesEn h = m.sesEn h := rfl
@[simp] theorem st_sesOn (r : Status) (h : Nat) : (m.st r).sesOn h = m.sesOn h := rfl
@[simp] theorem val_rd (v : Nat) (oo : ObjDef) (jj : Nat) : (m.val v).rd oo jj = m.rd oo jj := rfl
@[simp] theorem val_rdB (v : Nat) (oo : ObjDef) (jj : Nat) : (m.val v).rdB oo jj = m.rdB oo jj := rfl
@[simp] theorem val_ent (v : Nat) (oo : ObjDef) (jj ee : Nat) : (m.val v).ent oo jj ee = m.ent oo jj ee := rfl
@[simp] theorem val_fn (v : Nat) (gg : Nat) : (m.val v).fn gg = m.fn gg := rfl
@[simp] theorem val_fst (v : Nat) (gg : Nat) : (m.val v).fst gg = m.fst gg := rfl
@[simp] theorem val_ns (v : Nat) : (m.val v).ns = m.ns := rfl
@[simp] theorem val_now (v : Nat) : (m.val v).now = m.now := rfl
@[simp] theorem val_pendOf (v : Nat) (oo : ObjDef) (jj : Nat) : (m.val v).pendOf oo jj = m.pendOf oo jj := rfl
@[simp] theorem val_avs (v : Nat) (h : Nat) : (m.val v).avs h = m.avs h := rfl
@[simp] theorem val_cont (v : Nat) (h : Nat) : (m.val v).cont h = m.cont h := rfl
@[simp] theorem val_slot (v : Nat) (h : Nat) : (m.val v).slot h = m.slot h := rfl
@[simp] theorem val_sesEn (v : Nat) (h : Nat) : (m.val v).sesEn h = m.sesEn h := rfl
@[simp] theorem val_sesOn (v : Nat) (h : Nat) : (m.val v).sesOn h = m.sesOn h := rfl
@[simp] theorem emit_rd (x : Out) (oo : ObjDef) (jj : Nat) : (m.emit x).rd oo jj = m.rd oo jj := by
  unfold Mach.emit
  split <;> rfl
@[simp] theorem emit_rdB (x : Out) (oo : ObjDef) (jj : Nat) : (m.emit x).rdB oo jj = m.rdB oo jj := by
  unfold Mach.emit
  split <;> rfl
@[simp] theorem emit_ent (x : Out) (oo : ObjDef) (jj ee : Nat) : (m.emit x).ent oo jj ee = m.ent oo jj ee := by
  unfold Mach.emit
  split <;> rfl
@[simp] theorem emit_fn (x : Out) (gg : Nat) : (m.emit x).fn gg = m.fn gg := by
  unfold Mach.emit
  split <;> rfl
@[simp] theorem emit_fst (x : Out) (gg : Nat) : (m.emit x).fst gg = m.fst gg := by
  unfold Mach.emit
  split <;> rfl
@[simp] theorem emit_ns (x : Out) : (m.emit x).ns = m.ns := by
  unfold Mach.emit
  split <;> rfl
@[simp] theorem emit_now (x : Out) : (m.emit x).now = m.now := by
  unfold Mach.emit
  split <;> rfl
@[simp] theorem emit_pendOf (x : Out) (oo : ObjDef) (jj : Nat) : (m.emit x).pendOf oo jj = m.pendOf oo jj := by
  unfold Mach.emit
  split <;> rfl
@[simp] theorem emit_avs (x : Out) (h : Nat) : (m.emit x).avs h = m.avs h := by
  unfold Mach.emit
  split <;> rfl
@[simp] theorem emit_cont (x : Out) (h : Nat) : (m.emit x).cont h = m.cont h := by
  unfold Mach.emit
  split <;> rfl
@[simp] theorem emit_slot (x : Out) (h : Nat) : (m.emit x).slot h = m.slot h := by
  unfold Mach.emit
  split <;> rfl
@[simp] theorem emit_sesEn (x : Out) (h : Nat) : (m.emit x).sesEn h = m.sesEn h := by
  unfold Mach.emit
  split <;> rfl
@[simp] theorem emit_sesOn (x : Out) (h : Nat) : (m.emit x).sesOn h = m.sesOn h := by
  unfold Mach.emit
  split <;> rfl
@[simp] theorem freed_rd  (oo : ObjDef) (jj : Nat) : (m.freed).rd oo jj = m.rd oo jj := rfl
@[simp] theorem freed_rdB  (oo : ObjDef) (jj : Nat) : (m.freed).rdB oo jj = m.rdB oo jj := rfl
@[simp] theorem freed_ent  (oo : ObjDef) (jj ee : Nat) : (m.freed).ent oo jj ee = m.ent oo jj ee := rfl
@[simp] theorem freed_fn  (gg : Nat) : (m.freed).fn gg = m.fn gg := rfl
@[simp] theorem freed_fst  (gg : Nat) : (m.freed).fst gg = m.fst gg := rfl
@[simp] theorem freed_ns : (m.freed).ns = m.ns := rfl
@[simp] theorem freed_now : (m.freed).now = m.now := rfl
@[simp] theorem freed_pendOf  (oo : ObjDef) (jj : Nat) : (m.freed).pendOf oo jj = m.pendOf oo jj := rfl
@[simp] theorem freed_avs  (h : Nat) : (m.freed).avs h = m.avs h := rfl
@[simp] theorem freed_cont  (h : Nat) : (m.freed).cont h = m.cont h := rfl
@[simp] theorem freed_slot  (h : Nat) : (m.freed).slot h = m.slot h := rfl
@[simp] theorem freed_sesEn  (h : Nat) : (m.freed).sesEn h = m.sesEn h := rfl
@[simp] theorem freed_sesOn  (h : Nat) : (m.freed).sesOn h = m.sesOn h := rfl
@[simp] theorem reach_rd (t : Nat) (oo : ObjDef) (jj : Nat) : (m.reach t).rd oo jj = m.rd oo jj := rfl
@[simp] theorem reach_rdB (t : Nat) (oo : ObjDef) (jj : Nat) : (m.reach t).rdB oo jj = m.rdB oo jj := rfl
@[simp] theorem reach_ent (t : Nat) (oo : ObjDef) (jj ee : Nat) : (m.reach t).ent oo jj ee = m.ent oo jj ee := rfl
@[simp] theorem reach_fn (t : Nat) (gg : Nat) : (m.reach t).fn gg = m.fn gg := rfl
@[simp] theorem reach_fst (t : Nat) (gg : Nat) : (m.reach t).fst gg = m.fst gg := rfl
@[simp] theorem reach_pendOf (t : Nat) (oo : ObjDef) (jj : Nat) : (m.reach t).pendOf oo jj = m.pendOf oo jj := rfl
@[simp] theorem reach_avs (t : Nat) (h : Nat) : (m.reach t).avs h = m.avs h := rfl
@[simp] theorem reach_cont (t : Nat) (h : Nat) : (m.reach t).cont h = m.cont h := rfl
@[simp] theorem reach_slot (t : Nat) (h : Nat) : (m.reach t).slot h = m.slot h := rfl
@[simp] theorem reach_sesEn (t : Nat) (h : Nat) : (m.reach t).sesEn h = m.sesEn h := rfl
@[simp] theorem reach_sesOn (t : Nat) (h : Nat) : (m.reach t).sesOn h = m.sesOn h := rfl
@[simp] theorem setFn_rd (f : Nat) (r : FnRec) (oo : ObjDef) (jj : Nat) : (m.setFn f r).rd oo jj = m.rd oo jj := rfl
@[simp] theorem setFn_rdB (f : Nat) (r : FnRec) (oo : ObjDef) (jj : Nat) : (m.setFn f r).rdB oo jj = m.rdB oo jj := rfl
@[simp] theorem setFn_ent (f : Nat) (r : FnRec) (oo : ObjDef) (jj ee : Nat) : (m.setFn f r).ent oo jj ee = m.ent oo jj ee := rfl
@[simp] theorem setFn_ns (f : Nat) (r : FnRec) : (m.setFn f r).ns = m.ns := rfl
@[simp] theorem setFn_now (f : Nat) (r : FnRec) : (m.setFn f r).now = m.now := rfl
@[simp] theorem setFn_pendOf (f : Nat) (r : FnRec) (oo : ObjDef) (jj : Nat) : (m.setFn f r).pendOf oo jj = m.pendOf oo jj := rfl
@[simp] theorem setFn_avs (f : Nat) (r : FnRec) (h : Nat) : (m.setFn f r).avs h = m.avs h := rfl
@[simp] theorem setFn_cont (f : Nat) (r : FnRec) (h : Nat) : (m.setFn f r).cont h = m.cont h := rfl
@[simp] theorem setFn_slot (f : Nat) (r : FnRec) (h : Nat) : (m.setFn f r).slot h = m.slot h := rfl
@[simp] theorem setFn_sesEn (f : Nat) (r : FnRec) (h : Nat) : (m.setFn f r).sesEn h = m.sesEn h := rfl
@[simp] theorem setFn_sesOn (f : Nat) (r : FnRec) (h : Nat) : (m.setFn f r).sesOn h = m.sesOn h := rfl
@[simp] theorem met_rd (f : Nat) (oo : ObjDef) (jj : Nat) : (m.met f).rd oo jj = m.rd oo jj := rfl
@[simp] theorem met_rdB (f : Nat) (oo : ObjDef) (jj : Nat) : (m.met f).rdB oo jj = m.rdB oo jj := rfl
@[simp] theorem met_ent (f : Nat) (oo : ObjDef) (jj ee : Nat) : (m.met f).ent oo jj ee = m.ent oo jj ee := rfl
@[simp] theorem met_ns (f : Nat) : (m.met f).ns = m.ns := rfl
@[simp] theorem met_now (f : Nat) : (m.met f).now = m.now := rfl
@[simp] theorem met_pendOf (f : Nat) (oo : ObjDef) (jj : Nat) : (m.met f).pendOf oo jj = m.pendOf oo jj := rfl
@[simp] theorem met_avs (f : Nat) (h : Nat) : (m.met f).avs h = m.avs h := rfl
@[simp] theorem met_cont (f : Nat) (h : Nat) : (m.met f).cont h = m.cont h := rfl
@[simp] theorem met_slot (f : Nat) (h : Nat) : (m.met f).slot h = m.slot h := rfl
@[simp] theorem met_sesEn (f : Nat) (h : Nat) : (m.met f).sesEn h = m.sesEn h := rfl
@[simp] theorem met_sesOn (f : Nat) (h : Nat) : (m.met f).sesOn h = m.sesOn h := rfl
@[simp] theorem setPend_rd (o : ObjDef) (i : Nat) (v : Option Nat) (oo : ObjDef) (jj : Nat) : (m.setPend o i v).rd oo jj = m.rd oo jj := rfl
@[simp] theorem setPend_rdB (o : ObjDef) (i : Nat) (v : Option Nat) (oo : ObjDef) (jj : Nat) : (m.setPend o i v).rdB oo jj = m.rdB oo jj := rfl
@[simp] theorem setPend_ent (o : ObjDef) (i : Nat) (v : Option Nat) (oo : ObjDef) (jj ee : Nat) : (m.setPend o i v).ent oo jj ee = m.ent oo jj ee := rfl
@[simp] theorem setPend_fn (o : ObjDef) (i : Nat) (v : Option Nat) (gg : Nat) : (m.setPend o i v).fn gg = m.fn gg := rfl
@[simp] theorem setPend_fst (o : ObjDef) (i : Nat) (v : Option Nat) (gg : Nat) : (m.setPend o i v).fst gg = m.fst gg := rfl
@[simp] theorem setPend_ns (o : ObjDef) (i : Nat) (v : Option Nat) : (m.setPend o i v).ns = m.ns := rfl
@[simp] theorem setPend_now (o : ObjDef) (i : Nat) (v : Option Nat) : (m.setPend o i v).now = m.now := rfl
@[simp] theorem setPend_avs (o : ObjDef) (i : Nat) (v : Option Nat) (h : Nat) : (m.setPend o i v).avs h = m.avs h := rfl
@[simp] theorem setPend_cont (o : ObjDef) (i : Nat) (v : Option Nat) (h : Nat) : (m.setPend o i v).cont h = m.cont h := rfl
@[simp] theorem setPend_slot (o : ObjDef) (i : Nat) (v : Option Nat) (h : Nat) : (m.setPend o i v).slot h = m.slot h := rfl
@[simp] theorem setPend_sesEn (o : ObjDef) (i : Nat) (v : Option Nat) (h : Nat) : (m.setPend o i v).sesEn h = m.sesEn h := rfl
@[simp] theorem setPend_sesOn (o : ObjDef) (i : Nat) (v : Option Nat) (h : Nat) : (m.setPend o i v).sesOn h = m.sesOn h := rfl
@[simp] theorem setPendEnt_rd (o : ObjDef) (i idx : Nat) (v : Option Nat) (oo : ObjDef) (jj : Nat) : (m.setPendEnt o i idx v).rd oo jj = m.rd oo jj := rfl
@[simp] theorem setPendEnt_rdB (o : ObjDef) (i idx : Nat) (v : Option Nat) (oo : ObjDef) (jj : Nat) : (m.setPendEnt o i idx v).rdB oo jj = m.rdB oo jj := rfl
@[simp] theorem setPendEnt_ent (o : ObjDef) (i idx : Nat) (v : Option Nat) (oo : ObjDef) (jj ee : Nat) : (m.setPendEnt o i idx v).ent oo jj ee = m.ent oo jj ee := rfl
@[simp] theorem setPendEnt_fn (o : ObjDef) (i idx : Nat) (v : Option Nat) (gg : Nat) : (m.setPendEnt o i idx v).fn gg = m.fn gg := rfl
@[simp] theorem setPendEnt_fst (o : ObjDef) (i idx : Nat) (v : Option Nat) (gg : Nat) : (m.setPendEnt o i idx v).fst gg = m.fst gg := rfl
@[simp] theorem setPendEnt_ns (o : ObjDef) (i idx : Nat) (v : Option Nat) : (m.setPendEnt o i idx v).ns = m.ns := rfl
@[simp] theorem setPendEnt_now (o : ObjDef) (i idx : Nat) (v : Option Nat) : (m.setPendEnt o i idx v).now = m.now := rfl
@[simp] theorem setPendEnt_avs (o : ObjDef) (i idx : Nat) (v : Option Nat) (h : Nat) : (m.setPendEnt o i idx v).avs h = m.avs h := rfl
@[simp] theorem setPendEnt_cont (o : ObjDef) (i idx : Nat) (v : Option Nat) (h : Nat) : (m.setPendEnt o i idx v).cont h = m.cont h := rfl
@[simp] theorem setPendEnt_slot (o : ObjDef) (i idx : Nat) (v : Option Nat) (h : Nat) : (m.setPendEnt o i idx v).slot h = m.slot h := rfl
@[simp] theorem setPendEnt_sesEn (o : ObjDef) (i idx : Nat) (v : Option Nat) (h : Nat) : (m.setPendEnt o i idx v).sesEn h = m.sesEn h := rfl
@[simp] theorem setPendEnt_sesOn (o : ObjDef) (i idx : Nat) (v : Option Nat) (h : Nat) : (m.setPendEnt o i idx v).sesOn h = m.sesOn h := rfl
@[simp] theorem adt_rd (i n : Nat) (oo : ObjDef) (jj : Nat) : (m.adt i n).rd oo jj = m.rd oo jj := rfl
@[simp] theorem adt_rdB (i n : Nat) (oo : ObjDef) (jj : Nat) : (m.adt i n).rdB oo jj = m.rdB oo jj := rfl
@[simp] theorem adt_ent (i n : Nat) (oo : ObjDef) (jj ee : Nat) : (m.adt i n).ent oo jj ee = m.ent oo jj ee := rfl
@[simp] theorem adt_fn (i n : Nat) (gg : Nat) : (m.adt i n).fn gg = m.fn gg := rfl
@[simp] theorem adt_fst (i n : Nat) (gg : Nat) : (m.adt i n).fst gg = m.fst gg := rfl
@[simp] theorem adt_ns (i n : Nat) : (m.adt i n).ns = m.ns := rfl
@[simp] theorem adt_now (i n : Nat) : (m.adt i n).now = m.now := rfl
@[simp] theorem adt_pendOf (i n : Nat) (oo : ObjDef) (jj : Nat) : (m.adt i n).pendOf oo jj = m.pendOf oo jj := rfl
@[simp] theorem adt_avs (i n : Nat) (h : Nat) : (m.adt i n).avs h = m.avs h := rfl
@[simp] theorem adt_cont (i n : Nat) (h : Nat) : (m.adt i n).cont h = m.cont h := rfl
@[simp] theorem adt_slot (i n : Nat) (h : Nat) : (m.adt i n).slot h = m.slot h := rfl
@[simp] theorem adt_sesEn (i n : Nat) (h : Nat) : (m.adt i n).sesEn h = m.sesEn h := rfl
@[simp] theorem adt_sesOn (i n : Nat) (h : Nat) : (m.adt i n).sesOn h = m.sesOn h := rfl
@[simp] theorem setBlk_rd (k : Nat) (b : Contain) (oo : ObjDef) (jj : Nat) : (m.setBlk k b).rd oo jj = m.rd oo jj := rfl
@[simp] theorem setBlk_rdB (k : Nat) (b : Contain) (oo : ObjDef) (jj : Nat) : (m.setBlk k b).rdB oo jj = m.rdB oo jj := rfl
@[simp] theorem setBlk_ent (k : Nat) (b : Contain) (oo : ObjDef) (jj ee : Nat) : (m.setBlk k b).ent oo jj ee = m.ent oo jj ee := rfl
@[simp] theorem setBlk_fn (k : Nat) (b : Contain) (gg : Nat) : (m.setBlk k b).fn gg = m.fn gg := rfl
@[simp] theorem setBlk_fst (k : Nat) (b : Contain) (gg : Nat) : (m.setBlk k b).fst gg = m.fst gg := rfl
@[simp] theorem setBlk_ns (k : Nat) (b : Contain) : (m.setBlk k b).ns = m.ns := rfl
@[simp] theorem setBlk_now (k : Nat) (b : Contain) : (m.setBlk k b).now = m.now := rfl
@[simp] theorem setBlk_pendOf (k : Nat) (b : Contain) (oo : ObjDef) (jj : Nat) : (m.setBlk k b).pendOf oo jj = m.pendOf oo jj := rfl
@[simp] theorem setBlk_avs (k : Nat) (b : Contain) (h : Nat) : (m.setBlk k b).avs h = m.avs h := rfl
@[simp] theorem setBlk_slot (k : Nat) (b : Contain) (h : Nat) : (m.setBlk k b).slot h = m.slot h := rfl
@[simp] theorem setBlk_sesEn (k : Nat) (b : Contain) (h : Nat) : (m.setBlk k b).sesEn h = m.sesEn h := rfl
@[simp] theorem setBlk_sesOn (k : Nat) (b : Contain) (h : Nat) : (m.setBlk k b).sesOn h = m.sesOn h := rfl
@[simp] theorem setAvs_rd (d : Nat) (a : Avs) (oo : ObjDef) (jj : Nat) : (m.setAvs d a).rd oo jj = m.rd oo jj := rfl
@[simp] theorem setAvs_rdB (d : Nat) (a : Avs) (oo : ObjDef) (jj : Nat) : (m.setAvs d a).rdB oo jj = m.rdB oo jj := rfl
@[simp] theorem setAvs_ent (d : Nat) (a : Avs) (oo : ObjDef) (jj ee : Nat) : (m.setAvs d a).ent oo jj ee = m.ent oo jj ee := rfl
@[simp] theorem setAvs_fn (d : Nat) (a : Avs) (gg : Nat) : (m.setAvs d a).fn gg = m.fn gg := rfl
@[simp] theorem setAvs_fst (d : Nat) (a : Avs) (gg : Nat) : (m.setAvs d a).fst gg = m.fst gg := rfl
@[simp] theorem setAvs_ns (d : Nat) (a : Avs) : (m.setAvs d a).ns = m.ns := rfl
@[simp] theorem setAvs_now (d : Nat) (a : Avs) : (m.setAvs d a).now = m.now := rfl
@[simp] theorem setAvs_pendOf (d : Nat) (a : Avs) (oo : ObjDef) (jj : Nat) : (m.setAvs d a).pendOf oo jj = m.pendOf oo jj := rfl
@[simp] theorem setAvs_cont (d : Nat) (a : Avs) (h : Nat) : (m.setAvs d a).cont h = m.cont h := rfl
@[simp] theorem setAvs_slot (d : Nat) (a : Avs) (h : Nat) : (m.setAvs d a).slot h = m.slot h := rfl
@[simp] theorem setAvs_sesEn (d : Nat) (a : Avs) (h : Nat) : (m.setAvs d a).sesEn h = m.sesEn h := rfl
@[simp] theorem setAvs_sesOn (d : Nat) (a : Avs) (h : Nat) : (m.setAvs d a).sesOn h = m.sesOn h := rfl
@[simp] theorem setSlot_rd (k : Nat) (s : Slot) (oo : ObjDef) (jj : Nat) : (m.setSlot k s).rd oo jj = m.rd oo jj := rfl
@[simp] theorem setSlot_rdB (k : Nat) (s : Slot) (oo : ObjDef) (jj : Nat) : (m.setSlot k s).rdB oo jj = m.rdB oo jj := rfl
@[simp] theorem setSlot_ent (k : Nat) (s : Slot) (oo : ObjDef) (jj ee : Nat) : (m.setSlot k s).ent oo jj ee = m.ent oo jj ee := rfl
@[simp] theorem setSlot_fn (k : Nat) (s : Slot) (gg : Nat) : (m.setSlot k s).fn gg = m.fn gg := rfl
@[simp] theorem setSlot_fst (k : Nat) (s : Slot) (gg : Nat) : (m.setSlot k s).fst gg = m.fst gg := rfl
@[simp] theorem setSlot_ns (k : Nat) (s : Slot) : (m.setSlot k s).ns = m.ns := rfl
@[simp] theorem setSlot_now (k : Nat) (s : Slot) : (m.setSlot k s).now = m.now := rfl
@[simp] theorem setSlot_pendOf (k : Nat) (s : Slot) (oo : ObjDef) (jj : Nat) : (m.setSlot k s).pendOf oo jj = m.pendOf oo jj := rfl
@[simp] theorem setSlot_avs (k : Nat) (s : Slot) (h : Nat) : (m.setSlot k s).avs h = m.avs h := rfl
@[simp] theorem setSlot_cont (k : Nat) (s : Slot) (h : Nat) : (m.setSlot k s).cont h = m.cont h := rfl
@[simp] theorem setMsg_rd (n : Nat) (x : Option OpenMsg) (oo : ObjDef) (jj : Nat) : (m.setMsg n x).rd oo jj = m.rd oo jj := rfl
@[simp] theorem setMsg_rdB (n : Nat) (x : Option OpenMsg) (oo : ObjDef) (jj : Nat) : (m.setMsg n x).rdB oo jj = m.rdB oo jj := rfl
@[simp] theorem setMsg_ent (n : Nat) (x : Option OpenMsg) (oo : ObjDef) (jj ee : Nat) : (m.setMsg n x).ent oo jj ee = m.ent oo jj ee := rfl
@[simp] theorem setMsg_fn (n : Nat) (x : Option OpenMsg) (gg : Nat) : (m.setMsg n x).fn gg = m.fn gg := rfl
@[simp] theorem setMsg_fst (n : Nat) (x : Option OpenMsg) (gg : Nat) : (m.setMsg n x).fst gg = m.fst gg := rfl
@[simp] theorem setMsg_ns (n : Nat) (x : Option OpenMsg) : (m.setMsg n x).ns = m.ns := rfl
@[simp] theorem setMsg_now (n : Nat) (x : Option OpenMsg) : (m.setMsg n x).now = m.now := rfl
@[simp] theorem setMsg_pendOf (n : Nat) (x : Option OpenMsg) (oo : ObjDef) (jj : Nat) : (m.setMsg n x).pendOf oo jj = m.pendOf oo jj := rfl
@[simp] theorem setMsg_avs (n : Nat) (x : Option OpenMsg) (h : Nat) : (m.setMsg n x).avs h = m.avs h := rfl
@[simp] theorem setMsg_cont (n : Nat) (x : Option OpenMsg) (h : Nat) : (m.setMsg n x).cont h = m.cont h := rfl
@[simp] theorem setMsg_slot (n : Nat) (x : Option OpenMsg) (h : Nat) : (m.setMsg n x).slot h = m.slot h := rfl
@[simp] theorem setMsg_sesEn (n : Nat) (x : Option OpenMsg) (h : Nat) : (m.setMsg n x).sesEn h = m.sesEn h := rfl
@[simp] theorem setMsg_sesOn (n : Nat) (x : Option OpenMsg) (h : Nat) : (m.setMsg n x).sesOn h = m.sesOn h := rfl
@[simp] theorem setJob_rd (jb : Option Job) (oo : ObjDef) (jj : Nat) : (m.setJob jb).rd oo jj = m.rd oo jj := rfl
@[simp] theorem setJob_rdB (jb : Option Job) (oo : ObjDef) (jj : Nat) : (m.setJob jb).rdB oo jj = m.rdB oo jj := rfl
@[simp] theorem setJob_ent (jb : Option Job) (oo : ObjDef) (jj ee : Nat) : (m.setJob jb).ent oo jj ee = m.ent oo jj ee := rfl
@[simp] theorem setJob_fn (jb : Option Job) (gg : Nat) : (m.setJob jb).fn gg = m.fn gg := rfl
@[simp] theorem setJob_fst (jb : Option Job) (gg : Nat) : (m.setJob jb).fst gg = m.fst gg := rfl
@[simp] theorem setJob_ns (jb : Option Job) : (m.setJob jb).ns = m.ns := rfl
@[simp] theorem setJob_now (jb : Option Job) : (m.setJob jb).now = m.now := rfl
@[simp] theorem setJob_pendOf (jb : Option Job) (oo : ObjDef) (jj : Nat) : (m.setJob jb).pendOf oo jj = m.pendOf oo jj := rfl
@[simp] theorem setJob_avs (jb : Option Job) (h : Nat) : (m.setJob jb).avs h = m.avs h := rfl
@[simp] theorem setJob_cont (jb : Option Job) (h : Nat) : (m.setJob jb).cont h = m.cont h := rfl
@[simp] theorem setJob_slot (jb : Option Job) (h : Nat) : (m.setJob jb).slot h = m.slot h := rfl
@[simp] theorem setJob_sesEn (jb : Option Job) (h : Nat) : (m.setJob jb).sesEn h = m.sesEn h := rfl
@[simp] theorem setJob_sesOn (jb : Option Job) (h : Nat) : (m.setJob jb).sesOn h = m.sesOn h := rfl

@[simp] theorem setPkt_rd (p : Nat) (x : Option Pkt) (oo : ObjDef) (jj : Nat) : (m.setPkt p x).rd oo jj = m.rd oo jj := rfl
@[simp] theorem setPkt_rdB (p : Nat) (x : Option Pkt) (oo : ObjDef) (jj : Nat) : (m.setPkt p x).rdB oo jj = m.rdB oo jj := rfl
@[simp] theorem setPkt_ent (p : Nat) (x : Option Pkt) (oo : ObjDef) (jj ee : Nat) : (m.setPkt p x).ent oo jj ee = m.ent oo jj ee := rfl
@[simp] theorem setPkt_fn (p : Nat) (x : Option Pkt) (gg : Nat) : (m.setPkt p x).fn gg = m.fn gg := rfl
@[simp] theorem setPkt_fst (p : Nat) (x : Option Pkt) (gg : Nat) : (m.setPkt p x).fst gg = m.fst gg := rfl
@[simp] theorem setPkt_ns (p : Nat) (x : Option Pkt) : (m.setPkt p x).ns = m.ns := rfl
@[simp] theorem setPkt_now (p : Nat) (x : Option Pkt) : (m.setPkt p x).now = m.now := rfl
@[simp] theorem setPkt_pendOf (p : Nat) (x : Option Pkt) (oo : ObjDef) (jj : Nat) : (m.setPkt p x).pendOf oo jj = m.pendOf oo jj := rfl
@[simp] theorem setPkt_avs (p : Nat) (x : Option Pkt) (h : Nat) : (m.setPkt p x).avs h = m.avs h := rfl
@[simp] theorem setPkt_cont (p : Nat) (x : Option Pkt) (h : Nat) : (m.setPkt p x).cont h = m.cont h := rfl
@[simp] theorem setPkt_slot (p : Nat) (x : Option Pkt) (h : Nat) : (m.setPkt p x).slot h = m.slot h := rfl
@[simp] theorem setPkt_sesEn (p : Nat) (x : Option Pkt) (h : Nat) : (m.setPkt p x).sesEn h = m.sesEn h := rfl
@[simp] theorem setPkt_sesOn (p : Nat) (x : Option Pkt) (h : Nat) : (m.setPkt p x).sesOn h = m.sesOn h := rfl
@[simp] theorem setRch_rd (r : Nat) (x : Rch) (oo : ObjDef) (jj : Nat) : (m.setRch r x).rd oo jj = m.rd oo jj := rfl
@[simp] theorem setRch_rdB (r : Nat) (x : Rch) (oo : ObjDef) (jj : Nat) : (m.setRch r x).rdB oo jj = m.rdB oo jj := rfl
@[simp] theorem setRch_ent (r : Nat) (x : Rch) (oo : ObjDef) (jj ee : Nat) : (m.setRch r x).ent oo jj ee = m.ent oo jj ee := rfl
@[simp] theorem setRch_fn (r : Nat) (x : Rch) (gg : Nat) : (m.setRch r x).fn gg = m.fn gg := rfl
@[simp] theorem setRch_fst (r : Nat) (x : Rch) (gg : Nat) : (m.setRch r x).fst gg = m.fst gg := rfl
@[simp] theorem setRch_ns (r : Nat) (x : Rch) : (m.setRch r x).ns = m.ns := rfl
@[simp] theorem setRch_now (r : Nat) (x : Rch) : (m.setRch r x).now = m.now := rfl
@[simp] theorem setRch_pendOf (r : Nat) (x : Rch) (oo : ObjDef) (jj : Nat) : (m.setRch r x).pendOf oo jj = m.pendOf oo jj := rfl
@[simp] theorem setRch_avs (r : Nat) (x : Rch) (h : Nat) : (m.setRch r x).avs h = m.avs h := rfl
@[simp] theorem setRch_cont (r : Nat) (x : Rch) (h : Nat) : (m.setRch r x).cont h = m.cont h := rfl
@[simp] theorem setRch_slot (r : Nat) (x : Rch) (h : Nat) : (m.setRch r x).slot h = m.slot h := rfl
@[simp] theorem setRch_sesEn (r : Nat) (x : Rch) (h : Nat) : (m.setRch r x).sesEn h = m.sesEn h := rfl
@[simp] theorem setRch_sesOn (r : Nat) (x : Rch) (h : Nat) : (m.setRch r x).sesOn h = m.sesOn h := rfl
@[simp] theorem setPort_rd (b : Nat) (x : PortSt) (oo : ObjDef) (jj : Nat) : (m.setPort b x).rd oo jj = m.rd oo jj := rfl
@[simp] theorem setPort_rdB (b : Nat) (x : PortSt) (oo : ObjDef) (jj : Nat) : (m.setPort b x).rdB oo jj = m.rdB oo jj := rfl
@[simp] theorem setPort_ent (b : Nat) (x : PortSt) (oo : ObjDef) (jj ee : Nat) : (m.setPort b x).ent oo jj ee = m.ent oo jj ee := rfl
@[simp] theorem setPort_fn (b : Nat) (x : PortSt) (gg : Nat) : (m.setPort b x).fn gg = m.fn gg := rfl
@[simp] theorem setPort_fst (b : Nat) (x : PortSt) (gg : Nat) : (m.setPort b x).fst gg = m.fst gg := rfl
@[simp] theorem setPort_ns (b : Nat) (x : PortSt) : (m.setPort b x).ns = m.ns := rfl
@[simp] theorem setPort_now (b : Nat) (x : PortSt) : (m.setPort b x).now = m.now := rfl
@[simp] theorem setPort_pendOf (b : Nat) (x : PortSt) (oo : ObjDef) (jj : Nat) : (m.setPort b x).pendOf oo jj = m.pendOf oo jj := rfl
@[simp] theorem setPort_avs (b : Nat) (x : PortSt) (h : Nat) : (m.setPort b x).avs h = m.avs h := rfl
@[simp] theorem setPort_cont (b : Nat) (x : PortSt) (h : Nat) : (m.setPort b x).cont h = m.cont h := rfl
@[simp] theorem setPort_slot (b : Nat) (x : PortSt) (h : Nat) : (m.setPort b x).slot h = m.slot h := rfl
@[simp] theorem setPort_sesEn (b : Nat) (x : PortSt) (h : Nat) : (m.setPort b x).sesEn h = m.sesEn h := rfl
@[simp] theorem setPort_sesOn (b : Nat) (x : PortSt) (h : Nat) : (m.setPort b x).sesOn h = m.sesOn h := rfl
@[simp] theorem setBasin_rd (b : Nat) (x : Bsn) (oo : ObjDef) (jj : Nat) : (m.setBasin b x).rd oo jj = m.rd oo jj := rfl
@[simp] theorem setBasin_rdB (b : Nat) (x : Bsn) (oo : ObjDef) (jj : Nat) : (m.setBasin b x).rdB oo jj = m.rdB oo jj := rfl
@[simp] theorem setBasin_ent (b : Nat) (x : Bsn) (oo : ObjDef) (jj ee : Nat) : (m.setBasin b x).ent oo jj ee = m.ent oo jj ee := rfl
@[simp] theorem setBasin_fn (b : Nat) (x : Bsn) (gg : Nat) : (m.setBasin b x).fn gg = m.fn gg := rfl
@[simp] theorem setBasin_fst (b : Nat) (x : Bsn) (gg : Nat) : (m.setBasin b x).fst gg = m.fst gg := rfl
@[simp] theorem setBasin_ns (b : Nat) (x : Bsn) : (m.setBasin b x).ns = m.ns := rfl
@[simp] theorem setBasin_now (b : Nat) (x : Bsn) : (m.setBasin b x).now = m.now := rfl
@[simp] theorem setBasin_pendOf (b : Nat) (x : Bsn) (oo : ObjDef) (jj : Nat) : (m.setBasin b x).pendOf oo jj = m.pendOf oo jj := rfl
@[simp] theorem setBasin_avs (b : Nat) (x : Bsn) (h : Nat) : (m.setBasin b x).avs h = m.avs h := rfl
@[simp] theorem setBasin_cont (b : Nat) (x : Bsn) (h : Nat) : (m.setBasin b x).cont h = m.cont h := rfl
@[simp] theorem setBasin_slot (b : Nat) (x : Bsn) (h : Nat) : (m.setBasin b x).slot h = m.slot h := rfl
@[simp] theorem setBasin_sesEn (b : Nat) (x : Bsn) (h : Nat) : (m.setBasin b x).sesEn h = m.sesEn h := rfl
@[simp] theorem setBasin_sesOn (b : Nat) (x : Bsn) (h : Nat) : (m.setBasin b x).sesOn h = m.sesOn h := rfl
@[simp] theorem setChan_rd (n : Nat) (x : ChSt) (oo : ObjDef) (jj : Nat) : (m.setChan n x).rd oo jj = m.rd oo jj := rfl
@[simp] theorem setChan_rdB (n : Nat) (x : ChSt) (oo : ObjDef) (jj : Nat) : (m.setChan n x).rdB oo jj = m.rdB oo jj := rfl
@[simp] theorem setChan_ent (n : Nat) (x : ChSt) (oo : ObjDef) (jj ee : Nat) : (m.setChan n x).ent oo jj ee = m.ent oo jj ee := rfl
@[simp] theorem setChan_fn (n : Nat) (x : ChSt) (gg : Nat) : (m.setChan n x).fn gg = m.fn gg := rfl
@[simp] theorem setChan_fst (n : Nat) (x : ChSt) (gg : Nat) : (m.setChan n x).fst gg = m.fst gg := rfl
@[simp] theorem setChan_ns (n : Nat) (x : ChSt) : (m.setChan n x).ns = m.ns := rfl
@[simp] theorem setChan_now (n : Nat) (x : ChSt) : (m.setChan n x).now = m.now := rfl
@[simp] theorem setChan_pendOf (n : Nat) (x : ChSt) (oo : ObjDef) (jj : Nat) : (m.setChan n x).pendOf oo jj = m.pendOf oo jj := rfl
@[simp] theorem setChan_avs (n : Nat) (x : ChSt) (h : Nat) : (m.setChan n x).avs h = m.avs h := rfl
@[simp] theorem setChan_cont (n : Nat) (x : ChSt) (h : Nat) : (m.setChan n x).cont h = m.cont h := rfl
@[simp] theorem setChan_slot (n : Nat) (x : ChSt) (h : Nat) : (m.setChan n x).slot h = m.slot h := rfl
@[simp] theorem setChan_sesEn (n : Nat) (x : ChSt) (h : Nat) : (m.setChan n x).sesEn h = m.sesEn h := rfl
@[simp] theorem setChan_sesOn (n : Nat) (x : ChSt) (h : Nat) : (m.setChan n x).sesOn h = m.sesOn h := rfl
@[simp] theorem setVoq_rd (i v : Nat) (x : Voq) (oo : ObjDef) (jj : Nat) : (m.setVoq i v x).rd oo jj = m.rd oo jj := rfl
@[simp] theorem setVoq_rdB (i v : Nat) (x : Voq) (oo : ObjDef) (jj : Nat) : (m.setVoq i v x).rdB oo jj = m.rdB oo jj := rfl
@[simp] theorem setVoq_ent (i v : Nat) (x : Voq) (oo : ObjDef) (jj ee : Nat) : (m.setVoq i v x).ent oo jj ee = m.ent oo jj ee := rfl
@[simp] theorem setVoq_fn (i v : Nat) (x : Voq) (gg : Nat) : (m.setVoq i v x).fn gg = m.fn gg := rfl
@[simp] theorem setVoq_fst (i v : Nat) (x : Voq) (gg : Nat) : (m.setVoq i v x).fst gg = m.fst gg := rfl
@[simp] theorem setVoq_ns (i v : Nat) (x : Voq) : (m.setVoq i v x).ns = m.ns := rfl
@[simp] theorem setVoq_now (i v : Nat) (x : Voq) : (m.setVoq i v x).now = m.now := rfl
@[simp] theorem setVoq_pendOf (i v : Nat) (x : Voq) (oo : ObjDef) (jj : Nat) : (m.setVoq i v x).pendOf oo jj = m.pendOf oo jj := rfl
@[simp] theorem setVoq_avs (i v : Nat) (x : Voq) (h : Nat) : (m.setVoq i v x).avs h = m.avs h := rfl
@[simp] theorem setVoq_cont (i v : Nat) (x : Voq) (h : Nat) : (m.setVoq i v x).cont h = m.cont h := rfl
@[simp] theorem setVoq_slot (i v : Nat) (x : Voq) (h : Nat) : (m.setVoq i v x).slot h = m.slot h := rfl
@[simp] theorem setVoq_sesEn (i v : Nat) (x : Voq) (h : Nat) : (m.setVoq i v x).sesEn h = m.sesEn h := rfl
@[simp] theorem setVoq_sesOn (i v : Nat) (x : Voq) (h : Nat) : (m.setVoq i v x).sesOn h = m.sesOn h := rfl
@[simp] theorem setSlu_rd (v : Nat) (x : Slu) (oo : ObjDef) (jj : Nat) : (m.setSlu v x).rd oo jj = m.rd oo jj := rfl
@[simp] theorem setSlu_rdB (v : Nat) (x : Slu) (oo : ObjDef) (jj : Nat) : (m.setSlu v x).rdB oo jj = m.rdB oo jj := rfl
@[simp] theorem setSlu_ent (v : Nat) (x : Slu) (oo : ObjDef) (jj ee : Nat) : (m.setSlu v x).ent oo jj ee = m.ent oo jj ee := rfl
@[simp] theorem setSlu_fn (v : Nat) (x : Slu) (gg : Nat) : (m.setSlu v x).fn gg = m.fn gg := rfl
@[simp] theorem setSlu_fst (v : Nat) (x : Slu) (gg : Nat) : (m.setSlu v x).fst gg = m.fst gg := rfl
@[simp] theorem setSlu_ns (v : Nat) (x : Slu) : (m.setSlu v x).ns = m.ns := rfl
@[simp] theorem setSlu_now (v : Nat) (x : Slu) : (m.setSlu v x).now = m.now := rfl
@[simp] theorem setSlu_pendOf (v : Nat) (x : Slu) (oo : ObjDef) (jj : Nat) : (m.setSlu v x).pendOf oo jj = m.pendOf oo jj := rfl
@[simp] theorem setSlu_avs (v : Nat) (x : Slu) (h : Nat) : (m.setSlu v x).avs h = m.avs h := rfl
@[simp] theorem setSlu_cont (v : Nat) (x : Slu) (h : Nat) : (m.setSlu v x).cont h = m.cont h := rfl
@[simp] theorem setSlu_slot (v : Nat) (x : Slu) (h : Nat) : (m.setSlu v x).slot h = m.slot h := rfl
@[simp] theorem setSlu_sesEn (v : Nat) (x : Slu) (h : Nat) : (m.setSlu v x).sesEn h = m.sesEn h := rfl
@[simp] theorem setSlu_sesOn (v : Nat) (x : Slu) (h : Nat) : (m.setSlu v x).sesOn h = m.sesOn h := rfl
@[simp] theorem setWay_rd (k : Nat) (w : Option Way) (oo : ObjDef) (jj : Nat) : (m.setWay k w).rd oo jj = m.rd oo jj := rfl
@[simp] theorem setWay_rdB (k : Nat) (w : Option Way) (oo : ObjDef) (jj : Nat) : (m.setWay k w).rdB oo jj = m.rdB oo jj := rfl
@[simp] theorem setWay_ent (k : Nat) (w : Option Way) (oo : ObjDef) (jj ee : Nat) : (m.setWay k w).ent oo jj ee = m.ent oo jj ee := rfl
@[simp] theorem setWay_fn (k : Nat) (w : Option Way) (gg : Nat) : (m.setWay k w).fn gg = m.fn gg := rfl
@[simp] theorem setWay_fst (k : Nat) (w : Option Way) (gg : Nat) : (m.setWay k w).fst gg = m.fst gg := rfl
@[simp] theorem setWay_ns (k : Nat) (w : Option Way) : (m.setWay k w).ns = m.ns := rfl
@[simp] theorem setWay_now (k : Nat) (w : Option Way) : (m.setWay k w).now = m.now := rfl
@[simp] theorem setWay_pendOf (k : Nat) (w : Option Way) (oo : ObjDef) (jj : Nat) : (m.setWay k w).pendOf oo jj = m.pendOf oo jj := rfl
@[simp] theorem setWay_avs (k : Nat) (w : Option Way) (h : Nat) : (m.setWay k w).avs h = m.avs h := rfl
@[simp] theorem setWay_cont (k : Nat) (w : Option Way) (h : Nat) : (m.setWay k w).cont h = m.cont h := rfl
@[simp] theorem setWay_slot (k : Nat) (w : Option Way) (h : Nat) : (m.setWay k w).slot h = m.slot h := rfl
@[simp] theorem setWay_sesEn (k : Nat) (w : Option Way) (h : Nat) : (m.setWay k w).sesEn h = m.sesEn h := rfl
@[simp] theorem setWay_sesOn (k : Nat) (w : Option Way) (h : Nat) : (m.setWay k w).sesOn h = m.sesOn h := rfl
@[simp] theorem setPc_rd (p : Nat) (x : Pc) (oo : ObjDef) (jj : Nat) : (m.setPc p x).rd oo jj = m.rd oo jj := rfl
@[simp] theorem setPc_rdB (p : Nat) (x : Pc) (oo : ObjDef) (jj : Nat) : (m.setPc p x).rdB oo jj = m.rdB oo jj := rfl
@[simp] theorem setPc_ent (p : Nat) (x : Pc) (oo : ObjDef) (jj ee : Nat) : (m.setPc p x).ent oo jj ee = m.ent oo jj ee := rfl
@[simp] theorem setPc_fn (p : Nat) (x : Pc) (gg : Nat) : (m.setPc p x).fn gg = m.fn gg := rfl
@[simp] theorem setPc_fst (p : Nat) (x : Pc) (gg : Nat) : (m.setPc p x).fst gg = m.fst gg := rfl
@[simp] theorem setPc_ns (p : Nat) (x : Pc) : (m.setPc p x).ns = m.ns := rfl
@[simp] theorem setPc_now (p : Nat) (x : Pc) : (m.setPc p x).now = m.now := rfl
@[simp] theorem setPc_pendOf (p : Nat) (x : Pc) (oo : ObjDef) (jj : Nat) : (m.setPc p x).pendOf oo jj = m.pendOf oo jj := rfl
@[simp] theorem setPc_avs (p : Nat) (x : Pc) (h : Nat) : (m.setPc p x).avs h = m.avs h := rfl
@[simp] theorem setPc_cont (p : Nat) (x : Pc) (h : Nat) : (m.setPc p x).cont h = m.cont h := rfl
@[simp] theorem setPc_slot (p : Nat) (x : Pc) (h : Nat) : (m.setPc p x).slot h = m.slot h := rfl
@[simp] theorem setPc_sesEn (p : Nat) (x : Pc) (h : Nat) : (m.setPc p x).sesEn h = m.sesEn h := rfl
@[simp] theorem setPc_sesOn (p : Nat) (x : Pc) (h : Nat) : (m.setPc p x).sesOn h = m.sesOn h := rfl
@[simp] theorem setHchan_rd (k : Nat) (x : HCh) (oo : ObjDef) (jj : Nat) : (m.setHchan k x).rd oo jj = m.rd oo jj := rfl
@[simp] theorem setHchan_rdB (k : Nat) (x : HCh) (oo : ObjDef) (jj : Nat) : (m.setHchan k x).rdB oo jj = m.rdB oo jj := rfl
@[simp] theorem setHchan_ent (k : Nat) (x : HCh) (oo : ObjDef) (jj ee : Nat) : (m.setHchan k x).ent oo jj ee = m.ent oo jj ee := rfl
@[simp] theorem setHchan_fn (k : Nat) (x : HCh) (gg : Nat) : (m.setHchan k x).fn gg = m.fn gg := rfl
@[simp] theorem setHchan_fst (k : Nat) (x : HCh) (gg : Nat) : (m.setHchan k x).fst gg = m.fst gg := rfl
@[simp] theorem setHchan_ns (k : Nat) (x : HCh) : (m.setHchan k x).ns = m.ns := rfl
@[simp] theorem setHchan_now (k : Nat) (x : HCh) : (m.setHchan k x).now = m.now := rfl
@[simp] theorem setHchan_pendOf (k : Nat) (x : HCh) (oo : ObjDef) (jj : Nat) : (m.setHchan k x).pendOf oo jj = m.pendOf oo jj := rfl
@[simp] theorem setHchan_avs (k : Nat) (x : HCh) (h : Nat) : (m.setHchan k x).avs h = m.avs h := rfl
@[simp] theorem setHchan_cont (k : Nat) (x : HCh) (h : Nat) : (m.setHchan k x).cont h = m.cont h := rfl
@[simp] theorem setHchan_slot (k : Nat) (x : HCh) (h : Nat) : (m.setHchan k x).slot h = m.slot h := rfl
@[simp] theorem setHchan_sesEn (k : Nat) (x : HCh) (h : Nat) : (m.setHchan k x).sesEn h = m.sesEn h := rfl
@[simp] theorem setHchan_sesOn (k : Nat) (x : HCh) (h : Nat) : (m.setHchan k x).sesOn h = m.sesOn h := rfl
@[simp] theorem setPool_rd (r k : Nat) (p : PoolSt) (oo : ObjDef) (jj : Nat) : (m.setPool r k p).rd oo jj = m.rd oo jj := rfl
@[simp] theorem setPool_rdB (r k : Nat) (p : PoolSt) (oo : ObjDef) (jj : Nat) : (m.setPool r k p).rdB oo jj = m.rdB oo jj := rfl
@[simp] theorem setPool_ent (r k : Nat) (p : PoolSt) (oo : ObjDef) (jj ee : Nat) : (m.setPool r k p).ent oo jj ee = m.ent oo jj ee := rfl
@[simp] theorem setPool_fn (r k : Nat) (p : PoolSt) (gg : Nat) : (m.setPool r k p).fn gg = m.fn gg := rfl
@[simp] theorem setPool_fst (r k : Nat) (p : PoolSt) (gg : Nat) : (m.setPool r k p).fst gg = m.fst gg := rfl
@[simp] theorem setPool_ns (r k : Nat) (p : PoolSt) : (m.setPool r k p).ns = m.ns := rfl
@[simp] theorem setPool_now (r k : Nat) (p : PoolSt) : (m.setPool r k p).now = m.now := rfl
@[simp] theorem setPool_pendOf (r k : Nat) (p : PoolSt) (oo : ObjDef) (jj : Nat) : (m.setPool r k p).pendOf oo jj = m.pendOf oo jj := rfl
@[simp] theorem setPool_avs (r k : Nat) (p : PoolSt) (h : Nat) : (m.setPool r k p).avs h = m.avs h := rfl
@[simp] theorem setPool_cont (r k : Nat) (p : PoolSt) (h : Nat) : (m.setPool r k p).cont h = m.cont h := rfl
@[simp] theorem setPool_slot (r k : Nat) (p : PoolSt) (h : Nat) : (m.setPool r k p).slot h = m.slot h := rfl
@[simp] theorem setPool_sesEn (r k : Nat) (p : PoolSt) (h : Nat) : (m.setPool r k p).sesEn h = m.sesEn h := rfl
@[simp] theorem setPool_sesOn (r k : Nat) (p : PoolSt) (h : Nat) : (m.setPool r k p).sesOn h = m.sesOn h := rfl
@[simp] theorem setHpool_rd (p : Nat) (x : HPool) (oo : ObjDef) (jj : Nat) : (m.setHpool p x).rd oo jj = m.rd oo jj := rfl
@[simp] theorem setHpool_rdB (p : Nat) (x : HPool) (oo : ObjDef) (jj : Nat) : (m.setHpool p x).rdB oo jj = m.rdB oo jj := rfl
@[simp] theorem setHpool_ent (p : Nat) (x : HPool) (oo : ObjDef) (jj ee : Nat) : (m.setHpool p x).ent oo jj ee = m.ent oo jj ee := rfl
@[simp] theorem setHpool_fn (p : Nat) (x : HPool) (gg : Nat) : (m.setHpool p x).fn gg = m.fn gg := rfl
@[simp] theorem setHpool_fst (p : Nat) (x : HPool) (gg : Nat) : (m.setHpool p x).fst gg = m.fst gg := rfl
@[simp] theorem setHpool_ns (p : Nat) (x : HPool) : (m.setHpool p x).ns = m.ns := rfl
@[simp] theorem setHpool_now (p : Nat) (x : HPool) : (m.setHpool p x).now = m.now := rfl
@[simp] theorem setHpool_pendOf (p : Nat) (x : HPool) (oo : ObjDef) (jj : Nat) : (m.setHpool p x).pendOf oo jj = m.pendOf oo jj := rfl
@[simp] theorem setHpool_avs (p : Nat) (x : HPool) (h : Nat) : (m.setHpool p x).avs h = m.avs h := rfl
@[simp] theorem setHpool_cont (p : Nat) (x : HPool) (h : Nat) : (m.setHpool p x).cont h = m.cont h := rfl
@[simp] theorem setHpool_slot (p : Nat) (x : HPool) (h : Nat) : (m.setHpool p x).slot h = m.slot h := rfl
@[simp] theorem setHpool_sesEn (p : Nat) (x : HPool) (h : Nat) : (m.setHpool p x).sesEn h = m.sesEn h := rfl
@[simp] theorem setHpool_sesOn (p : Nat) (x : HPool) (h : Nat) : (m.setHpool p x).sesOn h = m.sesOn h := rfl
@[simp] theorem setCol_rd (k : Nat) (x : Col) (oo : ObjDef) (jj : Nat) : (m.setCol k x).rd oo jj = m.rd oo jj := rfl
@[simp] theorem setCol_rdB (k : Nat) (x : Col) (oo : ObjDef) (jj : Nat) : (m.setCol k x).rdB oo jj = m.rdB oo jj := rfl
@[simp] theorem setCol_ent (k : Nat) (x : Col) (oo : ObjDef) (jj ee : Nat) : (m.setCol k x).ent oo jj ee = m.ent oo jj ee := rfl
@[simp] theorem setCol_fn (k : Nat) (x : Col) (gg : Nat) : (m.setCol k x).fn gg = m.fn gg := rfl
@[simp] theorem setCol_fst (k : Nat) (x : Col) (gg : Nat) : (m.setCol k x).fst gg = m.fst gg := rfl
@[simp] theorem setCol_ns (k : Nat) (x : Col) : (m.setCol k x).ns = m.ns := rfl
@[simp] theorem setCol_now (k : Nat) (x : Col) : (m.setCol k x).now = m.now := rfl
@[simp] theorem setCol_pendOf (k : Nat) (x : Col) (oo : ObjDef) (jj : Nat) : (m.setCol k x).pendOf oo jj = m.pendOf oo jj := rfl
@[simp] theorem setCol_avs (k : Nat) (x : Col) (h : Nat) : (m.setCol k x).avs h = m.avs h := rfl
@[simp] theorem setCol_cont (k : Nat) (x : Col) (h : Nat) : (m.setCol k x).cont h = m.cont h := rfl
@[simp] theorem setCol_slot (k : Nat) (x : Col) (h : Nat) : (m.setCol k x).slot h = m.slot h := rfl
@[simp] theorem setCol_sesEn (k : Nat) (x : Col) (h : Nat) : (m.setCol k x).sesEn h = m.sesEn h := rfl
@[simp] theorem setCol_sesOn (k : Nat) (x : Col) (h : Nat) : (m.setCol k x).sesOn h = m.sesOn h := rfl
@[simp] theorem setEq_rd (q : Nat) (l : List Copy) (oo : ObjDef) (jj : Nat) : (m.setEq q l).rd oo jj = m.rd oo jj := rfl
@[simp] theorem setEq_rdB (q : Nat) (l : List Copy) (oo : ObjDef) (jj : Nat) : (m.setEq q l).rdB oo jj = m.rdB oo jj := rfl
@[simp] theorem setEq_ent (q : Nat) (l : List Copy) (oo : ObjDef) (jj ee : Nat) : (m.setEq q l).ent oo jj ee = m.ent oo jj ee := rfl
@[simp] theorem setEq_fn (q : Nat) (l : List Copy) (gg : Nat) : (m.setEq q l).fn gg = m.fn gg := rfl
@[simp] theorem setEq_fst (q : Nat) (l : List Copy) (gg : Nat) : (m.setEq q l).fst gg = m.fst gg := rfl
@[simp] theorem setEq_ns (q : Nat) (l : List Copy) : (m.setEq q l).ns = m.ns := rfl
@[simp] theorem setEq_now (q : Nat) (l : List Copy) : (m.setEq q l).now = m.now := rfl
@[simp] theorem setEq_pendOf (q : Nat) (l : List Copy) (oo : ObjDef) (jj : Nat) : (m.setEq q l).pendOf oo jj = m.pendOf oo jj := rfl
@[simp] theorem setEq_avs (q : Nat) (l : List Copy) (h : Nat) : (m.setEq q l).avs h = m.avs h := rfl
@[simp] theorem setEq_cont (q : Nat) (l : List Copy) (h : Nat) : (m.setEq q l).cont h = m.cont h := rfl
@[simp] theorem setEq_slot (q : Nat) (l : List Copy) (h : Nat) : (m.setEq q l).slot h = m.slot h := rfl
@[simp] theorem setEq_sesEn (q : Nat) (l : List Copy) (h : Nat) : (m.setEq q l).sesEn h = m.sesEn h := rfl
@[simp] theorem setEq_sesOn (q : Nat) (l : List Copy) (h : Nat) : (m.setEq q l).sesOn h = m.sesOn h := rfl
end Sys2Proof.Machine
end

