-- ==== Sys2Proof/Laws/Obj.lean ====
section
/-! SUPPORT. Objects, table entries and function records: what a read after a write gives, and when two objects are apart. -/

namespace Sys2Proof.Machine

variable (m : Mach)

/-! Identifiers. -/

/-- Two identifiers of objects whose items and subindices lie in their fields are apart where a field differs. -/
theorem key_ne {o p : ObjDef} {i j : Nat} (hs : o.sub < 256) (ht : p.sub < 256) (hi : o.item + i < 65536) (hj : p.item + j < 65536)
    (h : o.area ≠ p.area ∨ o.item + i ≠ p.item + j ∨ o.sub ≠ p.sub) : o.key i ≠ p.key j := by
  simp only [ObjDef.key, Nat.shiftLeft_eq]
  omega

/-- The area of an identifier. -/
theorem key_area {o : ObjDef} {i : Nat} (hs : o.sub < 256) (hi : o.item + i < 65536) : o.key i / 16777216 = o.area := by
  simp only [ObjDef.key, Nat.shiftLeft_eq]
  omega

/-! Object values. -/

@[simp] theorem rd_wr_same (o : ObjDef) (i v : Nat) : (m.wr o i v).rd o i = v := by
  simp [Mach.rd, Mach.wr]

theorem rd_wr_ne {o p : ObjDef} {i j : Nat} (v : Nat) (h : p.key j ≠ o.key i) : (m.wr o i v).rd p j = m.rd p j :=
  mget_mset_ne' _ _ _ _ h

theorem rdB_wr_ne {o p : ObjDef} {i j : Nat} (v : Nat) (h : p.key j ≠ o.key i) : (m.wr o i v).rdB p j = m.rdB p j := by
  simp [Mach.rdB, rd_wr_ne m v h]

@[simp] theorem rd_bump_same (o : ObjDef) (i n : Nat) : (m.bump o i n).rd o i = (m.rd o i + n) % 2 ^ (8 * o.len) := by
  simp [Mach.bump]

theorem rd_bump_ne {o p : ObjDef} {i j : Nat} (n : Nat) (h : p.key j ≠ o.key i) : (m.bump o i n).rd p j = m.rd p j :=
  rd_wr_ne m _ h

theorem rd_lower_ne {o p : ObjDef} {i j : Nat} (n : Nat) (h : p.key j ≠ o.key i) : (m.lower o i n).rd p j = m.rd p j :=
  rd_wr_ne m _ h

@[simp] theorem rd_lower_same (o : ObjDef) (i n : Nat) : (m.lower o i n).rd o i = m.rd o i - n := by
  simp [Mach.lower]

@[simp] theorem rd_peak_same (o : ObjDef) (i v : Nat) : (m.peak o i v).rd o i = max (m.rd o i) v := by
  unfold Mach.peak
  split
  · simp
    omega
  · omega

theorem rd_peak_ne {o p : ObjDef} {i j : Nat} (v : Nat) (h : p.key j ≠ o.key i) : (m.peak o i v).rd p j = m.rd p j := by
  unfold Mach.peak
  split
  · exact rd_wr_ne m v h
  · rfl

/-- Objects read the same where the value map is the same. -/
theorem rd_of_objs {m n : Mach} (h : n.com.objs = m.com.objs) (o : ObjDef) (i : Nat) : n.rd o i = m.rd o i := by
  simp [Mach.rd, h]

/-- An object reads the same where the value map agrees at its identifier. -/
theorem rd_of_key {m n : Mach} {o : ObjDef} {i : Nat} (h : ∀ d, mget d n.com.objs (o.key i) = mget d m.com.objs (o.key i)) : n.rd o i = m.rd o i :=
  h _

theorem objs_wr_ne {o : ObjDef} {i k : Nat} (v : Nat) (h : k ≠ o.key i) (d : Nat) : mget d (m.wr o i v).com.objs k = mget d m.com.objs k :=
  mget_mset_ne' _ _ _ _ h

/-! Table entries. -/

@[simp] theorem ent_setEnt_same (o : ObjDef) (i x v : Nat) : (m.setEnt o i x v).ent o i x = v := by
  simp [Mach.ent, Mach.setEnt]

theorem ent_setEnt_ne {o p : ObjDef} {i j x y : Nat} (v : Nat) (h : p.ekey j y ≠ o.ekey i x) : (m.setEnt o i x v).ent p j y = m.ent p j y :=
  mget_mset_ne' _ _ _ _ h

/-- Entries read the same where the entry map is the same. -/
theorem ent_of_tabs {m n : Mach} (h : n.com.tabs = m.com.tabs) (o : ObjDef) (i x : Nat) : n.ent o i x = m.ent o i x := by
  simp only [Mach.ent, h]

/-! Function records. -/

@[simp] theorem fn_setFn_same (f : Nat) (r : FnRec) : (m.setFn f r).fn f = r := by
  simp [Mach.fn, Mach.setFn]

theorem fn_setFn_ne {f g : Nat} (r : FnRec) (h : g ≠ f) : (m.setFn f r).fn g = m.fn g := by
  simp [Mach.fn, Mach.setFn, mget_mset_ne _ _ _ h]

@[simp] theorem fst_setFn_same (f : Nat) (r : FnRec) : (m.setFn f r).fst f = r.state := by
  simp [Mach.fst]

theorem fst_setFn_ne {f g : Nat} (r : FnRec) (h : g ≠ f) : (m.setFn f r).fst g = m.fst g := by
  simp [Mach.fst, fn_setFn_ne m r h]

/-! Pending RL values, AVSBus loops and containment records. -/

@[simp] theorem pendOf_setPend_same (o : ObjDef) (i : Nat) (v : Option Nat) : (m.setPend o i v).pendOf o i = v := by
  simp [Mach.pendOf, Mach.setPend]

theorem pendOf_setPend_ne {o p : ObjDef} {i j : Nat} (v : Option Nat) (h : p.key j ≠ o.key i) : (m.setPend o i v).pendOf p j = m.pendOf p j := by
  simp [Mach.pendOf, Mach.setPend, mget_mset_ne _ _ _ h]

@[simp] theorem avs_setAvs_same (d : Nat) (a : Avs) : (m.setAvs d a).avs d = a := by
  simp [Mach.avs, Mach.setAvs]

theorem avs_setAvs_ne {d e : Nat} (a : Avs) (h : e ≠ d) : (m.setAvs d a).avs e = m.avs e := by
  simp [Mach.avs, Mach.setAvs, mget_mset_ne _ _ _ h]

@[simp] theorem blk_setBlk_same (k : Nat) (b : Contain) : mget {} (m.setBlk k b).flt.blk k = b := by
  simp [Mach.setBlk]

theorem blk_setBlk_ne {k j : Nat} (b : Contain) (h : j ≠ k) : mget {} (m.setBlk k b).flt.blk j = mget {} m.flt.blk j := by
  simp [Mach.setBlk, mget_mset_ne _ _ _ h]

@[simp] theorem slot_setSlot_same (k : Nat) (x : Slot) : (m.setSlot k x).slot k = x := by
  simp [Mach.slot, Mach.setSlot]

theorem slot_setSlot_ne {k j : Nat} (x : Slot) (h : j ≠ k) : (m.setSlot k x).slot j = m.slot j := by
  simp [Mach.slot, Mach.setSlot, mget_mset_ne _ _ _ h]

end Sys2Proof.Machine
end

