-- ==== Sys2Proof/Laws/PerInstr.lean ====
section
/-! SUPPORT. The family Words, one lemma for each command: the table gives its row no bits, so no word spells it. -/

namespace Sys2Proof.Laws.Words

/-- No word of the table spells the command. -/
def Statement (i : Instr) : Prop := ∀ nbits w : Nat, decodeTableWord nbits w ≠ some i

theorem lanternRailValid (straps : Fin 8) (refclk trngPass imageOk : Bool) (corrupt : List (Fin 69)) : Statement (.lanternRailValid straps refclk trngPass imageOk corrupt) := fun _ _ h => nomatch h
theorem lanternRailLoss : Statement .lanternRailLoss := fun _ _ h => nomatch h
theorem coreUndervolt (d : Fin 4) (mv : Nat) : Statement (.coreUndervolt d mv) := fun _ _ h => nomatch h
theorem railOutOfRange (r : Fin 12) (mv : Nat) : Statement (.railOutOfRange r mv) := fun _ _ h => nomatch h
theorem thermalTrip (sensor : Fin 21) (temp : Int) : Statement (.thermalTrip sensor temp) := fun _ _ h => nomatch h
theorem dieTempLimit (die : Fin 13) (temp : Int) : Statement (.dieTempLimit die temp) := fun _ _ h => nomatch h
theorem paceWindow (t : Fin 442) (eq : Nat) : Statement (.paceWindow t eq) := fun _ _ h => nomatch h
theorem avsInterval (d : Fin 4) (mv ma : Nat) : Statement (.avsInterval d mv ma) := fun _ _ h => nomatch h
theorem avsFailure (d : Fin 4) : Statement (.avsFailure d) := fun _ _ h => nomatch h
theorem paceDeficit (d : Fin 4) : Statement (.paceDeficit d) := fun _ _ h => nomatch h
theorem avsLoopEnWrite (ses : Fin 64) (v : Nat) : Statement (.avsLoopEnWrite ses v) := fun _ _ h => nomatch h
theorem coreVcoreSetWrite (ses : Fin 64) (d : Fin 4) (v : Nat) : Statement (.coreVcoreSetWrite ses d v) := fun _ _ h => nomatch h
theorem modeReqPilot (ses : Fin 64) : Statement (.modeReqPilot ses) := fun _ _ h => nomatch h
theorem modeReqTrim (ses : Fin 64) : Statement (.modeReqTrim ses) := fun _ _ h => nomatch h
theorem modeReqPrimed (ses : Fin 64) : Statement (.modeReqPrimed ses) := fun _ _ h => nomatch h
theorem modeReqLit (ses : Fin 64) : Statement (.modeReqLit ses) := fun _ _ h => nomatch h
theorem modeReqLean (ses : Fin 64) : Statement (.modeReqLean ses) := fun _ _ h => nomatch h
theorem modeReqEbb (ses : Fin 64) : Statement (.modeReqEbb ses) := fun _ _ h => nomatch h
theorem modeReqBanked (ses : Fin 64) : Statement (.modeReqBanked ses) := fun _ _ h => nomatch h
theorem modeReqProbe (ses : Fin 64) : Statement (.modeReqProbe ses) := fun _ _ h => nomatch h
theorem modeReqQuench (ses : Fin 64) : Statement (.modeReqQuench ses) := fun _ _ h => nomatch h
theorem kindleComplete (failed : List (Fin 442)) : Statement (.kindleComplete failed) := fun _ _ h => nomatch h
theorem kindleAbort (cause : KindleCause) : Statement (.kindleAbort cause) := fun _ _ h => nomatch h
theorem leanToLitEntry (timeout : Bool) : Statement (.leanToLitEntry timeout) := fun _ _ h => nomatch h
theorem ebbDrained : Statement .ebbDrained := fun _ _ h => nomatch h
theorem ebbLimitExpiry : Statement .ebbLimitExpiry := fun _ _ h => nomatch h
theorem ebbReturn : Statement .ebbReturn := fun _ _ h => nomatch h
theorem bankedEntry : Statement .bankedEntry := fun _ _ h => nomatch h
theorem bankedExitComplete : Statement .bankedExitComplete := fun _ _ h => nomatch h
theorem quenchZeroise : Statement .quenchZeroise := fun _ _ h => nomatch h
theorem quenchComplete : Statement .quenchComplete := fun _ _ h => nomatch h
theorem resetBlock (ses : Fin 64) (tile : Nat) : Statement (.resetBlock ses tile) := fun _ _ h => nomatch h
theorem resetDie (ses : Fin 64) (die : Nat) : Statement (.resetDie ses die) := fun _ _ h => nomatch h
theorem resetAssembly (ses : Fin 64) : Statement (.resetAssembly ses) := fun _ _ h => nomatch h
theorem fnStart (ses : Fin 64) (fn : Fin 65536) : Statement (.fnStart ses fn) := fun _ _ h => nomatch h
theorem fnStop (ses : Fin 64) (fn : Fin 65536) : Statement (.fnStop ses fn) := fun _ _ h => nomatch h
theorem fnInitComplete (fn : Fin 65536) : Statement (.fnInitComplete fn) := fun _ _ h => nomatch h
theorem fnStopComplete (fn : Fin 65536) : Statement (.fnStopComplete fn) := fun _ _ h => nomatch h
theorem rlLanding (id : Fin 4294967296) (idx : Nat) : Statement (.rlLanding id idx) := fun _ _ h => nomatch h
theorem holdAgeExpiry (r : Fin 8) (pkt : Nat) : Statement (.holdAgeExpiry r pkt) := fun _ _ h => nomatch h
theorem objectWrite (ses : Fin 64) (id : Fin 4294967296) (val : List Byte) : Statement (.objectWrite ses id val) := fun _ _ h => nomatch h
theorem readClear (ses : Fin 64) (id : Fin 4294967296) : Statement (.readClear ses id) := fun _ _ h => nomatch h
theorem mgtFrameRx (p : Fin 2) (f : MgtFrame) : Statement (.mgtFrameRx p f) := fun _ _ h => nomatch h
theorem mgtSpeedWrite (ses : Fin 64) (p : Fin 2) (v : Nat) : Statement (.mgtSpeedWrite ses p v) := fun _ _ h => nomatch h
theorem inbandClelekRx (b : Fin 1024) (f : ClFrame) : Statement (.inbandClelekRx b f) := fun _ _ h => nomatch h
theorem clelekRead : Statement .clelekRead := fun _ _ h => nomatch h
theorem clelekWrite : Statement .clelekWrite := fun _ _ h => nomatch h
theorem clelekBatch : Statement .clelekBatch := fun _ _ h => nomatch h
theorem batchExecute : Statement .batchExecute := fun _ _ h => nomatch h
theorem windowRead : Statement .windowRead := fun _ _ h => nomatch h
theorem windowWrite : Statement .windowWrite := fun _ _ h => nomatch h
theorem subscribe : Statement .subscribe := fun _ _ h => nomatch h
theorem subscribeCancel : Statement .subscribeCancel := fun _ _ h => nomatch h
theorem attest : Statement .attest := fun _ _ h => nomatch h
theorem attestSigned : Statement .attestSigned := fun _ _ h => nomatch h
theorem importKey : Statement .importKey := fun _ _ h => nomatch h
theorem bundle (sigOk : Option (List Byte)) : Statement (.bundle sigOk) := fun _ _ h => nomatch h
theorem bundleExecute : Statement .bundleExecute := fun _ _ h => nomatch h
theorem clelekBadOp : Statement .clelekBadOp := fun _ _ h => nomatch h
theorem messageTimeout (ses : Fin 64) : Statement (.messageTimeout ses) := fun _ _ h => nomatch h
theorem sesConfigWrite (ses target : Fin 64) (sub : Nat) (v : Nat) : Statement (.sesConfigWrite ses target sub v) := fun _ _ h => nomatch h
theorem noteLoss (slot : Fin 16) : Statement (.noteLoss slot) := fun _ _ h => nomatch h
theorem injectPort (f : InjFrame) : Statement (.injectPort f) := fun _ _ h => nomatch h
theorem injectPipeline (f : InjFrame) : Statement (.injectPipeline f) := fun _ _ h => nomatch h
theorem injectDrain : Statement .injectDrain := fun _ _ h => nomatch h
theorem puntSend : Statement .puntSend := fun _ _ h => nomatch h
theorem defectRaise (b : Fin 1024) (k : DefectRep) : Statement (.defectRaise b k) := fun _ _ h => nomatch h
theorem defectClear (b : Fin 1024) (k : DefectRep) : Statement (.defectClear b k) := fun _ _ h => nomatch h
theorem downHoldExpiry (b : Fin 1024) : Statement (.downHoldExpiry b) := fun _ _ h => nomatch h
theorem upHoldExpiry (b : Fin 1024) : Statement (.upHoldExpiry b) := fun _ _ h => nomatch h
theorem anRestart (b : Fin 1024) : Statement (.anRestart b) := fun _ _ h => nomatch h
theorem bpEnableWrite (ses : Fin 64) (b : Fin 1024) (v : Nat) : Statement (.bpEnableWrite ses b v) := fun _ _ h => nomatch h
theorem bpHoldWrite (ses : Fin 64) (b : Fin 1024) (up : Bool) (v : Nat) : Statement (.bpHoldWrite ses b up v) := fun _ _ h => nomatch h
theorem pauseRx (b : Fin 1024) (opcode : Nat) (enable : Nat) (quanta : List Nat) : Statement (.pauseRx b opcode enable quanta) := fun _ _ h => nomatch h
theorem pauseExpiry (b : Fin 1024) (cls : Fin 8) : Statement (.pauseExpiry b cls) := fun _ _ h => nomatch h
theorem xoffRefresh (b : Fin 1024) (cls : Fin 8) : Statement (.xoffRefresh b cls) := fun _ _ h => nomatch h
theorem pmSecond (b : Fin 1024) (f : PmInput) : Statement (.pmSecond b f) := fun _ _ h => nomatch h
theorem flxCalUseWrite (ses : Fin 64) (g : Fin 128) (v : Nat) : Statement (.flxCalUseWrite ses g v) := fun _ _ h => nomatch h
theorem flxCalSwitch (g : Fin 128) : Statement (.flxCalSwitch g) := fun _ _ h => nomatch h
theorem flxCalTimeout (g : Fin 128) : Statement (.flxCalTimeout g) := fun _ _ h => nomatch h
theorem frameRx (b : Fin 1024) (client : Nat) (fcsOk overflow : Bool) (data : List Byte) : Statement (.frameRx b client fcsOk overflow data) := fun _ _ h => nomatch h
theorem contextAssign (r : Fin 8) : Statement (.contextAssign r) := fun _ _ h => nomatch h
theorem parseComplete (r : Fin 8) (pkt : Nat) : Statement (.parseComplete r pkt) := fun _ _ h => nomatch h
theorem graphParseStart (r : Fin 8) : Statement (.graphParseStart r) := fun _ _ h => nomatch h
theorem graphParseComplete (r : Fin 8) : Statement (.graphParseComplete r) := fun _ _ h => nomatch h
theorem keyEpoch : Statement .keyEpoch := fun _ _ h => nomatch h
theorem passStart (r : Fin 8) (pkt : Nat) : Statement (.passStart r pkt) := fun _ _ h => nomatch h
theorem passEnd (r : Fin 8) (pkt : Nat) : Statement (.passEnd r pkt) := fun _ _ h => nomatch h
theorem backwaterReentry (r : Fin 8) (pkt : Nat) : Statement (.backwaterReentry r pkt) := fun _ _ h => nomatch h
theorem queryReceipt (b : Fin 16) (src : Nat) : Statement (.queryReceipt b src) := fun _ _ h => nomatch h
theorem bucketReadDone (b : Fin 16) (e : Nat) : Statement (.bucketReadDone b e) := fun _ _ h => nomatch h
theorem resultArrival (b : Fin 16) (e : Nat) : Statement (.resultArrival b e) := fun _ _ h => nomatch h
theorem operationApply (b : Fin 16) (e : Nat) : Statement (.operationApply b e) := fun _ _ h => nomatch h
theorem parkArrival (b : Fin 16) (e : Nat) : Statement (.parkArrival b e) := fun _ _ h => nomatch h
theorem verdictWaitBasin (b : Fin 16) (e : Nat) : Statement (.verdictWaitBasin b e) := fun _ _ h => nomatch h
theorem verdictWaitLane (r : Fin 8) (lane : Fin 4096) : Statement (.verdictWaitLane r lane) := fun _ _ h => nomatch h
theorem verdictArrival (r : Fin 8) (pkt : Nat) : Statement (.verdictArrival r pkt) := fun _ _ h => nomatch h
theorem laneRelease (r : Fin 8) (lane : Fin 4096) : Statement (.laneRelease r lane) := fun _ _ h => nomatch h
theorem writeBackAge (b : Fin 16) (slot : Nat) : Statement (.writeBackAge b slot) := fun _ _ h => nomatch h
theorem flwReqLookup (ses : Fin 64) (i : Fin 256) : Statement (.flwReqLookup ses i) := fun _ _ h => nomatch h
theorem flwReqInsert (ses : Fin 64) (i : Fin 256) : Statement (.flwReqInsert ses i) := fun _ _ h => nomatch h
theorem flwReqUpdate (ses : Fin 64) (i : Fin 256) : Statement (.flwReqUpdate ses i) := fun _ _ h => nomatch h
theorem flwReqDelete (ses : Fin 64) (i : Fin 256) : Statement (.flwReqDelete ses i) := fun _ _ h => nomatch h
theorem flwClear (ses : Fin 64) : Statement (.flwClear ses) := fun _ _ h => nomatch h
theorem flwClearDone : Statement .flwClearDone := fun _ _ h => nomatch h
theorem flwSizeWrite (ses : Fin 64) (v : Nat) : Statement (.flwSizeWrite ses v) := fun _ _ h => nomatch h
theorem flwGrow (ses : Fin 64) : Statement (.flwGrow ses) := fun _ _ h => nomatch h
theorem eventPost (b : Fin 16) : Statement (.eventPost b) := fun _ _ h => nomatch h
theorem eventDispatch (b : Fin 16) : Statement (.eventDispatch b) := fun _ _ h => nomatch h
theorem create (b : Fin 16) (ctx : Nat) : Statement (.create b ctx) := fun _ _ h => nomatch h
theorem linkCreate (b : Fin 16) (ctx : Nat) : Statement (.linkCreate b ctx) := fun _ _ h => nomatch h
theorem pairNote (b : Fin 16) (ctx : Nat) : Statement (.pairNote b ctx) := fun _ _ h => nomatch h
theorem pairDelete (b : Fin 16) (ctx : Nat) : Statement (.pairDelete b ctx) := fun _ _ h => nomatch h
theorem poolAlloc (b : Fin 16) (ctx : Nat) : Statement (.poolAlloc b ctx) := fun _ _ h => nomatch h
theorem portRelease (b : Fin 16) (ctx : Nat) : Statement (.portRelease b ctx) := fun _ _ h => nomatch h
theorem age (b : Fin 16) (ctx : Nat) : Statement (.age b ctx) := fun _ _ h => nomatch h
theorem exportEvent (b : Fin 16) (ctx : Nat) : Statement (.exportEvent b ctx) := fun _ _ h => nomatch h
theorem sweep (b : Fin 16) (ctx : Nat) : Statement (.sweep b ctx) := fun _ _ h => nomatch h
theorem split (b : Fin 16) (ctx : Nat) : Statement (.split b ctx) := fun _ _ h => nomatch h
theorem sweepTimer (b : Fin 16) : Statement (.sweepTimer b) := fun _ _ h => nomatch h
theorem splitTimer (b : Fin 16) : Statement (.splitTimer b) := fun _ _ h => nomatch h
theorem poolRecount (ses : Fin 64) : Statement (.poolRecount ses) := fun _ _ h => nomatch h
theorem poolRecountDone : Statement .poolRecountDone := fun _ _ h => nomatch h
theorem trcArm (ses : Fin 64) (b : Fin 16) : Statement (.trcArm ses b) := fun _ _ h => nomatch h
theorem hbmRequest (q : HbmReq) : Statement (.hbmRequest q) := fun _ _ h => nomatch h
theorem hbmReadComplete (pc : Fin 512) (ecc : EccOutcome) : Statement (.hbmReadComplete pc ecc) := fun _ _ h => nomatch h
theorem hbmWriteComplete (pc : Fin 512) : Statement (.hbmWriteComplete pc) := fun _ _ h => nomatch h
theorem hbmRefresh (pc : Fin 512) (bank : Nat) : Statement (.hbmRefresh pc bank) := fun _ _ h => nomatch h
theorem hbmRetrain (stk : Fin 8) (ch : Fin 32) (ok : Bool) (temp : Int) : Statement (.hbmRetrain stk ch ok temp) := fun _ _ h => nomatch h
theorem selfRefreshIdle (stk : Fin 8) (ch : Fin 32) : Statement (.selfRefreshIdle stk ch) := fun _ _ h => nomatch h
theorem selfRefreshExit (stk : Fin 8) (ch : Fin 32) : Statement (.selfRefreshExit stk ch) := fun _ _ h => nomatch h
theorem hbmScrub (stk : Fin 8) (line : Nat) (ecc : EccOutcome) : Statement (.hbmScrub stk line ecc) := fun _ _ h => nomatch h
theorem hbmMapOrderWrite (ses : Fin 64) (v : Nat) : Statement (.hbmMapOrderWrite ses v) := fun _ _ h => nomatch h
theorem remapDone : Statement .remapDone := fun _ _ h => nomatch h
theorem cellFree (r : Fin 8) (pool : Fin 4) (cell : Nat) (owner : Nat) : Statement (.cellFree r pool cell owner) := fun _ _ h => nomatch h
theorem hbmPoolAlloc (b : Fin 16) (len : Nat) : Statement (.hbmPoolAlloc b len) := fun _ _ h => nomatch h
theorem hbmStockRefill (p : Fin 16) : Statement (.hbmStockRefill p) := fun _ _ h => nomatch h
theorem hbmPoolFree (b : Fin 16) (p : Fin 8) (buf : Nat) : Statement (.hbmPoolFree b p buf) := fun _ _ h => nomatch h
theorem hplRebuild (ses : Fin 64) (p : Nat) : Statement (.hplRebuild ses p) := fun _ _ h => nomatch h
theorem hplRebuildDone (p : Fin 16) : Statement (.hplRebuildDone p) := fun _ _ h => nomatch h
theorem channelSend (ch : Fin 256) : Statement (.channelSend ch) := fun _ _ h => nomatch h
theorem voqRequestArrival (e : Fin 8) : Statement (.voqRequestArrival e) := fun _ _ h => nomatch h
theorem grantIssue (e : Fin 8) : Statement (.grantIssue e) := fun _ _ h => nomatch h
theorem grantArrival (i : Fin 8) : Statement (.grantArrival i) := fun _ _ h => nomatch h
theorem creditReturn (e : Fin 8) : Statement (.creditReturn e) := fun _ _ h => nomatch h
theorem egressArrival (e : Fin 8) : Statement (.egressArrival e) := fun _ _ h => nomatch h
theorem skipArrival (e : Fin 8) : Statement (.skipArrival e) := fun _ _ h => nomatch h
theorem mcReplicate (e : Fin 8) : Statement (.mcReplicate e) := fun _ _ h => nomatch h
theorem doneArrival (i : Fin 8) : Statement (.doneArrival i) := fun _ _ h => nomatch h
theorem portStateArrival (r : Fin 8) : Statement (.portStateArrival r) := fun _ _ h => nomatch h
theorem voqDropDequeue (r : Fin 8) : Statement (.voqDropDequeue r) := fun _ _ h => nomatch h
theorem schedDecision (b : Fin 1024) : Statement (.schedDecision b) := fun _ _ h => nomatch h
theorem pcsFrameStart (b : Fin 1024) : Statement (.pcsFrameStart b) := fun _ _ h => nomatch h
theorem shaperRefill (b : Fin 1024) (q : Option (Fin 65536)) : Statement (.shaperRefill b q) := fun _ _ h => nomatch h
theorem egressDropDequeue (b : Fin 1024) : Statement (.egressDropDequeue b) := fun _ _ h => nomatch h
theorem gateUseWrite (ses : Fin 64) (b : Fin 1024) (v : Nat) : Statement (.gateUseWrite ses b v) := fun _ _ h => nomatch h
theorem gateSwitchLand (b : Fin 1024) : Statement (.gateSwitchLand b) := fun _ _ h => nomatch h
theorem tbRateWrite (ses : Fin 64) (v : Nat) : Statement (.tbRateWrite ses v) := fun _ _ h => nomatch h
theorem tbAdjust (ses : Fin 64) (v : Nat) : Statement (.tbAdjust ses v) := fun _ _ h => nomatch h
theorem tbSet (ses : Fin 64) (v : Nat) : Statement (.tbSet ses v) := fun _ _ h => nomatch h
theorem tbSetAtPps (ses : Fin 64) (v : Nat) : Statement (.tbSetAtPps ses v) := fun _ _ h => nomatch h
theorem anchorLanding : Statement .anchorLanding := fun _ _ h => nomatch h
theorem ppsInEdge (rising : Bool) : Statement (.ppsInEdge rising) := fun _ _ h => nomatch h
theorem ppsOutEdge : Statement .ppsOutEdge := fun _ _ h => nomatch h
theorem refLoss : Statement .refLoss := fun _ _ h => nomatch h
theorem refRelock : Statement .refRelock := fun _ _ h => nomatch h
theorem tsTxqNextRead (ses : Fin 64) : Statement (.tsTxqNextRead ses) := fun _ _ h => nomatch h
theorem cntStickyClear (ses : Fin 64) (v : Nat) : Statement (.cntStickyClear ses v) := fun _ _ h => nomatch h
theorem gecSelectWrite (ses : Fin 64) (i : Fin 256) (v : Nat) : Statement (.gecSelectWrite ses i v) := fun _ _ h => nomatch h
theorem bwWindowEnd (b : Fin 1024) : Statement (.bwWindowEnd b) := fun _ _ h => nomatch h
theorem flBufferFlushAge (b : Fin 16) : Statement (.flBufferFlushAge b) := fun _ _ h => nomatch h
theorem flMessageSend (col die : Fin 4) : Statement (.flMessageSend col die) := fun _ _ h => nomatch h
theorem flTemplatePeriod (col : Fin 4) : Statement (.flTemplatePeriod col) := fun _ _ h => nomatch h
theorem flLossSecond : Statement .flLossSecond := fun _ _ h => nomatch h
theorem flColEnWrite (ses : Fin 64) (col : Fin 4) (v : Nat) : Statement (.flColEnWrite ses col v) := fun _ _ h => nomatch h
theorem flTemplateWrite (ses : Fin 64) (t : Fin 16) (mask : Nat) : Statement (.flTemplateWrite ses t mask) := fun _ _ h => nomatch h
theorem lcShip (ses : Fin 64) : Statement (.lcShip ses) := fun _ _ h => nomatch h
theorem ownerClaim (ses : Fin 64) (arg : Nat) : Statement (.ownerClaim ses arg) := fun _ _ h => nomatch h
theorem ownerTransfer (ses : Fin 64) (arg : Nat) : Statement (.ownerTransfer ses arg) := fun _ _ h => nomatch h
theorem ownerReturn (ses : Fin 64) (arg : Nat) : Statement (.ownerReturn ses arg) := fun _ _ h => nomatch h
theorem slotErase (ses : Fin 64) (slot : Fin 69) : Statement (.slotErase ses slot) := fun _ _ h => nomatch h
theorem trngHealthFail : Statement .trngHealthFail := fun _ _ h => nomatch h
theorem trngRetest (ses : Fin 64) (pass : Bool) : Statement (.trngRetest ses pass) := fun _ _ h => nomatch h
theorem cipherSeal (ses : Fin 64) (i : Fin 16) : Statement (.cipherSeal ses i) := fun _ _ h => nomatch h
theorem cipherOpen (ses : Fin 64) (i : Fin 16) : Statement (.cipherOpen ses i) := fun _ _ h => nomatch h
theorem cipherMac (ses : Fin 64) (i : Fin 16) : Statement (.cipherMac ses i) := fun _ _ h => nomatch h
theorem cipherVerify (ses : Fin 64) (i : Fin 16) : Statement (.cipherVerify ses i) := fun _ _ h => nomatch h
theorem tapInstructionLoad (op : Fin 256) (keyIsland : Bool) : Statement (.tapInstructionLoad op keyIsland) := fun _ _ h => nomatch h
theorem wickApply (ses : Fin 64) (sigOk : Bool) : Statement (.wickApply ses sigOk) := fun _ _ h => nomatch h
theorem wickRevoke (ses : Fin 64) : Statement (.wickRevoke ses) := fun _ _ h => nomatch h
theorem wickExpiry : Statement .wickExpiry := fun _ _ h => nomatch h
theorem dbgLevelReq (ses : Fin 64) (v : Nat) : Statement (.dbgLevelReq ses v) := fun _ _ h => nomatch h
theorem dbgOwnerConsentWrite (ses : Fin 64) (v : Nat) : Statement (.dbgOwnerConsentWrite ses v) := fun _ _ h => nomatch h
theorem dbgObserveEnWrite (ses : Fin 64) (v : Nat) : Statement (.dbgObserveEnWrite ses v) := fun _ _ h => nomatch h
theorem faultDetect (f : FaultRep) : Statement (.faultDetect f) := fun _ _ h => nomatch h
theorem snufferDecide : Statement .snufferDecide := fun _ _ h => nomatch h
theorem blockRestartComplete (tile : Fin 442) : Statement (.blockRestartComplete tile) := fun _ _ h => nomatch h
theorem containmentEnd (tile : Fin 442) : Statement (.containmentEnd tile) := fun _ _ h => nomatch h
theorem fltRestore (ses : Fin 64) (arg : Nat) : Statement (.fltRestore ses arg) := fun _ _ h => nomatch h
theorem handbackComplete (b : Fin 16) : Statement (.handbackComplete b) := fun _ _ h => nomatch h
theorem stackRebuildComplete (stk : Fin 8) : Statement (.stackRebuildComplete stk) := fun _ _ h => nomatch h
theorem fltAckOverflow (ses : Fin 64) : Statement (.fltAckOverflow ses) := fun _ _ h => nomatch h
theorem fltAckPin (ses : Fin 64) : Statement (.fltAckPin ses) := fun _ _ h => nomatch h
theorem snufferHeartbeatLoss : Statement .snufferHeartbeatLoss := fun _ _ h => nomatch h
theorem trimWorkWrite (ses : Fin 64) (view : Fin 3) (i : Nat) (val : List Byte) : Statement (.trimWorkWrite ses view i val) := fun _ _ h => nomatch h
theorem trimMeasure (ses : Fin 64) (arg : Nat) : Statement (.trimMeasure ses arg) := fun _ _ h => nomatch h
theorem trimMeasureDone : Statement .trimMeasureDone := fun _ _ h => nomatch h
theorem trimCommit (ses : Fin 64) : Statement (.trimCommit ses) := fun _ _ h => nomatch h
theorem trimCommitDone : Statement .trimCommitDone := fun _ _ h => nomatch h
theorem adtiebCommit : Statement .adtiebCommit := fun _ _ h => nomatch h
theorem adtiebSecond (temps : List (Option Int)) : Statement (.adtiebSecond temps) := fun _ _ h => nomatch h
theorem mgtLinkChange (p : Fin 2) (up : Bool) : Statement (.mgtLinkChange p up) := fun _ _ h => nomatch h
theorem ijtagAccess (op : IjtagOp) : Statement (.ijtagAccess op) := fun _ _ h => nomatch h
theorem ppsOutFall : Statement .ppsOutFall := fun _ _ h => nomatch h

end Sys2Proof.Laws.Words
end

