-- ==== Sys2Proof/Laws/Raise.lean ====
section
/-! SUPPORT. What raising a lifetime event, a notification or a fault can change, said once. -/

namespace Sys2Proof.Machine

/-- An area whose tables raising something leaves alone: not 20, A8 or B8. -/
abbrev Apart (a : Nat) : Prop := a ≠ 0x20 ∧ a ≠ 0xA8 ∧ a ≠ 0xB8

/-- An identifier that raising something leaves alone: in area 20 it writes BOOT-EPOCH, SES-PRIV, SUB-SENT and SUB-DROPPED only, in A8 and B8
more, elsewhere nothing. -/
abbrev Spare (k : Nat) : Prop :=
  k / 16777216 ≠ 0xA8 ∧ k / 16777216 ≠ 0xB8 ∧ (k / 16777216 = 0x20 → k % 256 ≠ 3 ∧ k % 256 ≠ 4 ∧ k ≠ 0x20000600)

/-- `n` differs from `m` at most in what raising something writes: logs, lifetime counters, subscriptions, device counters, the debug level. -/
structure Raised (m n : Mach) : Prop where
  frc : n.com.frc = m.com.frc
  free : n.com.free = m.com.free
  pend : n.com.pend = m.com.pend
  fns : n.com.fns = m.com.fns
  status : n.com.status = m.com.status
  value : n.com.value = m.com.value
  objs : ∀ k, Spare k → ∀ d, mget d n.com.objs k = mget d m.com.objs k
  tabs : ∀ k, Apart (k / 72057594037927936) → ∀ d, mget d n.com.tabs k = mget d m.com.tabs k
  pwr : n.pwr = { m.pwr with override := n.pwr.override }
  trn : n.trn = m.trn
  tb : n.tb = m.tb
  sec : n.sec = { m.sec with slots := n.sec.slots }
  flt : n.flt = m.flt
  trm : n.trm = { m.trm with counters := n.trm.counters, evSeq := n.trm.evSeq, evSec := n.trm.evSec, evN := n.trm.evN }
  dp : n.dp = m.dp

namespace Raised

variable {m n p : Mach}

theorem refl (m : Mach) : Raised m m := by
  constructor <;> intros <;> rfl

theorem trans (h : Raised m n) (g : Raised n p) : Raised m p where
  frc := g.frc.trans h.frc
  free := g.free.trans h.free
  pend := g.pend.trans h.pend
  fns := g.fns.trans h.fns
  status := g.status.trans h.status
  value := g.value.trans h.value
  objs k a d := (g.objs k a d).trans (h.objs k a d)
  tabs k a d := (g.tabs k a d).trans (h.tabs k a d)
  pwr := by rw [g.pwr, h.pwr]
  trn := g.trn.trans h.trn
  tb := g.tb.trans h.tb
  sec := by rw [g.sec, h.sec]
  flt := g.flt.trans h.flt
  trm := by rw [g.trm, h.trm]
  dp := g.dp.trans h.dp

/-- An object of another area reads as before. -/
theorem rd (h : Raised m n) {o : ObjDef} {i : Nat} (a : Apart o.area) (hs : o.sub < 256) (hi : o.item + i < 65536) : n.rd o i = m.rd o i :=
  rd_of_key (h.objs _ (by
    have := key_area hs hi
    exact ⟨by omega, by omega, fun e => absurd (this ▸ e) a.1⟩))

/-- An object that raising something leaves alone reads as before. -/
theorem rd_spare (h : Raised m n) {o : ObjDef} {i : Nat} (a : Spare (o.key i)) : n.rd o i = m.rd o i := rd_of_key (h.objs _ a)

theorem fst_eq (h : Raised m n) (f : Nat) : n.fst f = m.fst f := by
  simp [Mach.fst, Mach.fn, h.fns]

theorem fn_eq (h : Raised m n) (f : Nat) : n.fn f = m.fn f := by
  simp [Mach.fn, h.fns]

theorem avs_eq (h : Raised m n) (d : Nat) : n.avs d = m.avs d := by
  have := congrArg Pwr.avs h.pwr
  simpa [Mach.avs] using congrArg (fun l => mget {} l d) this

theorem ns_eq (h : Raised m n) : n.ns = m.ns := by
  simp [Mach.ns, h.frc]

theorem now_eq (h : Raised m n) : n.now = m.now := by
  simp [Mach.now, Mach.adj, Mach.adjAt, h.frc, h.tb]

end Raised

theorem raised_wr (m : Mach) {o : ObjDef} {i : Nat} (v : Nat) (a : ¬ Spare (o.key i)) : Raised m (m.wr o i v) where
  frc := rfl
  free := rfl
  pend := rfl
  fns := rfl
  status := rfl
  value := rfl
  objs _ b d := objs_wr_ne m v (fun e => a (e ▸ b)) d
  tabs _ _ _ := rfl
  pwr := rfl
  trn := rfl
  tb := rfl
  sec := rfl
  flt := rfl
  trm := rfl
  dp := rfl

theorem raised_setEnt (m : Mach) {o : ObjDef} {i x : Nat} (v : Nat) (a : ¬ Apart (o.ekey i x / 72057594037927936)) : Raised m (m.setEnt o i x v) where
  frc := rfl
  free := rfl
  pend := rfl
  fns := rfl
  status := rfl
  value := rfl
  objs _ _ _ := rfl
  tabs k b _ := by
    have h : k ≠ o.ekey i x := fun e => a (e ▸ b)
    exact mget_mset_ne' _ _ _ _ h
  pwr := rfl
  trn := rfl
  tb := rfl
  sec := rfl
  flt := rfl
  trm := rfl
  dp := rfl

theorem raised_emit (m : Mach) (x : Out) : Raised m (m.emit x) := by
  unfold Mach.emit
  split <;> (constructor <;> intros <;> rfl)

theorem raised_adt (m : Mach) (i n : Nat) : Raised m (m.adt i n) := by constructor <;> intros <;> rfl

theorem raised_foldl {α : Type} (f : Mach → α → Mach) (h : ∀ m a, Raised m (f m a)) (l : List α) (m : Mach) : Raised m (l.foldl f m) := by
  induction l generalizing m with
  | nil => exact .refl m
  | cons a r ih => exact (h m a).trans (ih _)

theorem raised_foldl_mem {α : Type} (f : Mach → α → Mach) (l : List α) (h : ∀ m a, a ∈ l → Raised m (f m a)) (m : Mach) : Raised m (l.foldl f m) := by
  induction l generalizing m with
  | nil => exact .refl m
  | cons a r ih => exact (h m a (by simp)).trans (ih (fun n b hb => h n b (by simp [hb])) _)

/-- A lifetime event. -/
theorem raised_adtEvent (m : Mach) (c : ModeCtl) (k a : Nat) : Raised m (m.adtEvent c k a) := by
  unfold Mach.adtEvent
  dsimp only
  generalize (if m.trm.evSec = m.ns / 1000000000 then m.trm.evN else 0) = n
  by_cases h : 100 ≤ n
  · simp only [h, if_true]
    exact raised_adt m 36 1
  · simp only [h, if_false]
    refine Raised.trans (raised_setEnt m _ ?_) (Raised.trans (raised_wr _ _ ?_) (by constructor <;> intros <;> rfl))
    · simp only [ObjDef.ekey, ObjDef.key, O.adtEvents, Apart, Nat.shiftLeft_eq]
      omega
    · simp [ObjDef.key, O.adtEventNext, Spare]

theorem raised_ite {m a b : Mach} {q : Prop} [Decidable q] (h : Raised m a) (g : Raised m b) : Raised m (if q then a else b) := by
  split
  · exact h
  · exact g

theorem sub_area {o : ObjDef} {i : Nat} (a : o.area = 0x20) (hi : o.item + i < 65536) (hs : o.sub < 256) (h : o.sub = 3 ∨ o.sub = 4) : ¬ Spare (o.key i) := by
  have h1 := key_area hs hi
  have h2 : o.key i % 256 = o.sub := by
    simp only [ObjDef.key, Nat.shiftLeft_eq]
    omega
  intro g
  have := g.2.2 (by omega)
  omega

theorem raised_dropP3 (m : Mach) : Raised m m.dropP3 := by
  unfold Mach.dropP3
  refine raised_foldl_mem _ _ (fun n s hs => ?_) m
  refine raised_ite (raised_wr n _ ?_) (.refl n)
  have := List.mem_range.mp hs
  exact sub_area rfl (by simp only [O.sesPriv]; omega) (by decide) (by decide)

/-- Something that only the logs, the debug state, overrides, device counters or subscriptions see. -/
theorem raised_side (m : Mach) (d : Dbg) (k : Clk) (o : Map (Option Nat)) (l : Map Slot) :
    Raised m { m with dbg := d, clk := k, pwr.override := o, sec.slots := l } := by
  constructor <;> intros <;> rfl

theorem raised_eq {m n : Mach}
    (h : n = ⟨m.com, { m.pwr with override := n.pwr.override }, m.trn, n.clk, m.tb, { m.sec with slots := n.sec.slots }, n.dbg, m.flt, m.trm, m.dp⟩) :
    Raised m n := by
  rw [h]
  constructor <;> intros <;> rfl

/-- A change of the debug level. -/
theorem raised_dbgSettle (m : Mach) (c : ModeCtl) (cause ses ticket : Nat) : Raised m (m.dbgSettle c cause ses ticket) := by
  unfold Mach.dbgSettle
  dsimp only
  refine raised_ite (.refl m) ?_
  generalize hm1 : m.setEnt _ _ _ _ = m1
  have h1 : Raised m m1 := by
    subst hm1
    apply raised_setEnt
    simp only [ObjDef.ekey, ObjDef.key, O.dbgLog, Apart, Nat.shiftLeft_eq]
    omega
  refine h1.trans ?_
  generalize hm2 : (m1.adt _ _).adtEvent _ _ _ = m2
  have h2 : Raised m1 m2 := hm2 ▸ (raised_adt _ _ _).trans (raised_adtEvent _ _ _ _)
  refine h2.trans ?_
  have h4 : ∀ a : Mach, Raised a (if m.dbgGives < 3 then a.dropP3 else a) := fun a => raised_ite (raised_dropP3 a) (.refl a)
  have h6 : ∀ a : Mach, Raised a (a.tapFit c) := fun a => raised_ite (.refl a) (raised_side a _ a.clk a.pwr.override a.sec.slots)
  have h5 : ∀ a : Mach, Raised a (if m.dbgGives < 2 then { a with pwr.override := [] } else a) :=
    fun a => raised_ite (raised_side a a.dbg a.clk [] a.sec.slots) (.refl a)
  exact (raised_side m2 _ m2.clk m2.pwr.override m2.sec.slots).trans ((h4 _).trans ((h6 _).trans (h5 _)))

/-- The end of a wick. -/
theorem raised_wickEnd (m : Mach) (c : ModeCtl) (cause ses : Nat) : Raised m (m.wickEnd c cause ses) := by
  unfold Mach.wickEnd
  dsimp only
  refine Raised.trans (n := { m with dbg.wick := none }) (raised_eq rfl) ?_
  refine Raised.trans (raised_wr _ _ ?_) (Raised.trans (raised_wr _ _ ?_) (raised_dbgSettle _ _ _ _ _))
  · simp [ObjDef.key, O.dbgExpiry, Spare]
  · simp [ObjDef.key, O.dbgWickSession, Spare]

/-- An advance of BOOT-EPOCH. -/
theorem raised_nextEpoch (m : Mach) (c : ModeCtl) : Raised m (m.nextEpoch c) := by
  unfold Mach.nextEpoch
  dsimp only
  generalize hm1 : m.bump O.bootEpoch _ _ = m1
  have h1 : Raised m m1 := by
    subst hm1
    apply raised_wr
    simp [ObjDef.key, O.bootEpoch, Spare]
  split
  · refine Raised.trans ?_ (raised_wickEnd _ _ _ _)
    exact h1.trans (raised_eq rfl)
  · exact h1.trans (raised_eq rfl)

/-- A device counter used. -/
theorem raised_ivUsed (m : Mach) (c : ModeCtl) (ses : Nat) : Raised m (m.ivUsed c ses) := by
  unfold Mach.ivUsed
  dsimp only
  exact raised_ite (raised_eq rfl) (raised_nextEpoch _ _)

/-- A frame that leaves in band. -/
theorem raised_inbandOut (m : Mach) (path dest n : Nat) : Raised m (m.inbandOut path dest n) := raised_ite (raised_eq rfl) (.refl m)

/-- A NOTIFY frame sent. -/
theorem raised_noteSend (m : Mach) (c : ModeCtl) (slot r : Nat) (h : slot < 16) : Raised m (m.noteSend c slot r) := by
  unfold Mach.noteSend
  dsimp only
  refine Raised.trans (raised_wr _ _ (sub_area rfl ?_ (by decide) (by decide))) ((raised_emit _ _).trans ((raised_inbandOut _ _ _ _).trans (raised_ivUsed _ _ _)))
  simp only [O.subSent]
  omega

/-- A notification offered to one subscription. -/
theorem raised_noteTo (m : Mach) (c : ModeCtl) (r k slot : Nat) (h : slot < 16) : Raised m (m.noteTo c r k slot) := by
  unfold Mach.noteTo
  dsimp only
  refine raised_ite (.refl m) (raised_ite ?_ ?_)
  · generalize hm2 : ({ m with clk.subs := _ } : Mach) = m2
    have h2 : Raised m m2 := hm2 ▸ raised_eq rfl
    exact h2.trans (raised_noteSend _ _ _ _ h)
  · refine Raised.trans (raised_wr _ _ (sub_area rfl ?_ (by decide) (by decide))) (raised_eq rfl)
    simp only [O.subDropped]
    omega

/-- A notification. -/
theorem raised_note (m : Mach) (c : ModeCtl) (k fn obj code arg : Nat) : Raised m (m.note c k fn obj code arg) := by
  unfold Mach.note
  dsimp only
  generalize hm1 : m.setEnt _ _ _ _ = m1
  have h1 : Raised m m1 := by
    subst hm1
    apply raised_setEnt
    simp only [ObjDef.ekey, ObjDef.key, O.noteLog, Apart, Nat.shiftLeft_eq]
    omega
  generalize hm2 : ({ m1 with clk.noteNum := _ } : Mach) = m2
  have h2 : Raised m1 m2 := hm2 ▸ raised_eq rfl
  refine h1.trans (h2.trans ?_)
  exact raised_foldl_mem _ _ (fun n s hs => raised_noteTo n c _ _ s (List.mem_range.mp hs)) _

/-- `n` has the notification number and the notification log of `m`. -/
def Silent (m n : Mach) : Prop :=
  n.clk.noteNum = m.clk.noteNum ∧ ∀ k, k / 72057594037927936 = 0x20 → ∀ d, mget d n.com.tabs k = mget d m.com.tabs k

theorem Silent.refl (m : Mach) : Silent m m := ⟨rfl, fun _ _ _ => rfl⟩

theorem Silent.trans {m n p : Mach} (h : Silent m n) (g : Silent n p) : Silent m p :=
  ⟨g.1.trans h.1, fun k a d => (g.2 k a d).trans (h.2 k a d)⟩

theorem silent_ite {m a b : Mach} {q : Prop} [Decidable q] (h : Silent m a) (g : Silent m b) : Silent m (if q then a else b) := by
  split
  · exact h
  · exact g

theorem silent_same {m n : Mach} (h : n.clk.noteNum = m.clk.noteNum) (g : n.com.tabs = m.com.tabs) : Silent m n :=
  ⟨h, fun _ _ _ => by rw [g]⟩

theorem silent_setEnt (m : Mach) {o : ObjDef} {i x : Nat} (v : Nat) (a : o.ekey i x / 72057594037927936 ≠ 0x20) : Silent m (m.setEnt o i x v) :=
  ⟨rfl, fun _ b _ => mget_mset_ne' _ _ _ _ fun e => a (e ▸ b)⟩

theorem silent_wr (m : Mach) (o : ObjDef) (i v : Nat) : Silent m (m.wr o i v) := silent_same (by simp) (by simp)

theorem silent_bump (m : Mach) (o : ObjDef) (i v : Nat) : Silent m (m.bump o i v) := silent_same (by simp) (by simp)

theorem silent_adt (m : Mach) (i n : Nat) : Silent m (m.adt i n) := silent_same (by simp) (by simp)

theorem silent_emit (m : Mach) (x : Out) : Silent m (m.emit x) := silent_same (by simp) (by simp)

theorem silent_trm (m : Mach) (t : Trm) : Silent m { m with trm := t } := silent_same rfl rfl

theorem silent_dbg (m : Mach) (d : Dbg) : Silent m { m with dbg := d } := silent_same rfl rfl

theorem silent_pwr (m : Mach) (x : Pwr) : Silent m { m with pwr := x } := silent_same rfl rfl

theorem silent_foldl {α : Type} (f : Mach → α → Mach) (h : ∀ m a, Silent m (f m a)) (l : List α) (m : Mach) : Silent m (l.foldl f m) := by
  induction l generalizing m with
  | nil => exact .refl m
  | cons a r ih => exact (h m a).trans (ih _)

theorem silent_adtEvent (m : Mach) (c : ModeCtl) (k a : Nat) : Silent m (m.adtEvent c k a) := by
  unfold Mach.adtEvent
  dsimp only
  generalize (if m.trm.evSec = m.ns / 1000000000 then m.trm.evN else 0) = n
  refine silent_ite (silent_adt _ _ _) (Silent.trans (silent_setEnt m _ ?_) ((silent_wr _ _ _ _).trans (silent_trm _ _)))
  simp only [ObjDef.ekey, ObjDef.key, O.adtEvents, Nat.shiftLeft_eq]
  omega

theorem silent_dbgSettle (m : Mach) (c : ModeCtl) (cause ses ticket : Nat) : Silent m (m.dbgSettle c cause ses ticket) := by
  unfold Mach.dbgSettle
  dsimp only
  refine silent_ite (.refl m) ?_
  generalize hm1 : m.setEnt _ _ _ _ = m1
  have h1 : Silent m m1 := by
    subst hm1
    apply silent_setEnt
    simp only [ObjDef.ekey, ObjDef.key, O.dbgLog, Nat.shiftLeft_eq]
    omega
  refine h1.trans ?_
  generalize hm2 : (m1.adt _ _).adtEvent _ _ _ = m2
  have h2 : Silent m1 m2 := hm2 ▸ (silent_adt m1 7 1).trans (silent_adtEvent _ _ _ _)
  refine h2.trans ?_
  have h4 : ∀ a : Mach, Silent a a.dropP3 := fun a => silent_foldl _ (fun m s => silent_ite (silent_wr _ _ _ _) (.refl m)) _ a
  have h6 : ∀ a : Mach, Silent a (a.tapFit c) := fun a => silent_ite (.refl a) (silent_dbg a _)
  exact (silent_dbg m2 _).trans (Silent.trans (silent_ite (h4 _) (.refl _)) ((h6 _).trans (silent_ite (silent_pwr _ _) (.refl _))))

theorem silent_ivUsed (m : Mach) (c : ModeCtl) (ses : Nat) : Silent m (m.ivUsed c ses) := by
  unfold Mach.ivUsed Mach.nextEpoch Mach.wickEnd
  dsimp only
  refine silent_ite (silent_same rfl rfl) ?_
  generalize hm1 : m.bump O.bootEpoch _ _ = m1
  have h1 : Silent m m1 := hm1 ▸ silent_wr _ _ _ _
  have h2 : ∀ (k : Clk) (x : Sec), k.noteNum = m1.clk.noteNum → Silent m { m1 with clk := k, sec := x } := fun k x h => h1.trans (silent_same h rfl)
  split
  · refine Silent.trans ?_ (silent_dbgSettle _ _ _ _ _)
    refine Silent.trans ?_ (silent_wr _ _ _ _)
    refine Silent.trans ?_ (silent_wr _ _ _ _)
    exact (h2 _ _ rfl).trans (silent_dbg _ _)
  · exact h2 _ _ rfl

theorem silent_noteSend (m : Mach) (c : ModeCtl) (slot r : Nat) : Silent m (m.noteSend c slot r) := by
  unfold Mach.noteSend
  dsimp only
  have h : ∀ (a : Mach) (path dest k : Nat), Silent a (a.inbandOut path dest k) := fun a _ _ _ => silent_ite (silent_same rfl rfl) (.refl a)
  exact (silent_bump _ _ _ _).trans ((silent_emit _ _).trans ((h _ _ _ _).trans (silent_ivUsed _ _ _)))

theorem silent_noteTo (n : Mach) (c : ModeCtl) (r k s : Nat) : Silent n (n.noteTo c r k s) := by
  unfold Mach.noteTo
  dsimp only
  have h2 : ∀ (k : Clk), k.noteNum = n.clk.noteNum → Silent n { n with clk := k } := fun k h => silent_same h rfl
  have h3 : ∀ (a : Mach) (k : Clk), k.noteNum = a.clk.noteNum → Silent a { a with clk := k } := fun a k h => silent_same h rfl
  refine silent_ite (.refl n) (silent_ite ?_ ?_)
  · exact (h2 _ rfl).trans (silent_noteSend _ _ _ _)
  · refine Silent.trans (silent_bump n O.subDropped s 1) ?_
    exact h3 _ _ rfl

theorem noteLog_area (x : Nat) : O.noteLog.ekey 0 (x % 4096) / 72057594037927936 = 0x20 := by
  simp only [ObjDef.ekey, ObjDef.key, O.noteLog, Nat.shiftLeft_eq]
  omega

theorem silent_ent {m n : Mach} (h : Silent m n) (x : Nat) : n.ent O.noteLog 0 (x % 4096) = m.ent O.noteLog 0 (x % 4096) :=
  h.2 _ (noteLog_area x) _

/-- The record of a notification (Table 5.8). -/
def noteRec (m : Mach) (c : ModeCtl) (k fn obj code arg : Nat) : Nat :=
  pack [(4, m.clk.noteNum), (2, k), (2, fn), (12, m.now), (4, obj), (1, code), (1, c.mode.code), (6, arg)]

theorem note_eq (m : Mach) (c : ModeCtl) (k fn obj code arg : Nat) :
    m.note c k fn obj code arg =
      (List.range 16).foldl (fun n s => n.noteTo c (noteRec m c k fn obj code arg) k s)
        { m.setEnt O.noteLog 0 (m.clk.noteNum % 4096) (noteRec m c k fn obj code arg) with clk.noteNum := (m.clk.noteNum + 1) % 2 ^ 32 } := rfl

theorem note_log_aux (c : ModeCtl) (a : Mach) (r k x y : Nat) (l : List Nat) (h : a.ent O.noteLog 0 (x % 4096) = r) :
    (l.foldl (fun (n : Mach) s => n.noteTo c r k s) { a with clk.noteNum := y }).clk.noteNum = y ∧
      (l.foldl (fun (n : Mach) s => n.noteTo c r k s) { a with clk.noteNum := y }).ent O.noteLog 0 (x % 4096) = r := by
  have g := silent_foldl (fun (n : Mach) s => n.noteTo c r k s) (fun n s => silent_noteTo n c r k s) l { a with clk.noteNum := y }
  refine ⟨g.1, (silent_ent g x).trans ?_⟩
  exact (ent_of_tabs rfl _ _ _).trans h

/-- What a notification puts in the log (R172). -/
theorem note_log (m : Mach) (c : ModeCtl) (k fn obj code arg : Nat) :
    (m.note c k fn obj code arg).clk.noteNum = (m.clk.noteNum + 1) % 2 ^ 32 ∧
      (m.note c k fn obj code arg).ent O.noteLog 0 (m.clk.noteNum % 4096) = noteRec m c k fn obj code arg := by
  rw [note_eq]
  have h := note_log_aux c (m.setEnt O.noteLog 0 (m.clk.noteNum % 4096) (noteRec m c k fn obj code arg)) (noteRec m c k fn obj code arg) k m.clk.noteNum ((m.clk.noteNum + 1) % 2 ^ 32) (List.range 16)
    (ent_setEnt_same m O.noteLog 0 (m.clk.noteNum % 4096) (noteRec m c k fn obj code arg))
  dsimp only at h ⊢
  exact h
/-- The lifetime count that goes with a fault of a class. -/
theorem fault_count (m : Mach) (k : Nat) :
    Raised m (if k = 0x03 then m.adt 28 else if k = 0x0D then m.adt 29 else if k = 0x07 then m.adt 33 else m) :=
  raised_ite (raised_adt _ _ _) (raised_ite (raised_adt _ _ _) (raised_ite (raised_adt _ _ _) (.refl m)))

theorem Raised.suppressed {m n : Mach} (h : Raised m n) (f : FaultRep) : n.fltSuppressed f = m.fltSuppressed f := by
  unfold Mach.fltSuppressed
  cases f.against with
  | none => rfl
  | some t =>
    simp only [Mach.cont, h.flt, h.ns_eq]
    rfl

/-- The record that a fault puts in the queue (R584). -/
def faultRec (m : Mach) (f : FaultRep) : FltRec :=
  ⟨m.flt.seq, m.now, f.tile, f.cls, f.detail, f.arg, m.fltSuppressed f, false, false, clsLevel f.cls⟩

/-- The machine with a fault's lifetime count and sequence number, before its record is put in the queue. -/
theorem fault_eq (m : Mach) (c : ModeCtl) (f : FaultRep) :
    ∃ n, Raised { m with flt.seq := (m.flt.seq + 1) % 2 ^ 32 } n ∧ m.fault c f = n.fltPut c (faultRec m f) := by
  unfold Mach.fault
  dsimp only
  have hr := fault_count m f.cls
  revert hr
  generalize (if f.cls = 0x03 then m.adt 28 else if f.cls = 0x0D then m.adt 29 else if f.cls = 0x07 then m.adt 33 else m) = n
  intro hr
  refine ⟨{ n with flt.seq := (n.flt.seq + 1) % 2 ^ 32 }, ?_, ?_⟩
  · have hf := hr.flt
    exact { frc := hr.frc, free := hr.free, pend := hr.pend, fns := hr.fns, status := hr.status, value := hr.value, objs := hr.objs,
            tabs := hr.tabs, pwr := hr.pwr, trn := hr.trn, tb := hr.tb, sec := hr.sec, flt := by simp only [hf], trm := hr.trm, dp := hr.dp }
  · rw [faultRec, hr.suppressed f, hr.now_eq, hr.flt]

/-- A fault found while fewer than 255 records wait: its record stands last in the queue (R584, R588), and nothing else changes but a
lifetime count. -/
theorem fault_queue (m : Mach) (c : ModeCtl) (f : FaultRep) (h : m.flt.queue.length < 255) :
    (m.fault c f).flt = { m.flt with seq := (m.flt.seq + 1) % 2 ^ 32, queue := m.flt.queue ++ [faultRec m f] } ∧
      Raised { m with flt := (m.fault c f).flt } (m.fault c f) := by
  obtain ⟨n, hr, e⟩ := fault_eq m c f
  have hf := hr.flt
  have hq : n.flt.queue.length < 255 := by rw [hf]; exact h
  rw [e]
  unfold Mach.fltPut
  simp only [hq, if_true]
  refine ⟨by rw [hf], ?_⟩
  exact { frc := hr.frc, free := hr.free, pend := hr.pend, fns := hr.fns, status := hr.status, value := hr.value, objs := hr.objs,
          tabs := hr.tabs, pwr := hr.pwr, trn := hr.trn, tb := hr.tb, sec := hr.sec, flt := rfl, trm := hr.trm, dp := hr.dp }

/-- `n` differs from `m` at most in what a fault found writes: the fault state, the objects of area B0, and what raising something writes. -/
structure Faulted (m n : Mach) : Prop where
  frc : n.com.frc = m.com.frc
  free : n.com.free = m.com.free
  pend : n.com.pend = m.com.pend
  fns : n.com.fns = m.com.fns
  status : n.com.status = m.com.status
  value : n.com.value = m.com.value
  objs : ∀ k, Spare k → k / 16777216 ≠ 0xB0 → ∀ d, mget d n.com.objs k = mget d m.com.objs k
  tabs : ∀ k, Apart (k / 72057594037927936) → ∀ d, mget d n.com.tabs k = mget d m.com.tabs k
  pwr : n.pwr = { m.pwr with override := n.pwr.override }
  trn : n.trn = m.trn
  tb : n.tb = m.tb
  sec : n.sec = { m.sec with slots := n.sec.slots }
  trm : n.trm = { m.trm with counters := n.trm.counters, evSeq := n.trm.evSeq, evSec := n.trm.evSec, evN := n.trm.evN }
  dp : n.dp = m.dp

namespace Faulted

variable {m n p : Mach}

theorem refl (m : Mach) : Faulted m m := by
  constructor <;> intros <;> rfl

theorem trans (h : Faulted m n) (g : Faulted n p) : Faulted m p where
  frc := g.frc.trans h.frc
  free := g.free.trans h.free
  pend := g.pend.trans h.pend
  fns := g.fns.trans h.fns
  status := g.status.trans h.status
  value := g.value.trans h.value
  objs k a b d := (g.objs k a b d).trans (h.objs k a b d)
  tabs k a d := (g.tabs k a d).trans (h.tabs k a d)
  pwr := by rw [g.pwr, h.pwr]
  trn := g.trn.trans h.trn
  tb := g.tb.trans h.tb
  sec := by rw [g.sec, h.sec]
  trm := by rw [g.trm, h.trm]
  dp := g.dp.trans h.dp

/-- Raising something is no more than a fault found; the fault state may differ from the start. -/
theorem of_raised {a : Flt} (h : Raised { m with flt := a } n) : Faulted m n :=
  { frc := h.frc, free := h.free, pend := h.pend, fns := h.fns, status := h.status, value := h.value, objs := fun k b _ => h.objs k b, tabs := h.tabs,
    pwr := h.pwr, trn := h.trn, tb := h.tb, sec := h.sec, trm := h.trm, dp := h.dp }

/-- An object of another area reads as before. -/
theorem rd (h : Faulted m n) {o : ObjDef} {i : Nat} (a : Apart o.area) (b : o.area ≠ 0xB0) (hs : o.sub < 256) (hi : o.item + i < 65536) :
    n.rd o i = m.rd o i :=
  rd_of_key (h.objs _ (by
    have := key_area hs hi
    exact ⟨by omega, by omega, fun e => absurd (this ▸ e) a.1⟩) (by
    have := key_area hs hi
    omega))

theorem fn_eq (h : Faulted m n) (f : Nat) : n.fn f = m.fn f := by
  simp [Mach.fn, h.fns]

theorem fst_eq (h : Faulted m n) (f : Nat) : n.fst f = m.fst f := by
  simp [Mach.fst, Mach.fn, h.fns]

theorem avs_eq (h : Faulted m n) (d : Nat) : n.avs d = m.avs d := by
  have := congrArg Pwr.avs h.pwr
  simpa [Mach.avs] using congrArg (fun l => mget {} l d) this

theorem ns_eq (h : Faulted m n) : n.ns = m.ns := by
  simp [Mach.ns, h.frc]

theorem now_eq (h : Faulted m n) : n.now = m.now := by
  simp [Mach.now, Mach.adj, Mach.adjAt, h.frc, h.tb]

end Faulted

/-- An object of area B0 written. -/
theorem faulted_wr (m : Mach) {o : ObjDef} {i : Nat} (v : Nat) (a : o.key i / 16777216 = 0xB0) : Faulted m (m.wr o i v) where
  frc := rfl
  free := rfl
  pend := rfl
  fns := rfl
  status := rfl
  value := rfl
  objs k _ b d := objs_wr_ne m v (fun e => b (by rw [e]; exact a)) d
  tabs _ _ _ := rfl
  pwr := rfl
  trn := rfl
  tb := rfl
  sec := rfl
  trm := rfl
  dp := rfl

/-- Fault state replaced. -/
theorem faulted_flt (m : Mach) (a : Flt) : Faulted m { m with flt := a } := by
  constructor <;> intros <;> rfl

/-- A record put where 255 wait: the queue holds an OVERFLOW record, latched where it is new (R588). -/
theorem fltPut_overflow (m : Mach) (c : ModeCtl) (r : FltRec) (h : 255 ≤ m.flt.queue.length) :
    (m.fltPut c r).flt.queue.any (·.overflow) = true ∧
      (m.flt.queue.any (·.overflow) = false → (m.fltPut c r).rd O.fltOverflowLatch = 1) ∧ Faulted m (m.fltPut c r) := by
  unfold Mach.fltPut
  rw [if_neg (by omega)]
  dsimp only
  generalize hn : (if r.init = 0 then m else m.setBlk (fltKey r.tile r.detail)
    { mget {} m.flt.blk (fltKey r.tile r.detail) with pendLevel := max (mget {} m.flt.blk (fltKey r.tile r.detail)).pendLevel r.init }) = n
  have hb : Faulted m n ∧ n.flt.queue = m.flt.queue := by
    subst hn
    split
    · exact ⟨.refl m, rfl⟩
    · exact ⟨faulted_flt m _, rfl⟩
  obtain ⟨hf, hq⟩ := hb
  have h1 : Faulted m (n.bump O.fltOverflow) := hf.trans (faulted_wr n _ (by decide))
  by_cases ho : n.flt.queue.any (·.overflow) = true
  · have e : (n.bump O.fltOverflow).flt.queue.any (·.overflow) = true := ho
    rw [if_pos e]
    refine ⟨?_, ?_, h1.trans (faulted_flt _ _)⟩
    · simp only [List.any_eq_true, List.mem_map] at ho ⊢
      obtain ⟨q, hm, hq'⟩ := ho
      exact ⟨{ q with arg := q.arg + 1 }, ⟨q, hm, by simp [hq']⟩, hq'⟩
    · rw [← hq, ho]
      exact fun z => absurd z (by decide)
  · have e : ¬ (n.bump O.fltOverflow).flt.queue.any (·.overflow) = true := ho
    rw [if_neg e]
    generalize hk : ({ n.bump O.fltOverflow with
      flt.queue := (n.bump O.fltOverflow).flt.queue ++ [⟨(n.bump O.fltOverflow).flt.seq, (n.bump O.fltOverflow).now, 0xFFFF, 0, 0, 1, false, false, true, 0⟩],
      flt.seq := ((n.bump O.fltOverflow).flt.seq + 1) % 2 ^ 32 } : Mach) = k
    have hk1 : Faulted m k ∧ k.flt.queue.any (·.overflow) = true := by
      subst hk
      exact ⟨h1.trans (faulted_flt _ _), by simp⟩
    obtain ⟨hkf, hkq⟩ := hk1
    have g : Raised (k.wr O.fltOverflowLatch 0 1) ((((k.wr O.fltOverflowLatch 0 1).adt 27).adtEvent c 7 0).note c 5 0xFFFF 0 0
        (fltArg 0xFFFF 0 0 3 (n.bump O.fltOverflow).flt.seq)) :=
      ((raised_adt _ _ _).trans (raised_adtEvent _ _ _ _)).trans (raised_note _ _ _ _ _ _ _)
    refine ⟨?_, fun _ => ?_, ?_⟩
    · rw [g.flt]
      exact hkq
    · rw [g.rd (by decide) (by decide) (by decide), rd_wr_same]
    · exact hkf.trans ((faulted_wr k 1 (by decide)).trans (Faulted.of_raised (a := (k.wr O.fltOverflowLatch 0 1).flt) g))

/-- A fault found while 255 records wait: the queue holds an OVERFLOW record, latched where it is new (R588). -/
theorem fault_overflow (m : Mach) (c : ModeCtl) (f : FaultRep) (h : 255 ≤ m.flt.queue.length) :
    (m.fault c f).flt.queue.any (·.overflow) = true ∧
      (m.flt.queue.any (·.overflow) = false → (m.fault c f).rd O.fltOverflowLatch = 1) ∧ Faulted m (m.fault c f) := by
  obtain ⟨n, hr, e⟩ := fault_eq m c f
  have hq : n.flt.queue = m.flt.queue := by rw [hr.flt]
  obtain ⟨h1, h2, h3⟩ := fltPut_overflow n c (faultRec m f) (by rw [hq]; exact h)
  rw [e, ← hq]
  exact ⟨h1, h2, (Faulted.of_raised hr).trans h3⟩

/-- A fault found leaves everything but the fault state and its objects, the logs and the lifetime counts. -/
theorem fault_faulted (m : Mach) (c : ModeCtl) (f : FaultRep) : Faulted m (m.fault c f) := by
  by_cases h : m.flt.queue.length < 255
  · exact Faulted.of_raised (fault_queue m c f h).2
  · exact (fault_overflow m c f (by omega)).2.2

end Sys2Proof.Machine
end

