-- ==== Sys2Proof/Laws/Row.lean ====
section
/-! SUPPORT. How a row completes: from what its meaning is to the next state, and a host write whose checks pass. -/

namespace Sys2Proof.Machine

variable {i : Instr} {s : State}

theorem completes_run {f : ModeCtl → Mach → Mach} {P : Mach → Prop} (h : s.Live) (e : exec i s = s.run f) (p : P (f s.mc s.m)) : Completes i s P :=
  ⟨f s.mc s.m, by rw [e]; simp [State.run, State.actMode, h.1, h.2], p⟩

theorem completes_lan {f : ModeCtl → Mach → Mach} {P : Mach → Prop} (h : s.Powered) (e : exec i s = s.lan f) (p : P (f s.mc s.m)) : Completes i s P :=
  ⟨f s.mc s.m, by rw [e]; simp [State.lan, show s.mc.mode ≠ .dark from h], p⟩

theorem moves_move {f : ModeCtl → Mach → ModeCtl × Mach} {P : ModeCtl → Mach → Prop} (h : s.Live) (e : exec i s = s.move f)
    (p : P (f s.mc s.m).1 (f s.mc s.m).2) : Moves i s P :=
  ⟨_, _, by rw [e]; simp [State.move, State.actMode, h.1, h.2], p⟩

theorem moves_lanMove {f : ModeCtl → Mach → ModeCtl × Mach} {P : ModeCtl → Mach → Prop} (h : s.Powered) (e : exec i s = s.lanMove f)
    (p : P (f s.mc s.m).1 (f s.mc s.m).2) : Moves i s P :=
  ⟨_, _, by rw [e]; simp [State.lanMove, show s.mc.mode ≠ .dark from h], p⟩

theorem guarded_admits {ses : Nat} {o : ObjDef} {k v : Nat} (h : s.Admits ses o k v) (f : Mach → Mach) :
    s.m.guarded s.mc ses o k v f = f s.m := by
  obtain ⟨h1, h2, h3⟩ := h
  simp [Mach.guarded, h1, h2, h3]

/-- What raising something leaves as it was. -/
theorem Raised.leaves {m n : Mach} (h : Raised m n) : Leaves raiseAreas m n where
  dp := h.dp
  fns := h.fns
  pend := h.pend
  trn := h.trn
  life := by rw [h.sec]
  objs o j a hs hi := h.rd (by simp only [raiseAreas, List.mem_cons, List.not_mem_nil, or_false, not_or] at a; exact ⟨a.1, a.2.1, a.2.2.2⟩) hs hi

theorem Leaves.refl (l : List Nat) (m : Mach) : Leaves l m m := by constructor <;> intros <;> rfl

theorem Leaves.trans {l : List Nat} {m n p : Mach} (h : Leaves l m n) (g : Leaves l n p) : Leaves l m p where
  dp := g.dp.trans h.dp
  fns := g.fns.trans h.fns
  pend := g.pend.trans h.pend
  trn := g.trn.trans h.trn
  life := g.life.trans h.life
  objs o j a hs hi := (g.objs o j a hs hi).trans (h.objs o j a hs hi)

theorem Leaves.mono {l k : List Nat} {m n : Mach} (h : Leaves l m n) (g : ∀ a ∈ l, a ∈ k) : Leaves k m n :=
  { h with objs := fun o j a hs hi => h.objs o j (fun b => a (g _ b)) hs hi }

theorem leaves_wr {l : List Nat} (m : Mach) {o : ObjDef} {j : Nat} (v : Nat) (a : o.area ∈ l) (hs : o.sub < 256) (hj : o.item + j < 65536) :
    Leaves l m (m.wr o j v) where
  dp := rfl
  fns := rfl
  pend := rfl
  trn := rfl
  life := rfl
  objs _ _ b hs' hi' := rd_wr_ne m v (key_ne hs' hs hi' hj (Or.inl fun e => b (e ▸ a)))

theorem leaves_bump {l : List Nat} (m : Mach) {o : ObjDef} {j : Nat} (n : Nat) (a : o.area ∈ l) (hs : o.sub < 256) (hj : o.item + j < 65536) :
    Leaves l m (m.bump o j n) := leaves_wr m _ a hs hj

theorem leaves_ite {l : List Nat} {m a b : Mach} {q : Prop} [Decidable q] (h : Leaves l m a) (g : Leaves l m b) : Leaves l m (if q then a else b) := by
  split
  · exact h
  · exact g

theorem leaves_foldl {l : List Nat} {α : Type} (f : Mach → α → Mach) (r : List α) (h : ∀ m a, a ∈ r → Leaves l m (f m a)) (m : Mach) :
    Leaves l m (r.foldl f m) := by
  induction r generalizing m with
  | nil => exact .refl l m
  | cons a r ih => exact (h m a (by simp)).trans (ih (fun n b hb => h n b (by simp [hb])) _)

/-- What a fault found leaves as it was. -/
theorem Faulted.leaves {m n : Mach} (h : Faulted m n) : Leaves raiseAreas m n where
  dp := h.dp
  fns := h.fns
  pend := h.pend
  trn := h.trn
  life := by rw [h.sec]
  objs o j a hs hi := by
    simp only [raiseAreas, List.mem_cons, List.not_mem_nil, or_false, not_or] at a
    exact h.rd ⟨a.1, a.2.1, a.2.2.2⟩ a.2.2.1 hs hi

/-- What a fault puts in the queue, and what it leaves. -/
theorem faultAt_spec (m : Mach) (c : ModeCtl) (tile cls detail : Nat) :
    AppendsFault m (m.faultAt c tile cls detail) tile cls detail ∧ Faulted m (m.faultAt c tile cls detail) := by
  refine ⟨⟨fun h => ?_, fun h => ?_⟩, fault_faulted _ _ _⟩
  · obtain ⟨hf, -⟩ := fault_queue m c { tile := tile, cls := cls, detail := detail, arg := 0, against := none } h
    exact ⟨_, by rw [Mach.faultAt, hf], rfl, rfl, rfl, rfl, rfl⟩
  · obtain ⟨ho, hl, -⟩ := fault_overflow m c { tile := tile, cls := cls, detail := detail, arg := 0, against := none } h
    exact ⟨ho, hl⟩

end Sys2Proof.Machine
end

