-- ==== Sys2Proof/Tests/Slice0.lean ====
section
/-! SUPPORT. Tests: a witness for the hypotheses of every statement and for its clauses, with what one step then does, and an ill-formed command
for each check of well-formedness. -/

namespace Sys2Proof.Tests

open Sys2Proof.Machine

set_option maxRecDepth 100000

/-- The block after reset, put into a mode. -/
def bench (c : Mode) : State := { State.reset with mc := { mode := c, target := c } }

/-- A state with its machine changed. -/
def on (s : State) (f : Mach → Mach) : State := { s with m := f s.m }

/-- Whether a command gives a next state of which a test holds. -/
def gives (i : Instr) (s : State) (f : State → Bool) : Bool := match exec i s with | .next t => f t | _ => false

/-! Power, pace and temperature. -/

/-- RailsJudged: 599 mV is below the limit in LIT and 600 mV is not; 499 mV in BANKED. -/
theorem test_undervolt :
    (bench .lit).Live ∧ (bench .lit).m.diePowered (bench .lit).mc 3 = true ∧ (bench .lit).m.flt.queue.length < 255 ∧
      gives (.coreUndervolt 3 599) (bench .lit) (fun t => t.m.flt.queue.length == 1) = true ∧
      gives (.coreUndervolt 3 600) (bench .lit) (fun t => t.m.flt.queue.isEmpty) = true ∧
      gives (.coreUndervolt 3 499) (bench .banked) (fun t => t.m.flt.queue.length == 1) = true := by decide

/-- RailsJudged: a rail at the end of its range is ON, 1 mV above it is out of range, and a shore rail with its enable high trips the device. -/
theorem test_rail_sample :
    (bench .lit).Live ∧
      gives (.railOutOfRange 4 (railRange (bench .lit).mc 4).2) (bench .lit) (fun t => t.m.rd O.railState 4 == 2) = true ∧
      gives (.railOutOfRange 4 ((railRange (bench .lit).mc 4).2 + 1)) (on (bench .lit) fun m => m.wr O.railEn 0 7)
        (fun t => t.m.rd O.railState 4 == 3 && t.m.pwr.tripped && t.m.rd O.railEn == 0) = true ∧
      gives (.railOutOfRange 0 851) (bench .lit) (fun t => t.m.pwr.tripped) = true ∧
      gives (.railOutOfRange 0 850) (bench .lit) (fun t => !t.m.pwr.tripped) = true ∧
      (bench .lit).m.sinks (bench .lit).mc 0 599 = true ∧ (bench .lit).m.sinks (bench .lit).mc 0 600 = false ∧
      gives (.railOutOfRange 0 599) (bench .lit) (fun t => t.m.flt.queue.length == 1) = true := by decide

/-- TemperatureActs: a die trips at 120 °C and not 1/16 °C below; the Lantern die at 125 °C; a stack at 120 °C. -/
theorem test_thermal_trip :
    (bench .lit).Live ∧ (bench .lit).m.pwr.tripped = false ∧
      gives (.thermalTrip 0 1920) (on (bench .lit) fun m => m.wr O.railEn 0 7) (fun t => !t.m.thermtripN && t.m.rd O.railEn == 0) = true ∧
      gives (.thermalTrip 0 1919) (bench .lit) (fun t => t.m.thermtripN) = true ∧
      gives (.thermalTrip 12 1999) (bench .lit) (fun t => t.m.thermtripN) = true ∧
      gives (.thermalTrip 20 120) (bench .lit) (fun t => !t.m.thermtripN) = true := by decide

/-- TemperatureActs: DIE-TEMP at its limit raises one record and marks the die warm; 5 °C below the limit the mark goes. -/
theorem test_die_temp :
    (bench .lit).m.flt.queue.length < 255 ∧ sgn 32 ((bench .lit).m.rd O.dieTempLimit 0) = 1680 ∧ mget false (bench .lit).m.pwr.warm 0 = false ∧
      gives (.dieTempLimit 0 1680) (bench .lit) (fun t => t.m.flt.queue.length == 1 && mget false t.m.pwr.warm 0) = true ∧
      gives (.thermalTrip 0 1919) (bench .lit) (fun t => t.m.flt.queue.length == 1 && t.m.thermtripN) = true ∧
      gives (.dieTempLimit 0 1680) (on (bench .lit) fun m => { m with pwr.warm := [(0, true)] }) (fun t => t.m.flt.queue.isEmpty) = true ∧
      gives (.dieTempLimit 0 1600) (on (bench .lit) fun m => { m with pwr.warm := [(0, true)] }) (fun t => !mget false t.m.pwr.warm 0) = true ∧
      gives (.dieTempLimit 0 1601) (on (bench .lit) fun m => { m with pwr.warm := [(0, true)] }) (fun t => mget false t.m.pwr.warm 0) = true := by
  decide

/-- The block in LIT with its pace loops enabled at 720 mV. -/
def loops : State := on (bench .lit) fun m => (m.wr O.avsLoopEn 0 1).wr O.coreVcoreSet 0 720

/-- PaceReading: readings at both ends of the plausible range, one beyond each that excludes the tile, and a tile without power. -/
theorem test_pace_reading :
    loops.Live ∧ loops.m.flt.queue.length < 255 ∧ loops.m.tilePower loops.mc 0 = 1 ∧ loops.m.tilePower (bench .pilot).mc 0 ≠ 1 ∧
      tileDie 0 = some 0 ∧ loops.m.rdB O.avsLoopEn = true ∧ (loops.m.avs 0).failed = false ∧
      gives (.paceWindow 0 150) loops (fun t => t.m.rd O.tilePaceEq 0 == 150 && !mget false t.m.pwr.excl 0) = true ∧
      gives (.paceWindow 0 2000) loops (fun t => !mget false t.m.pwr.excl 0) = true ∧
      gives (.paceWindow 0 149) loops (fun t => mget false t.m.pwr.excl 0 && t.m.flt.queue.length == 1) = true ∧
      gives (.paceWindow 0 2001) loops (fun t => mget false t.m.pwr.excl 0 && decide (t.m.rd O.vcoreStart ≤ t.m.rd O.coreVcoreSet 0)) = true ∧
      gives (.paceWindow 0 400) (bench .pilot) (fun t => t.m.rd O.tilePaceEq 0 == 0) = true := by decide

/-- The loops with the worst cycle of die 0 above the target. -/
def slow : State := on loops fun m => m.wr O.tilePaceEq 0 900

/-- The loops with the worst cycle of die 0 below the target for the fourth interval. -/
def quick : State :=
  on loops fun m => (m.wr O.tilePaceEq 0 200).setAvs 0 { m.avs 0 with below := 3 }

/-- LoopStep: 5 mV up while the worst cycle is above the target, and 5 mV down at the fourth interval below it, within VCORE-MIN to VCORE-MAX. -/
theorem test_loop_step :
    slow.Live ∧ slow.m.rdB O.avsLoopEn = true ∧ slow.m.diePowered slow.mc 0 = true ∧ (slow.m.avs 0).failed = false ∧
      slow.m.dieExcluded slow.mc 0 = false ∧ slow.m.rd O.vcoreMin ≤ slow.m.rd O.coreVcoreSet 0 ∧ slow.m.rd O.coreVcoreSet 0 ≤ slow.m.rd O.vcoreMax ∧
      slow.m.paceTarget slow.mc < slow.m.worst slow.mc 0 ∧
      gives (.avsInterval 0 719 5000) slow (fun t => t.m.rd O.coreVcoreSet 0 == 725) = true ∧
      quick.m.worst quick.mc 0 + quick.m.rd O.avsHysteresis < quick.m.paceTarget quick.mc ∧ quick.m.dieExcluded quick.mc 0 = false ∧
      gives (.avsInterval 0 719 5000) quick (fun t => t.m.rd O.coreVcoreSet 0 == 715) = true := by decide

/-- LoopFailsAndIsWritten: a rail that does not answer fails its loop, and the next enable clears it. -/
theorem test_loop_fails :
    loops.Live ∧ loops.m.rdB O.avsLoopEn = true ∧ loops.m.diePowered loops.mc 0 = true ∧ (loops.m.avs 0).failed = false ∧
      loops.m.flt.queue.length < 255 ∧
      gives (.avsFailure 0) loops (fun t => (t.m.avs 0).failed && t.m.avsState t.mc 0 == 5 && t.m.flt.queue.length == 1) = true := by decide

/-- The block in a mode with its pace loops off. -/
def off (c : Mode) : State := on (bench c) fun m => m.wr O.avsLoopEn 0 0

/-- LoopFailsAndIsWritten: AVS-LOOP-EN and CORE-VCORE-SET are written in LIT. -/
theorem test_loop_objects :
    (bench .lit).Live ∧ (bench .lit).Admits 0 O.avsLoopEn 0 1 ∧ (bench .lit).Admits 0 O.avsLoopEn 0 0 ∧ (off .lit).Admits 0 O.coreVcoreSet 3 700 ∧
      (off .lit).Live ∧ (off .lit).m.rd O.avsLoopEn = 0 ∧
      gives (.avsLoopEnWrite 0 1) (off .lit) (fun t => t.m.rd O.avsLoopEn == 1) = true ∧
      gives (.coreVcoreSetWrite 0 3 700) (off .lit) (fun t => t.m.rd O.coreVcoreSet 3 == 700) = true := by decide

/-- Die 0 at its ceiling. -/
def ceiling : State :=
  on slow fun m => ((m.wr O.coreVcoreSet 0 (m.rd O.vcoreMax)).wr O.corePaceWorst 0 900).setAvs 0 { m.avs 0 with ceil := some 0 }

/-- LoopFailsAndIsWritten: a die AT-CEILING sends PACE-DEFICIT once. -/
theorem test_deficit :
    ceiling.Live ∧ ceiling.m.avsState ceiling.mc 0 = 3 ∧ (ceiling.m.avs 0).deficit = none ∧
      gives (.paceDeficit 0) ceiling (fun t => (t.m.avs 0).deficit == some 1000000 && t.m.clk.noteNum == 1) = true := by decide

/-! Modes. -/

/-- The block as its owner has it in a mode: OWNED, P2 on session 0 by an open key store. -/
def owned (c : Mode) : State := on (bench c) fun m => { m with sec.life := .test, trm.stored := none }

/-- ModeRequestAnswered: every status that a request draws. -/
theorem test_mode_request_judged :
    (owned .pilot).Live ∧ modeReqRow 0 .primed = some (.modeReqPrimed 0) ∧ (owned .pilot).AsksMode 0 .primed ∧
      (owned .pilot).m.modeStatus (owned .pilot).mc 0 .probe = .privilege ∧
      (owned .pilot).m.modeStatus { (owned .pilot).mc with trans := some .toLit } 0 .lit = .busy ∧
      (owned .pilot).m.modeStatus (owned .pilot).mc 0 .pilot = .ok ∧
      (bench .pilot).m.modeStatus (bench .pilot).mc 0 .primed = .lifecycle ∧
      (owned .pilot).m.modeStatus (owned .pilot).mc 0 .lit = .mode ∧
      (owned .pilot).m.modeStatus (owned .pilot).mc 0 .primed = .deferred ∧
      gives (.modeReqPrimed 0) (owned .pilot) (fun t => t.mc.mode == .kindle && t.mc.target == .primed) = true := by decide

/-- ModeRequestAnswered: requests accepted in the modes that Table 3.2 names. -/
theorem test_mode_request_accepted :
    (owned .lit).Live ∧ (owned .lit).AsksMode 0 .ebb ∧ (owned .lit).m.modeStatus (owned .lit).mc 0 .ebb = .deferred ∧
      gives (.modeReqEbb 0) (owned .lit) (fun t => t.mc.mode == .ebb && t.mc.ret == .lit) = true ∧
      gives (.modeReqBanked 0) (owned .lean) (fun t => t.mc.mode == .ebb && t.mc.target == .banked && t.mc.ret == .lean) = true ∧
      gives (.modeReqLit 0) (owned .lean) (fun t => t.mc.mode == .lean && t.mc.target == .lit) = true ∧
      gives (.modeReqLit 0) (owned .ebb) (fun t => t.mc.mode == .ebb && t.mc.target == .lit) = true ∧
      gives (.modeReqLean 0) (owned .banked) (fun t => t.mc.mode == .banked && t.mc.target == .lean) = true ∧
      gives (.modeReqPilot 0) (owned .primed) (fun t => t.mc.mode == .pilot) = true ∧
      gives (.modeReqQuench 0) (owned .lit) (fun t => t.mc.mode == .quench) = true ∧
      gives (.modeReqTrim 0) (owned .pilot) (fun t => t.mc.mode == .kindle && t.mc.target == .trim) = true := by decide

/-- RailsDecideDark: rails with a reference clock bring PILOT, without one start-up is held. -/
theorem test_rails :
    State.reset.mc.mode = .dark ∧
      gives (.lanternRailValid 0 true false true []) (on State.reset fun m => { m with trm.stored := none }) (fun t => t.mc.mode == .pilot && t.m.ready t.mc) = true ∧
      gives (.lanternRailValid 0 false true true []) State.reset (fun t => t.mc.mode == .dark && !t.m.ready t.mc) = true ∧
      gives .lanternRailLoss (bench .lit) (fun t => t.mc.mode == .dark) = true := by decide

/-- The block in KINDLE towards a mode. -/
def kindling (g : Mode) : State := { bench .kindle with mc := { mode := .kindle, target := g, trans := some (.kindle g) } }

/-- TransitionsEnd: KINDLE ends in the mode it was for, or in PILOT. -/
theorem test_kindle_ends :
    (kindling .primed).Live ∧ (kindling .primed).mc.mode = .kindle ∧
      gives (.kindleComplete []) (kindling .primed) (fun t => t.mc.mode == .primed && t.m.rd O.kindleResult == 1) = true ∧
      gives (.kindleAbort .hbm) (kindling .primed) (fun t => t.mc.mode == .pilot) = true ∧
      gives (.kindleComplete []) (bench .lit) (fun t => t.mc.mode == .lit) = true := by decide

/-- LEAN with a request for LIT accepted. -/
def toLit : State := { off .lean with mc := { mode := .lean, target := .lit, trans := some .toLit } }

/-- TransitionsEnd: LIT is entered once every die tracks, and otherwise only by the timeout. -/
theorem test_lean_to_lit :
    toLit.Live ∧ toLit.mc.trans = some .toLit ∧ toLit.m.guardDue = false ∧
      gives (.leanToLitEntry true) toLit (fun t => t.mc.mode == .lit) = true ∧
      (∃ d ∈ List.range 4, toLit.m.diePowered toLit.mc d = true ∧ toLit.m.avsState toLit.mc d ≠ 0) ∧
      gives (.leanToLitEntry false) toLit (fun t => t.mc.mode == .lean) = true := by decide

/-- QUENCH before its zeroising step, or after it. -/
def quenching (done : Bool) : State := { owned .quench with mc := { mode := .quench, target := .quench, trans := some (.quench done) } }

/-- TransitionsEnd: the zeroising step of QUENCH, with QUENCH-TARGET SPENT and not, and the step after it. -/
theorem test_quench :
    (quenching false).Live ∧ (quenching false).mc.trans = some (.quench false) ∧
      gives .quenchZeroise (quenching false) (fun t => t.mc.trans == some (.quench true) && decide (t.m.sec.life = .test)) = true ∧
      gives .quenchZeroise (on (quenching false) fun m => m.wr O.quenchTarget 0 1) (fun t => decide (t.m.sec.life = .spent)) = true ∧
      gives .quenchComplete (quenching true) (fun t => t.mc.mode == .pilot) = true := by decide

/-- EbbAndBanked: an empty block is drained at once; outside EBB nothing happens; the limit leaves its mark. -/
theorem test_ebb_drains :
    (bench .ebb).Live ∧ (bench .ebb).m.drainedNow = true ∧
      gives .ebbDrained (bench .ebb) (fun t => t.m.trn.drained) = true ∧ gives .ebbDrained (bench .lit) (fun t => !t.m.trn.drained) = true ∧
      gives .ebbLimitExpiry (bench .ebb) (fun t => t.m.trn.limitOver) = true ∧
      gives .ebbLimitExpiry (on (bench .ebb) fun m => { m with trn.drained := true }) (fun t => !t.m.trn.limitOver) = true := by decide

/-- EbbAndBanked: the ends of EBB and BANKED. -/
theorem test_ebb_and_banked_end :
    ({ bench .ebb with mc := { mode := .ebb, target := .lit, trans := some (.ebbReturn .lit) } } : State).Live ∧
      gives .ebbReturn { bench .ebb with mc := { mode := .ebb, target := .lit, trans := some (.ebbReturn .lit) } } (fun t => t.mc.mode == .lit) = true ∧
      gives .bankedEntry { bench .ebb with mc := { mode := .ebb, target := .banked, trans := some .drain } } (fun t => t.mc.mode == .ebb) = true ∧
      gives .bankedExitComplete { bench .banked with mc := { mode := .banked, target := .lean, trans := some (.bankedExit .lean) } }
        (fun t => t.mc.mode == .lean && t.mc.ret == .lean) = true := by decide

/-- EbbAndBanked: entry to BANKED once EBB has drained. -/
theorem test_banked_entered :
    gives .bankedEntry { on (bench .ebb) (fun m => { m with trn.drained := true }) with mc := { mode := .ebb, target := .banked, trans := some .drain } }
      (fun t => t.mc.mode == .banked) = true := by decide

/-- ResetsAccepted: a block, a die and the assembly. -/
theorem test_resets :
    (bench .lit).Live ∧ (bench .lit).Admits 0 O.resetBlock 0 0 ∧ (bench .lit).Admits 0 O.resetDie 0 23 ∧
      (owned .primed).Live ∧ (owned .primed).m.writeCheck (owned .primed).mc ((owned .primed).m.reqOf 0) O.resetAssembly 0 [] = none ∧
      gives (.resetBlock 0 0) (bench .lit) (fun t => decide (t.m.com.status = .deferred)) = true ∧
      gives (.resetDie 0 16) (bench .lit) (fun t => decide (t.m.com.status = .deferred)) = true ∧
      gives (.resetAssembly 0) (owned .primed) (fun t => t.mc.mode == .kindle) = true ∧
      gives (.resetAssembly 0) (on (owned .primed) fun m => m.wr O.trngState 0 2) (fun t => decide (t.m.com.status = .lifecycle)) = true := by decide

/-! Functions and objects. -/

/-- A state with a function in a state of Table 4.3. -/
def put (s : State) (k : FnKind) (n : Nat) (v : FnState) : State := on s fun m => m.setFn (fnNum k n) { m.fn (fnNum k n) with state := v }

/-- FunctionsCommanded: START of a basin draws each status of its states, and a rule set on no program draws RANGE with its object named. -/
theorem test_start :
    (bench .lit).Live ∧ (bench .lit).m.sesOn 0 = true ∧ fnKind 0x420 = some (.basin, 0) ∧ 1 ≤ (bench .lit).m.sesP 0 ∧
      areaOpen (bench .lit).mc.mode (fnItem 0x420).1 (fnItem 0x420).2 true = true ∧
      areaOpen (bench .primed).mc.mode (fnItem 0x420).1 (fnItem 0x420).2 true = true ∧
      gives (.fnStart 0 0x408) (bench .lit) (fun t => decide (t.m.com.status = .deferred) && decide (t.m.fst 0x408 = .starting)) = true ∧
      gives (.fnStart 0 0x408) (bench .primed) (fun t => decide (t.m.com.status = .mode) && decide (t.m.fst 0x408 = .stopped)) = true ∧
      gives (.fnStart 0 0x640) (bench .lit) (fun t => decide (t.m.com.status = .range) && decide ((t.m.fn 0x640).startErr ≠ 0)) = true ∧
      gives (.fnStart 0 0x408) (put (bench .lit) .chset 0 .running) (fun t => decide (t.m.com.status = .ok)) = true ∧
      gives (.fnStart 0 0x408) (put (bench .lit) .chset 0 .stopping) (fun t => decide (t.m.com.status = .busy)) = true ∧
      gives (.fnStart 0 0x408) (put (bench .lit) .chset 0 .faulted) (fun t => decide (t.m.com.status = .functionFaulted)) = true := by decide

/-- FunctionsCommanded: STOP of a channel set in each of its states, and during EBB. -/
theorem test_stop :
    (put (bench .lit) .chset 11 .running).Live ∧ fnKind 0x413 = some (.chset, 11) ∧ areaOpen .lit (fnItem 0x413).1 (fnItem 0x413).2 true = true ∧
      areaOpen .ebb (fnItem 0x413).1 (fnItem 0x413).2 true = true ∧
      gives (.fnStop 0 0x413) (put (bench .lit) .chset 11 .running) (fun t => decide (t.m.com.status = .deferred) && decide (t.m.fst 0x413 = .stopping)) = true ∧
      gives (.fnStop 0 0x413) (put (bench .lit) .chset 11 .starting) (fun t => decide (t.m.fst 0x413 = .starting) && (t.m.fn 0x413).stopNext) = true ∧
      gives (.fnStop 0 0x413) (put (bench .lit) .chset 11 .faulted) (fun t => decide (t.m.com.status = .functionFaulted)) = true ∧
      gives (.fnStop 0 0x413) (bench .lit) (fun t => decide (t.m.com.status = .ok)) = true ∧
      gives (.fnStop 0 0x413) (put (bench .ebb) .chset 11 .running) (fun t => t.m.trn.hostStopped == [0x413]) = true := by decide

/-- FunctionTransitionsComplete: the end of initialisation, with a STOP that waits and without; a rule set's generation passes over 0. -/
theorem test_init_complete :
    (put (bench .lit) .chset 0 .starting).Live ∧ (put (bench .lit) .chset 0 .starting).m.fst 0x408 = .starting ∧
      gives (.fnInitComplete 0x408) (put (bench .lit) .chset 0 .starting) (fun t => decide (t.m.fst 0x408 = .running)) = true ∧
      gives (.fnInitComplete 0x408) (bench .lit) (fun t => decide (t.m.fst 0x408 = .stopped)) = true ∧
      gives (.fnInitComplete 0x408) (on (bench .lit) fun m => m.setFn 0x408 { state := .starting, stopNext := true })
        (fun t => decide (t.m.fst 0x408 = .stopping) && !(t.m.fn 0x408).stopNext) = true ∧
      fnKind 0x440 = some (.ruleset, 0) ∧
      gives (.fnInitComplete 0x440) (on (put (bench .lit) .ruleset 0 .starting) fun m => m.wr O.rsGen 0 0xFFFFFFFF) (fun t => t.m.rd O.rsGen 0 == 1) = true := by
  decide

/-- FunctionTransitionsComplete: a stop completes once the channel set's channels are empty. -/
theorem test_stop_complete :
    (put (bench .lit) .chset 0 .stopping).m.fst 0x408 = .stopping ∧ (put (bench .lit) .chset 0 .stopping).m.quiet 0x408 = true ∧
      gives (.fnStopComplete 0x408) (put (bench .lit) .chset 0 .stopping) (fun t => decide (t.m.fst 0x408 = .stopped)) = true ∧
      gives (.fnStopComplete 0x408) (put (bench .lit) .chset 0 .running) (fun t => decide (t.m.fst 0x408 = .running)) = true := by decide

/-- A packet of reach 0 that arrived at port 5 with class 2. -/
def pkt0 : Pkt :=
  { reach := 0, bport := 5, lif := 0, tenant := 0, tc := 2, data := List.replicate 64 0, stamp := 0, ts := 0, flexe := false, at_ := 0, stage := .held,
    w := { tc := 2 } }

/-- A state with packet 0 of reach 0. -/
def withPkt (s : State) (x : Pkt) : State := on s fun m => m.setPkt 0 (some x)

/-- HeldPacketAges: a held packet goes under 0x13; one of another reach or stage stays, and one that is not there is no matter. -/
theorem test_hold_age :
    (withPkt (bench .lit) pkt0).Live ∧ (withPkt (bench .lit) pkt0).m.pkt 0 = some pkt0 ∧
      gives (.holdAgeExpiry 0 0) (withPkt (bench .lit) pkt0) (fun t => (t.m.pkt 0).isNone && t.m.rd O.holdAgeDrop 0 == 1) = true ∧
      gives (.holdAgeExpiry 1 0) (withPkt (bench .lit) pkt0) (fun t => (t.m.pkt 0).isSome) = true ∧
      gives (.holdAgeExpiry 0 0) (withPkt (bench .lit) { pkt0 with stage := .ctx }) (fun t => (t.m.pkt 0).isSome) = true ∧
      gives (.holdAgeExpiry 0 1) (bench .lit) (fun t => t.m.rd O.holdAgeDrop 0 == 0) = true := by decide

/-- The identifier of an instance of an object. -/
def idOf (o : ObjDef) (i : Nat) : Fin 4294967296 := Fin.ofNat _ (o.key i)

/-- ObjectWritten: an unknown object, a session that is not, a value out of range, a plain object, and a reload object that no function owns. -/
theorem test_object_write :
    (bench .lit).Powered ∧ target (idOf O.lifTcDefault 8191).val = some (.obj O.lifTcDefault 8191) ∧
      gives (.objectWrite 0 0x01FFEE00 [0]) (bench .lit) (fun t => decide (t.m.com.status = .unknownObject)) = true ∧
      gives (.objectWrite 1 0x01FFEE00 [0]) (bench .lit) (fun t => decide (t.m.com.status = .session)) = true ∧
      gives (.objectWrite 0 (idOf O.lifTcDefault 8191) [8]) (bench .lit) (fun t => decide (t.m.com.status = .range)) = true ∧
      gives (.objectWrite 0 (idOf O.lifTcDefault 8191) [7]) (bench .lit)
        (fun t => decide (t.m.com.status = .ok) && t.m.rd O.lifTcDefault 8191 == 7 && t.m.rd O.lifTcDefault 8190 == 0) = true ∧
      target (idOf O.kpGenSlot 63).val = some (.obj O.kpGenSlot 63) ∧ (bench .lit).m.owners O.kpGenSlot 63 0 = [] ∧
      gives (.objectWrite 0 (idOf O.kpGenSlot 63) [7]) (bench .lit)
        (fun t => decide (t.m.com.status = .deferred) && t.m.pendOf O.kpGenSlot 63 == some 7 && t.m.rd O.kpGenSlot 63 == 0) = true := by decide

/-- ObjectWritten: a port's shaper rate, its list STOPPED and RUNNING. -/
theorem test_object_write_reload :
    (bench .lit).m.fst (fnNum .egress 1023) = .stopped ∧ (bench .lit).m.landOk O.esPshapeRate 1023 1000000 = true ∧
      target (idOf O.esPshapeRate 1023).val = some (.obj O.esPshapeRate 1023) ∧
      gives (.objectWrite 0 (idOf O.esPshapeRate 1023) [0, 15, 66, 64]) (bench .lit)
        (fun t => decide (t.m.com.status = .ok) && t.m.rd O.esPshapeRate 1023 == 1000000) = true ∧
      gives (.objectWrite 0 (idOf O.esPshapeRate 1023) [0, 15, 66, 64]) (put (bench .lit) .egress 1023 .running)
        (fun t => decide (t.m.com.status = .deferred) && t.m.pendOf O.esPshapeRate 1023 == some 1000000 && t.m.rd O.esPshapeRate 1023 == 0) = true := by
  decide

/-- ObjectRead: the value, a pending one, a session that is not, a write-only object, and a peak set back to what it watches. -/
theorem test_object_read :
    (bench .lit).Powered ∧ target (idOf O.bpXoff 0).val = some (.obj O.bpXoff 0) ∧
      gives (.readClear 0 (idOf O.bpXoff 0)) (bench .lit) (fun t => decide (t.m.com.status = .ok) && t.m.com.value == 1024) = true ∧
      gives (.readClear 0 (idOf O.kpGenSlot 0)) (on (bench .lit) fun m => m.setPend O.kpGenSlot 0 (some 5)) (fun t => t.m.com.value == 5) = true ∧
      gives (.readClear 63 (idOf O.bpXoff 0)) (bench .lit) (fun t => decide (t.m.com.status = .session)) = true ∧
      gives (.readClear 0 (idOf O.bpXoff 0)) (bench .pilot) (fun t => decide (t.m.com.status = .mode)) = true ∧
      gives (.readClear 0 (idOf O.iftPeak 15)) (on (bench .lit) fun m => m.wr O.iftPeak 15 9) (fun t => t.m.com.value == 9 && t.m.rd O.iftPeak 15 == 0) = true := by
  decide

/-- PendingValuesLand: the calendar in use of a group, STOPPED and RUNNING, its switch, and the timeout of its request. -/
theorem test_calendar :
    (bench .lit).Live ∧ (bench .lit).Admits 0 O.flxCalUse 127 1 ∧ (put (bench .lit) .pgroup 127 .running).Admits 0 O.flxCalUse 127 1 ∧
      gives (.flxCalUseWrite 0 127 1) (bench .lit) (fun t => t.m.rd O.flxCalActive 127 == 1 && t.m.com.out.isEmpty) = true ∧
      gives (.flxCalUseWrite 0 127 1) (put (bench .lit) .pgroup 127 .running)
        (fun t => t.m.pendOf O.flxCalUse 127 == some 1 && t.m.com.out == [.calendar 127 1] && t.m.rd O.flxCalActive 127 == 0) = true ∧
      gives (.flxCalSwitch 127) (on (bench .lit) fun m => m.setPend O.flxCalUse 127 (some 1))
        (fun t => t.m.rd O.flxCalUse 127 == 1 && t.m.rd O.flxCalActive 127 == 1 && (t.m.pendOf O.flxCalUse 127).isNone) = true ∧
      gives (.rlLanding (idOf O.flxCalUse 127) 0) (on (bench .lit) fun m => m.setPend O.flxCalUse 127 (some 1))
        (fun t => t.m.rd O.flxCalUse 127 == 1 && (t.m.pendOf O.flxCalUse 127).isNone) = true ∧
      gives (.flxCalTimeout 127) (on (bench .lit) fun m => { m.setPend O.flxCalUse 127 (some 1) with dp.flexReq := [(127, some 5)] })
        (fun t => (t.m.pendOf O.flxCalUse 127).isNone && t.m.rd O.flxCalActive 127 == 0 && t.m.ns == 100000005) = true ∧
      gives (.flxCalTimeout 127) (bench .lit) (fun t => t.m.ns == 0) = true := by decide

/-- A spread seed that waits 1 ns after a whole 100 µs. -/
def seeded : State := on (bench .lit) fun m => { m.setPend O.spreadSeed 0 (some 9) with com.frc := 65536 * 100001 }

/-- PendingValuesLand: what a spread seed that waits meets; with nothing that waits a key epoch only moves the clock. -/
theorem test_epoch :
    seeded.Live ∧ seeded.m.pendOf O.spreadSeed 0 = some 9 ∧ seeded.m.landOk O.spreadSeed 0 9 = true ∧ (bench .lit).m.com.pend = [] ∧
      gives .keyEpoch (on (bench .lit) fun m => { m with com.frc := 65536 * 100001 }) (fun t => t.m.ns == 200000) = true ∧
      gives .keyEpoch (bench .lit) (fun t => t.m.ns == 0) = true := by decide

/-! Clelek and the host path. -/

/-- A frame of an operation, with its flags and body, from session 0 by management port 0. -/
def frame (op flags : Nat) (body : List Byte) (n : Nat := 0) : ClFrame :=
  { path := 0, src := 1, sport := 4000, len := 48 + body.length, version := 1, op := op, session := 0, flags := flags, seq := 7, recCount := n, status := 0,
    bodyLen := body.length, rsvd := 0, nonce := 0, tag := some ⟨5, seqIv 0 0 7⟩, body := body }

/-- The frame asking for its answer in secret. -/
def asked (op : Nat) (body : List Byte) (n : Nat := 0) : ClFrame := frame op 2 body n

/-- A state with a frame at the head of the engine's queue. -/
def heard (s : State) (f : ClFrame) : State := on s fun m => { m with
  clk.engineQ := [f]
  sec.slots := [(64, { state := 1, key := 5 }), (68, { state := 1, key := 5 })] }

/-- Octets from numbers. -/
def bytes (l : List Nat) : List Byte := l.map (BitVec.ofNat 8)

/-- The block with the addresses 7 and 9 at management port 1. -/
def addressed : State := on (bench .lit) fun m => { m with com.objs := [(O.mgtMac.key 1, 7), (O.mgtIpv4.key 1, 9)] }

/-- A frame to port 1. -/
def toPort (tagged full : Bool) (b : MgtBody) : MgtFrame := ⟨7, 2, tagged, full, b⟩

/-- ManagementPorts: a full FIFO, a tagged frame, ARP for the port's address, and Clelek at the end of its queue. -/
theorem test_management_port :
    addressed.Powered ∧ addressed.m.mgtMacOk 1 7 = true ∧ addressed.m.mgtHas4 1 9 = true ∧
      gives (.mgtFrameRx 1 (toPort false true .other)) addressed (fun t => t.m.rd O.mgtFifoDrop 1 == 1) = true ∧
      gives (.mgtFrameRx 1 (toPort true false .other)) addressed (fun t => t.m.rd O.mgtDiscard 1 == 1) = true ∧
      gives (.mgtFrameRx 1 (toPort false false (.arp 9))) addressed (fun t => t.m.com.out.length == 1) = true ∧
      gives (.mgtFrameRx 1 (toPort false false (.clelek ⟨false, 9, addressed.m.rd O.clkUdpPort⟩ (asked 1 [])))) addressed
        (fun t => t.m.clk.engineQ == [{ asked 1 [] with path := 1 }]) = true ∧
      gives (.mgtFrameRx 1 (toPort false false (.clelek ⟨false, 9, addressed.m.rd O.clkUdpPort⟩ (asked 1 []))))
        (on addressed fun m => { m with clk.engineQ := List.replicate 128 (asked 1 []) }) (fun t => t.m.rd O.clkQueueDrop == 1) = true := by decide

/-- The block with in-band Clelek on at port 9, whose group runs. -/
def inband : State := on (put (bench .lit) .pgroup 1 .running) fun m => (m.wr O.inbandEn 0 1).wr O.inbandPortsLo 0 2

/-- ManagementPorts: an in-band frame that is taken, the last that a second allows and the next, and a port that takes none. -/
theorem test_inband :
    inband.Powered ∧ inband.m.inbandOn = true ∧ inband.m.inbandPort 9 = true ∧ inband.m.pcsDelivers 9 = true ∧
      gives (.inbandClelekRx 9 (asked 1 [])) (on inband fun m => { m with clk.inbandSec := 5 })
        (fun t => t.m.clk.engineQ == [{ asked 1 [] with path := 2, src := 9 * 2 ^ 48 + 1 }] && t.m.clk.inbandN == 1) = true ∧
      gives (.inbandClelekRx 9 (asked 1 [])) (on inband fun m => { m with clk.inbandN := 19999 }) (fun t => t.m.clk.engineQ.length == 1) = true ∧
      gives (.inbandClelekRx 9 { asked 1 [] with src := 2 ^ 96 + 1, len := 1000 }) inband (fun t => t.m.entF O.portCnt 0 (16 * 9) 0 8 == 1 &&
        t.m.entF O.portCnt 0 (16 * 9 + 1) 0 8 == 1022 && t.m.entF O.portCnt 0 (16 * 9 + 15) 0 8 == 1 && (t.m.port 9).bwRx == 1042 &&
        t.m.clk.engineQ.map (·.src) == [(1024 + 9) * 2 ^ 48 + 1]) = true ∧
      gives (.inbandClelekRx 9 (asked 1 [])) (on inband fun m => { m.wr O.bpLinkState 9 3 with clk.inbandTx := [((1024 + 9) * 2 ^ 64 + 5 * 2 ^ 16, 100)] })
        (fun t => t.m.entF O.portCnt 0 (16 * 9 + 9) 0 8 == 1 && t.m.entF O.portCnt 0 (16 * 9 + 10) 0 8 == 122 && t.m.clk.inbandTx.isEmpty) = true ∧
      gives (.inbandClelekRx 9 (asked 1 [])) (on inband fun m => { m with clk.inbandN := 20000 }) (fun t => t.m.rd O.clkQueueDrop == 1) = true ∧
      gives (.inbandClelekRx 16 (asked 1 [])) inband (fun t => t.m.clk.engineQ.isEmpty) = true := by decide

/-- ManagementPorts: speed and link of a port. -/
theorem test_management_link :
    (bench .lit).Admits 0 O.mgtSpeed 1 1 ∧
      gives (.mgtSpeedWrite 0 1 1) (on (bench .lit) fun m => m.wr O.mgtLink 1 1) (fun t => t.m.rd O.mgtSpeed 1 == 1 && t.m.rd O.mgtLink 1 == 0) = true ∧
      gives (.mgtLinkChange 1 true) (bench .lit) (fun t => t.m.rd O.mgtLink 1 == 1) = true ∧
      gives (.mgtLinkChange 0 false) (bench .lit) (fun t => t.m.rd O.mgtLink 0 == 0) = true := by decide

/-- FrameChecks: a frame of another row, a malformed one, no session, a failed tag, a plain frame where secrecy is asked, and one that is not newer. -/
theorem test_frame_checks :
    engineRow .clelekRead = some 1 ∧
      gives .clelekWrite (heard (bench .lit) (asked 1 [])) (fun t => t.m.clk.engineQ.length == 1) = true ∧
      gives .clelekRead (heard (bench .lit) { asked 1 [] with version := 2 }) (fun t => t.m.rd O.clkFormatDrop == 1 && t.m.clk.engineQ.isEmpty) = true ∧
      gives .clelekRead (heard (bench .lit) { asked 1 [] with session := 1 }) (fun t => t.m.rd O.clkSessionDrop == 1) = true ∧
      gives .clelekRead (heard (bench .lit) { asked 1 [] with tag := some ⟨6, seqIv 0 0 7⟩ }) (fun t => t.m.rd O.clkAuthDrop == 1) = true ∧
      gives .clelekRead (heard (on (bench .lit) fun m => m.wr O.sesConfid 0 1) (frame 1 0 []))
        (fun t => match t.m.com.out with | [.reply _ _ _ _ _ _ _ st _ _ _ _ _] => decide (st = .session) | _ => false) = true ∧
      gives .clelekRead (heard (on (bench .lit) fun m => m.wr O.sesSeqHigh 0 7) (asked 1 []))
        (fun t => match t.m.com.out with | [.reply _ _ _ _ _ _ _ st _ _ _ _ _] => decide (st = .replay) | _ => false) = true := by decide

/-- FrameChecks: a frame heads the queue, and a sound one passes checks 1 to 3. -/
theorem test_sound : Heads (heard (bench .lit) (asked 1 [])).m 1 (asked 1 []) [] ∧ Sound (heard (bench .lit) (frame 1 0 [])).m 1 (frame 1 0 []) [] :=
  ⟨⟨by decide, by decide⟩, ⟨⟨by decide, by decide⟩, by decide, by decide, by decide⟩⟩

/-- Whether a frame is accepted at the head of the engine's queue, as a test that computes. -/
def admits (c : ModeCtl) (m : Mach) (row : Nat) (f : ClFrame) (rest : List ClFrame) : Bool :=
  decide (m.clk.engineQ = f :: rest) && decide (m.rowOf f = row) && m.frameOk f && m.sesKeyed f.session && m.opens f.session (seqIv 0 f.session f.seq) f.tag &&
    (m.heard f rest).sesAccepts f.session f.path f.src (bit f.flags 1) && decide (m.rd O.sesSeqHigh f.session < f.seq) &&
    decide (m.msg f.session = none) && decide ((m.heard f rest).check6 c f = none)

/-- What computes is what the statements ask. -/
theorem accepted_of_admits {c : ModeCtl} {m : Mach} {row : Nat} {f : ClFrame} {rest : List ClFrame} (h : admits c m row f rest = true) :
    Accepted c m row f rest := by
  simp only [admits, Bool.and_eq_true, decide_eq_true_eq] at h
  obtain ⟨⟨⟨⟨⟨⟨⟨⟨h1, h2⟩, h3⟩, h4⟩, h5⟩, h6⟩, h7⟩, h8⟩, h9⟩ := h
  exact ⟨⟨⟨h1, h2⟩, h3, h4, h5⟩, h6, h7, h8, h9⟩

/-- A SUBSCRIBE of a slot with the kinds 3. -/
def subTo (slot cancel : Nat) : ClFrame := asked 5 (bytes [slot, cancel, 0, 0, 0, 0, 0, 3])

/-- SubscribeAttestImport: a SUBSCRIBE of the last slot and of any, and cancels by its session and by another. -/
theorem test_subscribe :
    (heard (bench .lit) (subTo 15 0)).Powered ∧ admits (bench .lit).mc (heard (bench .lit) (subTo 15 0)).m 50 (subTo 15 0) [] = true ∧
      ((heard (bench .lit) (subTo 15 0)).m.taken (subTo 15 0) []).subBad (subTo 15 0) = none ∧ oct (subTo 15 0).body 0 1 = 15 ∧
      gives .subscribe (heard (bench .lit) (subTo 15 0)) (fun t => t.m.rd O.subSession 15 == 0 && t.m.rd O.subKinds 15 == 3) = true ∧
      admits (bench .lit).mc (heard (bench .lit) (subTo 0xFF 0)).m 50 (subTo 0xFF 0) [] = true ∧
      gives .subscribe (heard (bench .lit) (subTo 0xFF 0)) (fun t => t.m.rd O.subSession 0 == 0 && t.m.rd O.subSession 1 == 0xFF) = true ∧
      admits (bench .lit).mc (heard (bench .lit) (subTo 15 1)).m 51 (subTo 15 1) [] = true ∧
      gives .subscribeCancel (heard (on (bench .lit) fun m => m.wr O.subSession 15 0) (subTo 15 1)) (fun t => t.m.rd O.subSession 15 == 0xFF) = true ∧
      gives .subscribeCancel (heard (on (bench .lit) fun m => m.wr O.subSession 15 1) (subTo 15 1)) (fun t => t.m.rd O.subSession 15 == 1) = true := by
  decide

/-- An IMPORT of slot 3. -/
def importOf : ClFrame := asked 8 (bytes [3, 0] ++ List.replicate 1138 0)

/-- SubscribeAttestImport: ATTEST waits for its signature, and the signature answers it. -/
theorem test_attest :
    admits (bench .lit).mc (heard (bench .lit) (asked 7 (List.replicate 32 0))).m 7 (asked 7 (List.replicate 32 0)) [] = true ∧
      gives .attest (heard (bench .lit) (asked 7 (List.replicate 32 0))) (fun t => t.m.clk.attQ.length == 1 && t.m.com.out.isEmpty) = true ∧
      gives .attestSigned (on (bench .lit) fun m => { m with clk.attQ := [⟨replyTo (asked 7 []), []⟩] })
        (fun t => t.m.clk.attQ.isEmpty && t.m.sec.drbgCtr == 1) = true := by decide

/-- SubscribeAttestImport: an IMPORT of slot 3 meets what the statement asks; whether it opens is the key's. -/
theorem test_import :
    admits (bench .lit).mc (heard (bench .lit) importOf).m 8 importOf [] = true ∧ importOf.body.length = 1140 ∧
      ((bench .lit).m.taken importOf []).importAllowed 0 (oct importOf.body 0 1) = true ∧ ((bench .lit).m.taken importOf []).keysFailed = false ∧
      oct importOf.body 0 1 = 3 ∧ oct importOf.body 1 1 = 0 ∧ oct importOf.body 2 2 = 0 := by decide

/-- An object record of a frame: its identifier, flags and value. -/
def objRec (id flags : Nat) (val : List Byte) : List Byte :=
  octets 4 id ++ [0] ++ octets 1 flags ++ octets 2 val.length ++ val ++ List.replicate ((4 - val.length % 4) % 4) 0

/-- A READ of BP-XOFF of port 0, and a WRITE of it. -/
def readFrame : ClFrame := frame 1 0 (objRec (O.bpXoff.key 0) 0 []) 1
def writeFrame : ClFrame := asked 2 (objRec (O.bpXoff.key 0) 1 (octets 4 999)) 1

/-- FramesReadAndWrite: a READ is answered, and a WRITE stores its value. -/
theorem test_read_write_frames :
    admits (bench .lit).mc ((heard (bench .lit) readFrame).engineStart 1) 1 readFrame [] = true ∧ (recsOf readFrame).isSome = true ∧
      gives .clelekRead (heard (bench .lit) readFrame)
        (fun t => match t.m.com.out with | [.reply _ _ _ _ _ _ _ st n b _ _ _] => decide (st = .ok) && n == 1 && b.drop 8 == octets 4 1024 | _ => false) = true ∧
      admits (bench .lit).mc (heard (bench .lit) writeFrame).m 2 writeFrame [] = true ∧
      recsOf writeFrame = some [⟨O.bpXoff.key 0, 1, octets 4 999⟩] ∧ target (O.bpXoff.key 0) = some (.obj O.bpXoff 0) ∧
      ((heard (bench .lit) writeFrame).m.taken writeFrame []).writeCheck (bench .lit).mc
        (((heard (bench .lit) writeFrame).m.taken writeFrame []).reqOf 0) O.bpXoff 0 (octets 4 999) = none ∧
      gives .clelekWrite (heard (bench .lit) writeFrame) (fun t => t.m.rd O.bpXoff 0 == 999 && t.m.rd O.bpXoff 1 == 1024) = true := by decide

/-- Window frames on the common action lists of reach 7: a read of two entries and a write of the last. -/
def winRead : ClFrame := asked 4 (octets 4 (O.actCommon.key 7) ++ [0, 0, 0, 0] ++ octets 4 4094 ++ octets 4 2)
def winWrite : ClFrame := asked 4 (octets 4 (O.actCommon.key 7) ++ [1, 0, 0, 0] ++ octets 4 4095 ++ octets 4 1 ++ List.replicate 64 0)

/-- FramesReadAndWrite: a window read leaves WIN-NEXT past its run; a window write stores its entry. -/
theorem test_window_frames :
    admits (bench .lit).mc ((heard (bench .lit) winRead).engineStart 40) 40 winRead [] = true ∧ winRead.body.length = 16 ∧
      gives .windowRead (heard (bench .lit) winRead) (fun t => decide (t.m.win 0 O.actCommon 7 = ⟨4094, 2, 4096⟩)) = true ∧
      admits (bench .lit).mc (heard (bench .lit) winWrite).m 41 winWrite [] = true ∧ winWrite.body.length = 80 ∧ moreOf winWrite = false ∧
      (((heard (bench .lit) winWrite).m.taken winWrite []).winHead (bench .lit).mc
        (((heard (bench .lit) winWrite).m.taken winWrite []).reqOf 0) winWrite.body true).1 = .inl (O.actCommon, 7) ∧
      (bench .lit).m.entryOk O.actCommon 7 4095 0 = true ∧ (bench .lit).m.winCheck (bench .lit).mc ((bench .lit).m.reqOf 0) O.actCommon = none ∧
      gives .windowWrite (heard (on (bench .lit) fun m => m.setEnt O.actCommon 7 4095 5) winWrite) (fun t => t.m.ent O.actCommon 7 4095 == 0) = true := by decide

/-- FramesReadAndWrite: an OP that Table 5.5 does not give. -/
theorem test_bad_op :
    (heard (bench .lit) (asked 6 [])).m.rowOf (asked 6 []) = 0 ∧
      ((bench .lit).m.heard (asked 6 []) []).sesAccepts 0 0 1 true = true ∧
      gives .clelekBadOp (heard (bench .lit) (asked 6 []))
        (fun t => match t.m.com.out with | [.reply _ _ _ _ _ _ _ st _ _ _ _ _] => decide (st = .access) | _ => false) = true := by decide

/-- A BATCH of one empty segment over channel set 0, whole and with more to come. -/
def batchBody : List Byte := bytes [1, 0, 0, 4, 0, 1, 4, 8, 4, 0, 0, 1, 0]

/-- BatchesStagedAndExecuted: a batch is staged, one that is no single segment is refused, and one with MORE opens its message. -/
theorem test_batch :
    admits (bench .lit).mc (heard (bench .lit) (asked 3 batchBody)).m 3 (asked 3 batchBody) [] = true ∧ batchTooBig batchBody = false ∧
      oneSegment (brecs batchBody.length batchBody) = true ∧
      gives .clelekBatch (heard (bench .lit) (asked 3 batchBody)) (fun t => t.m.clk.staged.length == 1 && t.m.com.out.isEmpty) = true ∧
      gives .clelekBatch (heard (bench .lit) (asked 3 (batchBody.take 8)))
        (fun t => match t.m.com.out with | [.reply _ _ _ _ _ _ _ st _ _ _ _ _] => decide (st = .type) | _ => false) = true ∧
      gives .clelekBatch (heard (bench .lit) (frame 3 6 batchBody)) (fun t => (t.m.msg 0).isSome && t.m.clk.staged.isEmpty) = true := by decide

/-- The batch of test_batch as it waits. -/
def waiting : Staged :=
  { toward := replyTo (asked 3 []), mute := false, holder := 0, priv := 2, recs := [.segBegin [0x408], .segEnd 0], bundle := false, id := 0, digest := 0 }

/-- BatchesStagedAndExecuted: execution stops the function it holds and waits; a job that is done is answered; one of the other kind is left. -/
theorem test_batch_executes :
    (put (bench .lit) .chset 0 .running).m.fst 0x408 = .running ∧ ((bench .lit).m.fn 0x408).holder = 0xFF ∧
      gives .batchExecute (on (put (bench .lit) .chset 0 .running) fun m => { m with clk.staged := [waiting] })
        (fun t => decide (t.m.fst 0x408 = .stopping) && (t.m.fn 0x408).holder == 0 && t.m.clk.staged.isEmpty && t.m.clk.job.isSome) = true ∧
      gives .batchExecute (on (bench .lit) fun m => { m with clk.job := some ⟨waiting, [], [], .run, [], 0, .ok, 1, []⟩ })
        (fun t => t.m.clk.job.isNone && t.m.com.out.length == 1) = true ∧
      gives .bundleExecute (on (bench .lit) fun m => { m.setFn 0x408 { state := .stopping, holder := 0 } with clk.job := some ⟨waiting, [], [0x408], .stops, [], 0, .ok, 1, []⟩ })
        (fun t => t.m.clk.job.isSome) = true ∧
      gives .batchExecute (bench .lit) (fun t => t.m.clk.job.isNone) = true := by decide

/-- A bundle of the vendor with no record. -/
def bundleOf : ClFrame :=
  asked 9 (octets 4 0x56424E44 ++ bytes [0, 1, 0, 64] ++ octets 8 5 ++ octets 8 9 ++ octets 8 0 ++ octets 4 0 ++ bytes [0, 0, 1, 0] ++ octets 24 0 ++
    List.replicate 2420 0)

/-- PILOT before provisioning with long Clelek frames. -/
def roomy : State := on (owned .pilot) fun m => m.wr O.clkFrameMax 0 8192

/-- BatchesStagedAndExecuted: a bundle with a good signature is staged and raises its signer's floor; a bad one is refused. -/
theorem test_bundle :
    admits (owned .pilot).mc (heard roomy bundleOf).m 9 bundleOf [] = true ∧ moreOf bundleOf = false ∧
      bundleHeaderOk bundleOf.body = true ∧ (owned .pilot).m.signerOk true = true ∧ (owned .pilot).m.keysFailed = false ∧
      (owned .pilot).m.rd (floorObj true) ≤ 9 ∧ bundleOf.body.length ≤ bundleRoom (owned .pilot).mc ∧
      gives (.bundle none) (heard roomy bundleOf) (fun t => t.m.clk.staged.isEmpty && t.m.rd O.bundleResult == Status.signature.code) = true ∧
      gives (.bundle (some [])) (heard roomy { bundleOf with flags := 6 }) (fun t => (t.m.msg 0).isSome) = true := by decide

/-- MessagesSessionsLosses: a message that times out, a session object and a subscription's misses. -/
theorem test_sessions :
    (bench .lit).Admits 0 O.sesPriv 63 2 ∧ sesObj O.sesPriv.sub = some O.sesPriv ∧
      gives (.messageTimeout 0) (on (bench .lit) fun m => m.setMsg 0 (some ⟨replyTo (asked 3 []), [], 5, none⟩))
        (fun t => (t.m.msg 0).isNone && t.m.ns == 100000005) = true ∧
      gives (.messageTimeout 63) (bench .lit) (fun t => t.m.ns == 0) = true ∧
      gives (.sesConfigWrite 0 63 O.sesPriv.sub 2) (bench .lit) (fun t => decide (t.m.com.status = .ok) && t.m.rd O.sesPriv 63 == 2) = true ∧
      gives (.noteLoss 15) (on (bench .lit) fun m => { m.wr O.subSession 15 0 with clk.subs := [(15, { missed := 3 })] })
        (fun t => (mget {} t.m.clk.subs 15).missed == 0 && t.m.com.out.length == 1) = true ∧
      gives (.noteLoss 0) (bench .lit) (fun t => t.m.com.out.isEmpty) = true := by decide

/-- A punt of class 7 of 60 octets, and punting by port 1. -/
def punt : HostPkt := ⟨0, 7, 0, 0, 0, 0, 0, true, List.replicate 60 0⟩
def punting : State := on (bench .lit) fun m => { ((m.wr O.hpDest 0 1).wr O.hpSession 0 0).wr O.mgtLink 1 1 with clk.puntQ := [(7, [punt])] }

/-- An injected packet of a kind with sequence 5, on interface 0. -/
def inj (kind : Nat) : InjFrame :=
  { path := 0, dmac := 7, tagged := false, fifoFull := false, addr := ⟨false, 9, (bench .lit).m.rd O.hpUdpPort⟩, src := 1, version := 1, kind := kind, lif := 0,
    tc := 7, reason := 0, tenant := 0, seq := 5, ruleRef := 0, ts := 0, tag := some ⟨5, seqIv 2 0 5⟩, data := List.replicate 60 0 }

/-- The block with host-path session 0, port 0 up, and addresses 7 and 9 at management port 0. -/
def host (c : Mode) : State := on (bench c) fun m =>
  (({ m with
      com.objs := [(O.mgtMac.key 0, 7), (O.mgtIpv4.key 0, 9)]
      sec.slots := [(64, { state := 1, key := 5 })] } : Mach).wr O.hpSession 0 0).wr O.bpLinkState 0 3

/-- HostPackets: a punt leaves; injected packets wait, are refused by a replayed sequence or by the mode; the queue drains. -/
theorem test_host_packets :
    punting.Live ∧ punting.m.puntOn = true ∧ punting.mc.mode.forwards = true ∧
      gives .puntSend punting (fun t => (mget [] t.m.clk.puntQ 7).isEmpty && t.m.clk.puntCount == 1 && t.m.com.out.length == 1) = true ∧
      gives .puntSend { punting with mc := { mode := .pilot, target := .pilot } } (fun t => t.m.com.out.isEmpty) = true ∧
      (host .lit).Live ∧ (host .lit).m.injTaken (inj 1) = true ∧ (host .lit).m.injFormOk (inj 1) = true ∧ (host .lit).m.sesKeyed ((host .lit).m.rd O.hpSession) = true ∧
      ((host .lit).m.injSeq 5).sesAccepts ((host .lit).m.rd O.hpSession) 0 1 true = true ∧
      gives (.injectPort (inj 1)) (host .lit) (fun t => t.m.clk.injQ.length == 1 && t.m.clk.injHigh == 5) = true ∧
      gives (.injectPipeline (inj 2)) (host .lit) (fun t => t.m.clk.injQ.length == 1) = true ∧
      gives (.injectPipeline (inj 2)) (on (host .lit) fun m => { m with clk.injHigh := 5 }) (fun t => t.m.clk.injQ.isEmpty) = true ∧
      gives (.injectPort { inj 1 with fifoFull := true }) (host .lit) (fun t => t.m.rd O.mgtFifoDrop 0 == 1 && t.m.clk.injQ.isEmpty) = true ∧
      gives (.injectPort { inj 1 with tagged := true }) (host .lit) (fun t => t.m.rd O.mgtDiscard 0 == 1 && t.m.clk.injQ.isEmpty) = true ∧
      gives (.injectPort { inj 1 with tenant := 3 }) (host .lit) (fun t => t.m.rd O.mgtDiscard 0 == 0 && t.m.clk.injQ.isEmpty) = true ∧
      gives (.injectPipeline (inj 2)) (host .primed) (fun t => t.m.clk.injQ.isEmpty) = true ∧
      gives .injectDrain (on (host .lit) fun m => { m with clk.injQ := [punt] })
        (fun t => t.m.clk.injQ.isEmpty && t.m.dp.pktNext == 1 && (t.m.rch 0).fifo == [0]) = true ∧
      gives .injectDrain (bench .lit) (fun t => t.m.dp.pktNext == 0) = true := by decide

/-! Ports. -/

/-- Port 8, the only port of group 1, up and running, with its down-hold at 5 µs. -/
def portUp : State := on (put (bench .lit) .pgroup 1 .running) fun m => (m.wr O.bpLinkState 8 3).wr O.bpDownHold 8 5

/-- PortDefectsAct: a defect takes the port down, an unmonitored and a reserved one do nothing, and REFCLK-LOSS is the shore die's. -/
theorem test_defects :
    portUp.Live ∧ bit 0x11F03FF 1 = true ∧ portUp.m.monitored 8 1 = true ∧ portUp.m.monitored 16 1 = false ∧ bit 0x11F03FF 31 = false ∧
      gives (.defectRaise 8 { bit := 1 }) portUp (fun t => t.m.rd O.bpLinkState 8 == 1 && (t.m.port 8).defects == 2 && t.m.rd O.bpFlaps 8 == 1) = true ∧
      gives (.defectRaise 16 { bit := 1 }) portUp (fun t => (t.m.port 16).defects == 0) = true ∧
      gives (.defectRaise 8 { bit := 31 }) portUp (fun t => (t.m.port 8).defects == 0) = true ∧
      portUp.m.monitored 9 0 = true ∧ portUp.m.defectIs 8 true { bit := 1 } = true ∧ portUp.m.defectIs 8 true { bit := 17 } = false ∧ reached 9 = [9, 8] ∧
      gives (.defectRaise 9 { bit := 0 }) portUp (fun t => t.m.tb.refLost.contains 0 && t.m.rd O.bpLinkState 8 == 1) = true ∧
      gives (.defectClear 8 { bit := 1 }) (on portUp fun m => m.setPort 8 { m.port 8 with defects := 2 }) (fun t => (t.m.port 8).defects == 0) = true := by decide

/-- PortDefectsAct: BP-ENABLE, the holds and their ends. -/
theorem test_holds :
    portUp.Admits 0 O.bpEnable 8 0 ∧ portUp.m.created 8 = true ∧ ((portUp.m.wr O.bpEnable 8 0).st .ok).upCapable 8 = false ∧
      gives (.bpEnableWrite 0 8 0) portUp (fun t => t.m.rd O.bpEnable 8 == 0 && t.m.rd O.bpLinkState 8 == 1) = true ∧
      portUp.Admits 0 O.bpDownHold 8 50000 ∧ portUp.Admits 0 O.bpUpHold 8 1000000 ∧
      gives (.bpHoldWrite 0 8 false 50000) portUp (fun t => t.m.rd O.bpDownHold 8 == 50000) = true ∧
      gives (.bpHoldWrite 0 8 true 1000000) portUp (fun t => t.m.rd O.bpUpHold 8 == 1000000) = true ∧
      gives (.downHoldExpiry 8) (on portUp fun m => (m.wr O.bpLinkState 8 1).setPort 8 { m.port 8 with downAt := some 3, defects := 2 })
        (fun t => t.m.rd O.bpLinkState 8 == 0 && t.m.ns == 5003) = true ∧
      gives (.downHoldExpiry 8) portUp (fun t => t.m.ns == 0) = true ∧
      gives (.upHoldExpiry 8) (on portUp fun m => (m.wr O.bpLinkState 8 2).setPort 8 { m.port 8 with upAt := some 3 })
        (fun t => t.m.rd O.bpLinkState 8 == 3 && t.m.ns == 10000003) = true ∧
      gives (.upHoldExpiry 8) portUp (fun t => t.m.ns == 0) = true := by decide

/-- PortDefectsAct: auto-negotiation starts again 3 s after it began. -/
theorem test_an :
    gives (.anRestart 8) (on portUp fun m => m.setPort 8 { m.port 8 with anAt := some 1, defects := 8 })
        (fun t => t.m.rd O.bpAnRestarts 8 == 1 && t.m.ns == 3000000001) = true ∧
      gives (.anRestart 8) portUp (fun t => t.m.rd O.bpAnRestarts 8 == 0) = true := by decide

/-- Port 8 in PAUSE mode. -/
def pausing : State := on portUp fun m => m.wr O.bpFcMode 8 1

/-- PauseAndSeconds: a pause frame, one of another opcode, one of no quanta, and one at a port whose group does not run; the end of a pause. -/
theorem test_pause :
    pausing.Live ∧ pausing.m.pcsDelivers 8 = true ∧ pausing.m.rdB O.pgFlexe 1 = false ∧
      gives (.pauseRx 8 1 0 [65535]) pausing (fun t => (mget none (t.m.port 8).paused 8).isSome) = true ∧
      gives (.pauseRx 8 1 0 [0]) (on pausing fun m => m.setPort 8 { m.port 8 with paused := [(8, some 9)] }) (fun t => (t.m.port 8).paused.isEmpty) = true ∧
      gives (.pauseRx 8 2 0 [5]) pausing (fun t => (t.m.port 8).paused.isEmpty) = true ∧
      gives (.pauseRx 1023 1 0 [5]) pausing (fun t => (t.m.port 1023).paused.isEmpty) = true ∧
      gives (.pauseExpiry 8 7) (on pausing fun m => m.setPort 8 { m.port 8 with paused := [(7, some 9)] })
        (fun t => (t.m.port 8).paused.isEmpty && t.m.ns == 9) = true ∧
      gives (.pauseExpiry 8 7) pausing (fun t => t.m.ns == 0) = true := by decide

/-- Port 8 with XOFF sent for class 7 and 20 cells of 64 KiB of it in use. -/
def full : State :=
  on portUp fun m => { (m.wr O.bpFcMode 8 2).setPort 8 { m.port 8 with xoff := 128 } with
    dp.pools := [(3, { used := (List.range 60).map fun k => (k, some ⟨1, 8, 7⟩) })] }

/-- PauseAndSeconds: XOFF is sent again while the occupancy is above BP-XON, and a second closes. -/
theorem test_xoff_and_second :
    1024 * full.m.rd O.bpXon 8 < full.m.ingressOcc 8 7 ∧
      gives (.xoffRefresh 8 7) full (fun t => t.m.com.out.length == 1) = true ∧
      gives (.xoffRefresh 8 7) (on full fun m => { m with dp.pools := [] }) (fun t => t.m.com.out.isEmpty) = true ∧
      gives (.pmSecond 8 ⟨1, 2, 3, 4⟩) portUp
        (fun t => t.m.rd O.pmSecCorrCw 8 == 1 && t.m.rd O.pmSecUncorrCw 8 == 2 && t.m.rd O.pmSecCorrSym 8 == 3 && t.m.rd O.pmSecFcsErr 8 == 4 &&
          t.m.rd O.pmSecClass 8 == 1) = true ∧
      gives (.pmSecond 8 ⟨0, 0, 0, 0⟩) (on portUp fun m => m.setPort 8 { m.port 8 with secAt := 899 })
        (fun t => t.m.entF O.pmBins 8 1 12 4 == 1 && t.m.entF O.pmBins 8 0 12 4 == 0) = true := by decide

/-! Ingress. -/

/-- A frame of 60 octets before its FCS. -/
def data60 : List Byte := List.replicate 60 0

/-- FrameReceived: an overflow, frames of 63, 64, 16,384 and 16,385 octets, a bad FCS, no interface, and an interface. -/
theorem test_frame_rx :
    portUp.Live ∧ portUp.m.pcsDelivers 8 = true ∧ portUp.m.inbandOn = false ∧ oct data60 12 2 ≠ 0x8808 ∧
      gives (.frameRx 8 0 true true data60) portUp (fun t => t.m.dp.pktNext == 0 && !t.m.flt.queue.isEmpty) = true ∧
      gives (.frameRx 8 0 true false (data60.drop 1)) portUp (fun t => t.m.dp.pktNext == 0) = true ∧
      gives (.frameRx 8 0 false false data60) portUp (fun t => (t.m.port 8).fcs == 1) = true ∧
      gives (.frameRx 8 0 true false data60) (on portUp fun m => m.setEnt O.lifMap 1 0 0) (fun t => t.m.rd O.lifMiss 1 == 1 && t.m.dp.pktNext == 0) = true ∧
      gives (.frameRx 8 0 true false data60) portUp
        (fun t => (t.m.pkt 0).isSome && (t.m.rch 0).fifo == [0]) = true ∧
      gives (.frameRx 16 0 true false data60) portUp (fun t => t.m.dp.pktNext == 0) = true := by decide

/-- FrameReceived: a frame is admitted up to its class's mark, shed above it, and goes to the graph FIFO on binding 31. -/
theorem test_enter :
    portUp.m.rd O.lifBinding 64 ≠ 31 ∧ portUp.m.octsOf (portUp.m.rch 0).fifo + data60.length ≤ 1024 * portUp.m.rd O.ppcShedAt 0 ∧
      ((portUp.m.enter portUp.mc 8 64 0 0 0 false data60).rch 0).fifo = [0] ∧
      (((portUp.m.wr O.lifBinding 64 31).enter portUp.mc 8 64 0 0 0 false data60).rch 0).gfifo = [0] ∧
      (((portUp.m.wr O.ppcShedAt 0 0).enter portUp.mc 8 64 0 0 0 false data60).rch 0).fifo = [] := by decide

/-- A frame at the head of the pre-parse FIFO, or the graph FIFO, of reach 0, its interface on binding 0 or 31. -/
def fifo (graph : Bool) : State :=
  on (bench .lit) fun m =>
    let m := m.setPkt 0 (some { pkt0 with stage := if graph then .graphFifo else .fifo })
    if graph then (m.setRch 0 { m.rch 0 with gfifo := [0] }).wr O.lifBinding 0 31 else m.setRch 0 { m.rch 0 with fifo := [0] }

/-- ContextsAndParses: the head takes a context on a binding that runs, and is dropped on one that is FAULTED or STOPPED with DROP. -/
theorem test_context :
    (fifo false).Live ∧ (fifo false).m.ctxBusy 0 < 768 ∧ ((fifo false).m.rch 0).rel = [] ∧ ((fifo false).m.rch 0).fifo = [0] ∧
      gives (.contextAssign 0) (put (fifo false) .binding 0 .running)
        (fun t => match t.m.pkt 0 with | some x => decide (x.stage = .ctx) && x.cell.isSome | none => false) = true ∧
      gives (.contextAssign 0) (put (fifo false) .binding 0 .faulted) (fun t => (t.m.pkt 0).isNone) = true ∧
      gives (.contextAssign 0) (on (fifo false) fun m => m.setFn (fnNum .binding 0) { m.fn (fnNum .binding 0) with disp := 2 }) (fun t => (t.m.pkt 0).isNone) = true ∧
      gives (.contextAssign 0) (bench .lit) (fun t => (t.m.pkt 0).isNone) = true := by decide

/-- ContextsAndParses: the head of the graph FIFO takes the graph on a binding that runs. -/
theorem test_graph :
    (put (fifo true) .binding 31 .running).m.running .binding 31 = true ∧ ((fifo true).m.rch 0).gfifo = [0] ∧
      gives (.graphParseStart 0) (put (fifo true) .binding 31 .running)
        (fun t => match t.m.pkt 0 with | some x => decide (x.stage = .graph) && x.cell.isSome | none => false) = true := by decide

/-- A packet of reach 0 that is parsed in a context or in the graph, its program dropping it or taking 14 octets of header. -/
def parsing (graph ok : Bool) : State :=
  on (withPkt (bench .lit) { pkt0 with stage := if graph then .graph else .ctx, inCtx := true }) fun m =>
    let m := if graph then m.setRch 0 { m.rch 0 with gpipe := [0] } else m
    if ok then { m.setEnt O.pbStates 0 0 (setFld 32 (setFld 32 0 2 2 14) 14 1 0xFF) with dp.rsIn := [(O.rsFlow.key 0, 1)] } else m

/-- ContextsAndParses: a parse that drops, and one that joins its lane, in a context and in the graph. -/
theorem test_parse :
    (parsing false true).Live ∧ ((parsing false true).m.parse 0 pkt0.data 1).drop = false ∧ ((parsing false true).m.parse 0 pkt0.data 1).host = false ∧
      ((parsing false false).m.parse 0 pkt0.data 1).drop = true ∧ (parsing false true).m.handles 0 < 131072 ∧
      ((parsing true true).m.rch 0).gpipe = [0] ∧ (parsing true true).m.pkt 0 = some { pkt0 with stage := .graph, inCtx := true } ∧
      gives (.parseComplete 0 0) (parsing false false) (fun t => (t.m.pkt 0).isNone) = true ∧
      gives (.parseComplete 0 0) (parsing false true)
        (fun t => match t.m.pkt 0 with | some x => decide (x.stage = .parsed) && mget [] t.m.dp.lanes (x.lane.getD 0) == [0] | none => false) = true ∧
      gives (.graphParseComplete 0) (parsing true true)
        (fun t => match t.m.pkt 0 with | some x => decide (x.stage = .parsed) && x.lane.isSome | none => false) = true := by decide

/-- A parsed packet, and the same in a pass of rule set 0. -/
def ruled (st : Stage) (w : Work) : State :=
  on (withPkt (bench .lit) { pkt0 with stage := st, w := w }) fun m => if st = .water then m.setRch 0 { m.rch 0 with water := [0] } else m

/-- PassesAndBackwater: a packet meets its rule set in each of its states. -/
theorem test_pass_start :
    (ruled .parsed {}).Live ∧ (ruled .parsed {}).m.pkt 0 = some { pkt0 with stage := .parsed, w := {} } ∧
      gives (.passStart 0 0) (put (ruled .parsed {}) .ruleset 0 .running)
        (fun t => match t.m.pkt 0 with | some x => decide (x.stage = .pass) && x.w.gens == [(0, 0)] && t.m.rd O.passes 0 == 1 | none => false) = true ∧
      gives (.passStart 0 0) (put (ruled .parsed {}) .ruleset 0 .faulted) (fun t => (t.m.pkt 0).isNone) = true ∧
      gives (.passStart 0 0) (on (ruled .parsed {}) fun m => m.setFn 0x440 { m.fn 0x440 with disp := 2 }) (fun t => (t.m.pkt 0).isNone) = true := by decide

/-- A pass of rule set 0 whose default list is of one action: operation, A and X. -/
def listed (op a x : Nat) (w : Work) : State := on (ruled .pass w) fun m => m.setEnt O.actCommon 0 0 ((op * 2 ^ 56 + a * 2 ^ 48 + x) * 2 ^ 448)

/-- PassesAndBackwater: a pass that denies, one that names a further pass within the limit and at it, and one that ends with a destination. -/
theorem test_pass_end :
    (listed 2 0 0 {}).Live ∧ ((listed 2 0 0 {}).m.passRun { pkt0 with stage := .pass, w := {} }).1.deny = true ∧
      gives (.passEnd 0 0) (listed 2 0 0 {}) (fun t => (t.m.pkt 0).isNone) = true ∧
      ((listed 10 3 0 {}).m.passRun { pkt0 with stage := .pass, w := {} }).1.next = some 3 ∧
      gives (.passEnd 0 0) (listed 10 3 0 {})
        (fun t => match t.m.pkt 0 with | some x => decide (x.stage = .water) && x.w.set == 3 && x.w.pass == 1 && (t.m.rch 0).water == [0] | none => false) = true ∧
      gives (.passEnd 0 0) (listed 10 3 0 { pass := 2 }) (fun t => (t.m.pkt 0).isNone && t.m.rd O.bwPassLimit 0 == 1) = true ∧
      ((listed 1 0 0x10000005 {}).m.passRun { pkt0 with stage := .pass, w := {} }).1.next = none ∧
      gives (.passEnd 0 0) (listed 1 0 0x10000005 {})
        (fun t => match t.m.pkt 0 with | some x => decide (x.stage = .ready) && x.w.dest == 0x10000005 | none => false) = true := by decide

/-- PassesAndBackwater: a packet of the backwater goes on, starts again once, and is dropped the second time. -/
theorem test_backwater :
    (ruled .water {}).Live ∧ (ruled .water {}).m.gensOk { pkt0 with stage := .water, w := {} } = true ∧
      (ruled .water {}).m.gensOk { pkt0 with stage := .water, w := { gens := [(0, 5)] } } = false ∧
      gives (.backwaterReentry 0 0) (ruled .water {}) (fun t => match t.m.pkt 0 with | some x => decide (x.stage = .parsed) | none => false) = true ∧
      gives (.backwaterReentry 0 0) (ruled .water { gens := [(0, 5)] })
        (fun t => match t.m.pkt 0 with | some x => x.w.restarted && t.m.rd O.genRestart 0 == 1 | none => false) = true ∧
      gives (.backwaterReentry 0 0) (ruled .water { gens := [(0, 5)], restarted := true }) (fun t => (t.m.pkt 0).isNone && t.m.rd O.genDrop 0 == 1) = true := by
  decide

/-! The flow path in the reaches. -/

/-- Packet 0 of reach 0 in lane 4095, ready with a query outstanding or none. -/
def laned (q : Option Nat) (dest : Nat) : State :=
  on (withPkt (bench .lit) { pkt0 with stage := .ready, lane := some 4095, query := q, w := { dest := dest } }) fun m => { m with dp.lanes := [(4095, [0])] }

/-- VerdictsAndLanes: a verdict joins its packet, or drops it; one that no packet waits for is discarded. -/
theorem test_verdict :
    (laned (some 0) 0x10000005).Live ∧
      (chansTo 0).length = 32 ∧
      gives (.verdictArrival 0 0) (on (laned (some 0) 0x10000005) fun m => { m with dp.chans := [(0, { msgs := [.verdict 0 0] })] })
        (fun t => match t.m.pkt 0 with | some x => x.verdict == some 0 && (t.m.chan 0).msgs.isEmpty | none => false) = true ∧
      vFlag (setFld 32 0 4 1 0x20) 5 = true ∧
      gives (.verdictArrival 0 0) (on (laned (some 0) 0x10000005) fun m => { m with dp.chans := [(0, { msgs := [.verdict 0 (setFld 32 0 4 1 0x20)] })] })
        (fun t => (t.m.pkt 0).isNone) = true ∧
      gives (.verdictArrival 0 0) (on (bench .lit) fun m => { m with dp.chans := [(0, { msgs := [.verdict 0 0] })] }) (fun t => (t.m.chan 0).msgs.isEmpty) = true := by
  decide

/-- VerdictsAndLanes: the head of a lane is dropped when its verdict is late, waits for it till then, and leaves without a query. -/
theorem test_lane :
    (laned (some 0) 0x10000005).m.pkt 0 = some { pkt0 with stage := .ready, lane := some 4095, query := some 0, w := { dest := 0x10000005 } } ∧
      mget [] (laned none 0x10000005).m.dp.lanes (4096 * 0 + 4095) = [0] ∧
      gives (.verdictWaitLane 0 4095) (laned (some 0) 0x10000005) (fun t => (t.m.pkt 0).isNone && t.m.rd O.laneVerdictLate 0 == 1) = true ∧
      gives (.laneRelease 0 4095) (laned (some 0) 0x10000005) (fun t => mget [] t.m.dp.lanes 4095 == [0]) = true ∧
      gives (.laneRelease 0 4095) (laned none 0x10000005) (fun t => (mget [] t.m.dp.lanes 4095).isEmpty) = true ∧
      gives (.laneRelease 0 4095) (laned none 0x30000000) (fun t => (t.m.pkt 0).isNone) = true := by decide

/-! The switch core and egress. -/

/-- Packet 0 of reach 0 in the VOQ of port 5, class 2, with credit, its set running. -/
def queued : State :=
  on (put (withPkt (bench .lit) { pkt0 with stage := .ready, refs := 1, w := { dest := 0x10000000, tc := 2 } }) .voq 0 .running) fun m =>
    m.setVoq 0 42 { q := [⟨0, false, false, 0⟩], credit := 200, pending := true } |>.setRch 0 { m.rch 0 with view := [(5, 3)] }

/-- ChannelSends: the head of the one ready VOQ leaves on channel 0; a channel of another reach, or a stopped set, sends nothing. -/
theorem test_channel_send :
    queued.Live ∧ queued.m.running .voq 0 = true ∧ queued.m.chanOpen 0 = true ∧ queued.m.chanReady 0 = [42] ∧
      gives (.channelSend 0) queued
        (fun t => (t.m.voq 0 42).q.isEmpty && (t.m.chan 0).flight.length == 1 && t.m.rd O.chOctets 0 == 84) = true ∧
      gives (.channelSend 255) queued (fun t => (t.m.voq 0 42).q.length == 1) = true ∧
      gives (.channelSend 0) (put queued .voq 0 .stopped) (fun t => (t.m.voq 0 42).q.length == 1) = true := by decide

/-- A state with a message at the head of channel 0. -/
def msg (x : Msg) : State := on (bench .lit) fun m => { m with dp.chans := [(0, { msgs := [x] })] }

/-- RequestAndGrant: a request that arrives, a grant that arrives for its VOQ, and a return. -/
theorem test_request_grant :
    (msg (.request 0 42 true)).Live ∧
      gives (.voqRequestArrival 0) (msg (.request 0 42 true)) (fun t => mget false t.m.dp.flags 42) = true ∧
      gives (.voqRequestArrival 0) (on (msg (.request 0 42 false)) fun m => { m with dp.flags := [(42, true)] }) (fun t => t.m.dp.flags.isEmpty) = true ∧
      gives (.voqRequestArrival 7) (bench .lit) (fun t => t.m.dp.flags.isEmpty) = true ∧
      gives (.grantArrival 0) (on queued fun m => { m with dp.chans := [(0, { msgs := [.grant 42 4096] })] }) (fun t => (t.m.voq 0 42).credit == 4296) = true ∧
      gives (.grantArrival 0) (msg (.grant 42 4096)) (fun t => (t.m.voq 0 42).credit == 0) = true ∧
      gives (.creditReturn 0) (on (msg (.ret 0 42 100)) fun m => { m.wr O.bpLinkState 5 3 with dp.out := [(336, 100)] }) (fun t => t.m.dp.out.isEmpty) = true := by decide

/-- The pair of ingress reach 3 and VOQ 8191, port 1023, pending, its list and link up. -/
def pairOpen : State :=
  on (put (put (bench .lit) .egress 1023 .running) .pgroup 127 .running) fun m =>
    { (m.wr O.pgMode 127 3).wr O.bpLinkState 1023 3 with dp.flags := [(8256 * 3 + 8191, true)] }

/-- RequestAndGrant: the last pair of reach 7 is granted, and with none pending nothing is. -/
theorem test_grant_issue :
    pairOpen.Live ∧ 8191 / 1024 = 7 ∧ pairOpen.m.grantable 7 8191 = true ∧
      gives (.grantIssue 7) pairOpen
        (fun t => mget 0 t.m.dp.out (8 * 8191 + 3) == t.m.rd O.gntSize && (t.m.rch 7).gntRot == 8192 && t.m.rd O.gntIssued 7 == 1) = true ∧
      gives (.grantIssue 7) (bench .lit) (fun t => t.m.rd O.gntIssued 7 == 0) = true := by decide

/-- A copy of packet 0 for port 5, class 2. -/
def copy0 : Copy :=
  { kind := 0, src := 0, inReach := 0, chan := 0, inPort := 5, inLif := 0, lif := 0, rw := 0, tc := 2, data := List.replicate 64 0, res := 0, dscp := none,
    ecn := false, verdict := 0, stamp := 0, flexe := false, group := 0, voq := 2, ptp := none, tag := 0, cell := none, waited := false, late := false }

/-- A state with the copy in flight on channel 0, its port up. -/
def flying (x : Copy) : State := on (bench .lit) fun m => { m.wr O.bpLinkState 0 3 with dp.chans := [(0, { flight := [x] })] }

/-- EgressReached: an arrival takes a cell and its queue; at a port that is down it is flushed; a multicast one waits to be replicated. -/
theorem test_arrival :
    (flying copy0).Live ∧ ((flying copy0).m.chan 0).flight = [copy0] ∧ (flying copy0).m.isolated .reach 0 = false ∧
      gives (.egressArrival 0) (flying copy0) (fun t => match t.m.eq 2 with | [x] => x.cell.isSome | _ => false) = true ∧
      gives (.egressArrival 0) (on (flying copy0) fun m => m.wr O.bpLinkState 0 0) (fun t => (t.m.eq 2).isEmpty && t.m.rd O.voqFlushed 0 == 1) = true ∧
      gives (.egressArrival 0) (flying { copy0 with kind := 2, voq := 8194 }) (fun t => (t.m.rch 0).mcq.length == 1) = true ∧
      gives (.egressArrival 7) (bench .lit) (fun t => t.m.dp.chans.isEmpty) = true := by decide

/-- Packet 0, which waits for a DONE of reach 7. -/
def owing : State := withPkt (bench .lit) { pkt0 with stage := .ready, done := [7] }

/-- EgressReached: a SKIP is answered by DONE, a DONE frees its packet, a port's state is seen, and a set stopped under DROP sheds. -/
theorem test_multicast_messages :
    owing.Live ∧
      gives (.skipArrival 0) (on owing fun m => { m with dp.chans := [(0, { msgs := [.skip 0 0 0 2] })] })
        (fun t => t.m.dp.chans.any fun p => p.2.msgs.any fun x => decide (x = .done 0 0)) = true ∧
      gives (.doneArrival 0) (on owing fun m => { m with dp.chans := [(0, { msgs := [.done 0 7] })] }) (fun t => (t.m.pkt 0).isNone) = true ∧
      gives (.doneArrival 0) (on (withPkt (bench .lit) { pkt0 with stage := .ready, done := [6, 7] }) fun m => { m with dp.chans := [(0, { msgs := [.done 0 7] })] })
        (fun t => match t.m.pkt 0 with | some x => x.done == [6] | none => false) = true ∧
      gives (.portStateArrival 0) (msg (.portState 1023 3)) (fun t => mget 0 (t.m.rch 0).view 1023 == 3) = true ∧
      gives (.voqDropDequeue 0) (on queued fun m => m.setFn 0x400 { state := .stopped, disp := 2 }) (fun t => (t.m.voq 0 42).q.isEmpty) = true ∧
      gives (.voqDropDequeue 0) queued (fun t => (t.m.voq 0 42).q.length == 1) = true := by decide

/-- A replication at reach 0 of a group of two members, of which the first is valid. -/
def replicating (next : Nat) : State :=
  on (bench .lit) fun m =>
    (m.setEnt O.mcMember 0 0 0x80000001).setRch 0 { m.rch 0 with repl := some { copy := { copy0 with kind := 2 }, group := pack [(4, 0), (2, 2), (2, 0)], next := next } }

/-- EgressReached: a replication goes member by member and ends after the last. -/
theorem test_replicate :
    (replicating 0).Live ∧ (replicating 0).m.mcLive 0 (pack [(4, 0), (2, 2), (2, 0)]) 0 0 = true ∧
      (replicating 0).m.mcLive 0 (pack [(4, 0), (2, 2), (2, 0)]) 1 0 = false ∧
      gives (.mcReplicate 0) (replicating 0) (fun t => match (t.m.rch 0).repl with | some y => y.next == 1 | none => false) = true ∧
      gives (.mcReplicate 0) (replicating 1) (fun t => (t.m.rch 0).repl.isNone) = true ∧
      gives (.mcReplicate 0) (bench .lit) (fun t => (t.m.rch 0).repl.isNone) = true := by decide

/-- Port 0 up and sending, with a frame in its queue of class 7 or in its crossing FIFO. -/
def sending (crossing : Bool) : State :=
  on (put (put (bench .lit) .egress 0 .running) .pgroup 0 .running) fun m =>
    let m := m.wr O.bpLinkState 0 3
    if crossing then m.setPort 0 { m.port 0 with txf := [{ copy0 with tc := 7 }], txEnd := 50 } else m.setEq 7 [{ copy0 with tc := 7 }]

/-- EgressServes: the head of the queue crosses, the head of the crossing FIFO starts, and a list that does not run schedules nothing. -/
theorem test_serve :
    (sending false).Live ∧ (sending false).m.running .egress 0 = true ∧ (sending false).m.linkSends 0 = true ∧ (sending false).m.txOcc 0 < 24576 ∧
      gives (.schedDecision 0) (sending false) (fun t => (t.m.eq 7).isEmpty && (t.m.port 0).txf.length == 1) = true ∧
      gives (.schedDecision 0) (put (sending false) .egress 0 .stopped) (fun t => (t.m.eq 7).length == 1) = true ∧
      (sending true).m.linkSends 0 = true ∧ (sending true).m.rdB O.esGateEn 0 = false ∧
      gives (.pcsFrameStart 0) (sending true)
        (fun t => (t.m.port 0).txf.isEmpty && t.m.ns == 50 && t.m.com.out.length == 1 && t.m.rd O.esSent 0 == 1 && (t.m.port 0).txCls == 7) = true ∧
      gives (.pcsFrameStart 0) (on (sending true) fun m => m.wr O.bpLinkState 0 1) (fun t => (t.m.port 0).txf.length == 1) = true := by decide

/-- ShapersAndGates: a refill of a port's shaper and of a queue's, and a queue shed under DROP. -/
theorem test_shapers :
    (bench .lit).Live ∧ (bench .lit).m.pendOf O.esPshapeRate 0 = none ∧ (bench .lit).m.pendEnt O.lifQueue 0 65535 = none ∧
      gives (.shaperRefill 0 none) (on (bench .lit) fun m => (m.wr O.esPshapeRate 0 1000).setPort 0 { m.port 0 with tok := 9000 })
        (fun t => (t.m.port 0).tok == 1000 && (t.m.port 0).tokAt == 64) = true ∧
      gives (.shaperRefill 1023 (some 0)) (bench .lit) (fun t => t.m.ns == 0) = true ∧
      gives (.shaperRefill 0 (some 7)) (on (bench .lit) fun m => { m.setEnt O.lifQueue 0 7 (setFld 16 0 4 4 10) with dp.qtok := [(7, 2000)] })
        (fun t => mget 0 t.m.dp.qtok 7 == 720 && mget 0 t.m.dp.qtokAt 7 == 1024) = true ∧
      gives (.egressDropDequeue 0) (on (sending false) fun m => m.setFn 0 { state := .stopped, disp := 2 }) (fun t => (t.m.eq 7).isEmpty) = true ∧
      gives (.egressDropDequeue 0) (sending false) (fun t => (t.m.eq 7).length == 1) = true := by decide

/-- Port 1023 with gates on, its list running, and lists A and B of one entry in a cycle of 1 ms. -/
def gated : State :=
  on (put (bench .lit) .egress 1023 .running) fun m =>
    let m := ((((m.wr O.esGateEn 1023 1).wr O.gclCycle 2047 1000000).wr O.gclCount 2047 1).wr O.gclCount 2046 2).setEnt O.gclEntries 2047 0 (pack [(1, 255), (3, 0), (4, 1000000)])
    m

/-- ShapersAndGates: a gate list waits for its cycle while the port's list runs, is refused when invalid, and lands. -/
theorem test_gates :
    gated.Live ∧ gated.Admits 0 O.esGateUse 1023 1 ∧ gated.m.running .egress 1023 = true ∧ gated.m.rdB O.esGateEn 1023 = true ∧
      gated.m.gclValid 2047 = true ∧ gated.m.gclValid 2046 = false ∧
      gives (.gateUseWrite 0 1023 1) gated (fun t => t.m.pendOf O.esGateUse 1023 == some 1 && (t.m.port 1023).gateAt == some 1000000) = true ∧
      gives (.gateUseWrite 0 1023 0) (put gated .egress 1023 .stopped) (fun t => decide (t.m.com.status = .range)) = true ∧
      gives (.gateUseWrite 0 1023 1) (put gated .egress 1023 .stopped) (fun t => t.m.rd O.esGateActive 1023 == 1) = true ∧
      gives (.gateSwitchLand 1023) (on gated fun m => (m.setPort 1023 { m.port 1023 with gateAt := some 1000000 }).setPend O.esGateUse 1023 (some 1))
        (fun t => t.m.rd O.esGateActive 1023 == 1 && (t.m.pendOf O.esGateUse 1023).isNone && t.m.ns == 1000000) = true ∧
      gives (.gateSwitchLand 1023) (on gated fun m => (m.setPort 1023 { m.port 1023 with gateAt := some 1000000 }).setPend O.esGateUse 1023 (some 0))
        (fun t => t.m.rd O.esGateActive 1023 == 0 && (t.m.pendOf O.esGateUse 1023).isNone) = true ∧
      gives (.gateSwitchLand 1023) gated (fun t => t.m.ns == 0) = true := by decide

/-! Time. -/

/-- The block 10 s after reset with an edge of PPS-IN at a time. -/
def pulsed (last : Option Nat) : State :=
  on (bench .lit) fun m => { m.wr O.ppsInEdge 0 1 with com.frc := 10000000000 * 65536, tb.ppsLast := last }

/-- TimeWritesLand: a rate and the three steps are admitted and wait; a second step, and one below 0, are refused. -/
theorem test_time_writes :
    (bench .lit).Live ∧ (bench .lit).Admits 0 O.tbRate 0 1000 ∧ (bench .lit).Admits 0 O.tbAdjust 0 5 ∧ (bench .lit).Admits 0 O.tbSet 0 21474836480 ∧
      (pulsed none).Admits 0 O.tbSetAtPps 0 21474836480 ∧
      gives (.tbRateWrite 0 1000) (bench .lit) (fun t => t.m.pendOf O.tbRate == some 1000 && t.m.rateAnchor == some (8192 * 65536)) = true ∧
      gives (.tbAdjust 0 5) (bench .lit) (fun t => decide (t.m.tb.step = some (.adjust 5))) = true ∧
      gives (.tbAdjust 0 (2 ^ 64 - 8193)) (bench .lit) (fun t => decide (t.m.com.status = .range)) = true ∧
      gives (.tbSet 0 21474836480) (bench .lit) (fun t => decide (t.m.com.status = .deferred)) = true ∧
      gives (.tbSet 0 21474836480) (on (bench .lit) fun m => { m with tb.step := some (.adjust 5) }) (fun t => decide (t.m.com.status = .busy)) = true ∧
      gives (.tbSetAtPps 0 21474836480) (pulsed none) (fun t => decide (t.m.com.status = .deferred)) = true := by decide

/-- AnchorPoint: the anchor of a change just before, and just after, 4 µs before a multiple of 8,192 ns. -/
theorem test_anchor :
    anchorOf 0 = 8192 * 65536 ∧ anchorOf (4192 * 65536) = 8192 * 65536 ∧ anchorOf (4192 * 65536 + 1) = 16384 * 65536 := by decide

/-- TimeWritesLand: a rate lands at its anchor; with nothing pending nothing happens. -/
theorem test_anchor_landing :
    (on (bench .lit) fun m => m.setPend O.tbRate 0 (some 1000)).m.stepAnchor = none ∧ (bench .lit).m.landOk O.tbRate 0 1000 = true ∧
      gives .anchorLanding (on (bench .lit) fun m => m.setPend O.tbRate 0 (some 1000))
        (fun t => t.m.com.frc == 8192 * 65536 && t.m.tb.rate == 1000 && t.m.rd O.tbRate == 1000) = true ∧
      gives .anchorLanding (bench .lit) (fun t => t.m.com.frc == 0) = true := by decide

/-- PulsesReferenceStamps: an accepted edge, one 1 ns too early, and one of the wrong sense. -/
theorem test_pps_in :
    (pulsed none).Live ∧ (pulsed none).m.rd O.ppsInEdge = 1 ∧
      gives (.ppsInEdge true) (pulsed (some 9500000000)) (fun t => t.m.rd O.ppsInCount == 1 && t.m.rd O.ppsInFrc == 10000000000) = true ∧
      gives (.ppsInEdge true) (pulsed (some 9500000001)) (fun t => t.m.rd O.ppsInSpurious == 1 && t.m.rd O.ppsInCount == 0) = true ∧
      gives (.ppsInEdge false) (pulsed none) (fun t => t.m.rd O.ppsInCount == 0) = true := by decide

/-- PulsesReferenceStamps: PPS-OUT rises, is skipped within 500 ms and falls. -/
theorem test_pps_out :
    (on (bench .lit) fun m => m.wr O.ppsOutEn 0 1).m.rdB O.ppsOutEn = true ∧
      gives .ppsOutEdge (on (bench .lit) fun m => m.wr O.ppsOutEn 0 1) (fun t => t.m.tb.ppsOut && t.m.tb.ppsRise.isSome) = true ∧
      gives .ppsOutEdge (bench .lit) (fun t => !t.m.tb.ppsOut) = true ∧
      gives .ppsOutFall (on (bench .lit) fun m => { m with tb.ppsOut := true, tb.ppsRise := some 7 })
        (fun t => !t.m.tb.ppsOut && t.m.ns == 7 + t.m.rd O.ppsOutWidth) = true ∧
      gives .ppsOutFall (bench .lit) (fun t => t.m.ns == 0) = true := by decide

/-- The block locked to the external reference. -/
def locked (v : Nat) : State := on (bench .lit) fun m => (m.wr O.tbRefSource 0 1).wr O.tbRefState 0 v

/-- PulsesReferenceStamps: the reference lost and found, and a read of the transmit timestamp queue. -/
theorem test_reference :
    (locked 1).Live ∧ (locked 1).m.flt.queue.length < 255 ∧
      gives .refLoss (locked 1) (fun t => t.m.rd O.tbRefState == 3 && t.m.flt.queue.length == 1) = true ∧
      gives .refLoss (bench .lit) (fun t => t.m.flt.queue.isEmpty) = true ∧
      gives .refRelock (locked 3) (fun t => t.m.rd O.tbRefState == 1) = true ∧
      gives .refRelock (locked 0) (fun t => t.m.rd O.tbRefState == 0) = true ∧
      (bench .lit).m.sesOn 0 = true ∧ readCheck (bench .lit).mc ((bench .lit).m.reqOf 0) O.tsTxqNext = none ∧
      gives (.tsTxqNextRead 0) (on (bench .lit) fun m => { m with tb.txq := [77, 78] }) (fun t => t.m.com.value == 77 && t.m.tb.txq == [78]) = true ∧
      gives (.tsTxqNextRead 0) (bench .lit) (fun t => t.m.com.value == 3 * 2 ^ 56) = true := by decide

/-! Counters and flare. -/

/-- CountersWrap: a counter at 2^64 - 1 wraps and is marked, and one below is not. -/
theorem test_count :
    ((bench .lit).m.count (bench .lit).mc O.portCnt 16383 0 (2 ^ 64 - 1)).entF O.portCnt 0 16383 0 8 = 2 ^ 64 - 1 ∧
      bit (((bench .lit).m.count (bench .lit).mc O.portCnt 16383 0 (2 ^ 64 - 1)).entF O.portCnt 0 16383 20 1) 0 = false ∧
      (((bench .lit).m.count (bench .lit).mc O.portCnt 16383 0 (2 ^ 64 - 1)).count (bench .lit).mc O.portCnt 16383 0 1).entF O.portCnt 0 16383 0 8 = 0 ∧
      bit ((((bench .lit).m.count (bench .lit).mc O.portCnt 16383 0 (2 ^ 64 - 1)).count (bench .lit).mc O.portCnt 16383 0 1).entF O.portCnt 0 16383 20 1) 0 =
        true := by decide

/-- Port counter 0 wrapped, with the value 5. -/
def wrapped : State := on (bench .lit) fun m => m.setEnt O.portCnt 0 0 (setFld 24 (setFld 24 0 0 8 5) 20 1 1)

/-- CountersServed: sticky bits of all tables, of this one and of another; a selection; a window's end. -/
theorem test_counters_served :
    wrapped.Live ∧ wrapped.Admits 0 O.cntStickyClear 0 1 ∧ wrapped.Admits 0 O.cntStickyClear 0 2 ∧ wrapped.Admits 0 O.gecSelect 255 0 ∧
      gives (.cntStickyClear 0 1) wrapped (fun t => t.m.entF O.portCnt 0 0 0 8 == 5 && t.m.entF O.portCnt 0 0 20 1 == 0) = true ∧
      gives (.cntStickyClear 0 2) wrapped (fun t => t.m.entF O.portCnt 0 0 20 1 == 1) = true ∧
      gives (.gecSelectWrite 0 255 0) wrapped (fun t => t.m.rd O.gecSelect 255 == 0) = true ∧
      gives (.gecSelectWrite 0 255 (288 * 2 ^ 32 + 0x40 * 2 ^ 24 + 2 ^ 16)) wrapped (fun t => t.m.gecCond t.mc (t.m.rd O.gecSelect 255) == some true &&
        t.m.entF O.gecValues 0 255 0 8 == 0) = true ∧
      (⟨5, some 9, 3⟩ : GecSpan).edges 20 false = 1 ∧ (⟨5, some 9, 3⟩ : GecSpan).level 20 = 4 ∧ (⟨5, some 9, 5⟩ : GecSpan).edges 20 true = 1 ∧
      (⟨5, none, 8⟩ : GecSpan).edges 20 true = 0 ∧ (⟨5, none, 8⟩ : GecSpan).level 20 = 12 ∧
      gives (.bwWindowEnd 1023) (on (bench .lit) fun m => m.setPort 1023 { m.port 1023 with bwRx := 9, bwTx := 8, bwPart := true })
        (fun t => (t.m.port 1023).bwRx == 0 && t.m.entF O.bw 0 1023 12 8 == 9 && t.m.entF O.bw 0 1023 20 8 == 8 && t.m.entF O.bw 0 1023 28 1 == 1) = true := by
  decide

/-- A buffer of basin 15 with one record of template 256, opened at 5 ns. -/
def buf0 : Xb := { basin := 15, buf := (0, 0), recs := [⟨0, 256, [1, 2, 3, 4]⟩], octs := 4, at_ := 5 }

/-- Collector 0 enabled for every kind. -/
def exporting : State := on (bench .lit) fun m => { (m.wr O.flColEn 0 1).wr O.flColKinds 0 1 with dp.xbuf := [(15, some buf0)] }

/-- FlareServed: a buffer is handed over, a message goes out, and a collector that is off sends no templates. -/
theorem test_flare :
    exporting.Live ∧ exporting.m.colTakes 0 buf0 = true ∧ (exporting.m.colBufs 0).length < exporting.m.rd O.flColQueue 0 ∧
      gives (.flBufferFlushAge 15) exporting (fun t => t.m.dp.xbuf.isEmpty && (t.m.col 0).q.length == 1 && (t.m.col 1).q.isEmpty) = true ∧
      gives (.flBufferFlushAge 0) exporting (fun t => t.m.dp.xbuf.length == 1) = true ∧
      gives (.flMessageSend 0 3) (on exporting fun m => ((m.wr O.flColPath 0 2).wr O.flColDest 0 (2 ^ 28)).setCol 0 { m.col 0 with q := [(3, .buf buf0)], known := [(3, 256)] })
        (fun t => (t.m.col 0).q.isEmpty && t.m.rd O.flColLostPath 0 == 1) = true ∧
      (exporting.m.col 0).lack = 0 ∧ exporting.m.rd O.flColPath 0 ≠ 2 ∧
      exporting.m.colLeft 0 buf0 = [(0, ⟨0, 256, [1, 2, 3, 4]⟩)] ∧
      gives (.flMessageSend 0 3) (on exporting fun m => (m.wr O.flColKinds 0 2).setCol 0 { m.col 0 with q := [(3, .buf buf0)] })
        (fun t => (t.m.col 0).q.isEmpty && t.m.rd O.flColMessages 0 == 0) = true ∧
      takeRecs (exporting.m.rd O.flColMtu 0 - 16) 0 [] [] 0 buf0.recs = ([1, 0, 0, 8, 1, 2, 3, 4], 1, []) ∧
      gives (.flMessageSend 3 0) exporting (fun t => t.m.com.out.isEmpty) = true ∧
      exporting.m.rdB O.flColEn 0 = true ∧ exporting.m.rdB O.flColEn 3 = false ∧
      gives (.flTemplatePeriod 3) exporting (fun t => t.m.ns == 0) = true := by decide

/-- FlareServed: losses are told once; a collector is disabled; a template is written. -/
theorem test_flare_config :
    gives .flLossSecond (on (bench .lit) fun m => m.wr O.flLossNobuf 0 5) (fun t => t.m.dp.lossSeen == 5) = true ∧
      gives .flLossSecond (bench .lit) (fun t => t.m.ns == 1000000000 && t.m.tb.lossSec == 1 && t.m.com.out.isEmpty) = true ∧
      exporting.Admits 0 O.flColEn 0 0 ∧ exporting.Admits 0 O.flColEn 3 1 ∧
      gives (.flColEnWrite 0 0 0) (on exporting fun m => m.setCol 0 { m.col 0 with q := [(3, .buf buf0)] }) (fun t => (t.m.col 0).q.isEmpty && t.m.rd O.flColEn 0 == 0) = true ∧
      exporting.m.sesOn 0 = true ∧ exporting.m.winCheck exporting.mc (exporting.m.reqOf 0) O.flTemplate = none ∧
      gives (.flTemplateWrite 0 15 (2 ^ 19 - 1)) exporting (fun t => t.m.entF O.flTemplate 0 15 0 4 == 2 ^ 19 - 1) = true := by decide

/-! Flow records. Key 7 belongs to basin 5. -/

/-- An in-flight entry on key 7. -/
def entry0 : Ift :=
  { op := .packet 0, key := 7, hash := 1477774535, q := 0, at_ := 0, seq := 0, look := .idle, reads := 0, result := none, creating := false, behind := false,
    wayWait := false, joined := false }

/-- A state with entry 0 of basin 5. -/
def inFlight (x : Ift) : State := on (put (bench .lit) .basin 5 .running) fun m => m.setIft 5 0 (some x)

/-- A valid record of key 7, its first slot, and a state whose eddy holds it. -/
def rec7 : Nat := rset (rset 0 0 48 7) 48 1 0x80
def slot7 : Nat := slotKey 5 (4 * 1379527)
def cached (s : State) : State := on s fun m => m.setWay (wayKey 5 1477774535 0) (some ⟨slot7, rec7, false, 0, 1, 0, 0⟩)

/-- BasinEntries: a query takes an entry; with none on its way nothing happens. -/
theorem test_query :
    (bench .lit).Live ∧ ((bench .lit).m.basin 5).inPkt = [] ∧ ((bench .lit).m.basin 5).inOther = [] ∧ chanNum 2 2 0 = 72 ∧
      (bench .lit).m.freeEntry 5 true = some 0 ∧
      gives (.queryReceipt 5 2) (on (put (bench .lit) .basin 5 .running) fun m => { m with dp.chans := [(72, { msgs := [.query 5 0 (setFld 64 0 0 48 7)] })] })
        (fun t => match t.m.ift 5 0 with | some x => x.key == 7 && decide (x.op = .packet 0) | none => false) = true ∧
      gives (.queryReceipt 5 7) (bench .lit) (fun t => (t.m.ift 5 0).isNone) = true := by decide +kernel

/-- BasinEntries: a lookup goes on to the second bucket, ends absent, takes the tail of its slot and finds its record; one that still reads waits. -/
theorem test_lookup :
    (inFlight { entry0 with look := .heads false }).Live ∧
      gives (.bucketReadDone 5 0) (inFlight { entry0 with look := .heads false })
        (fun t => match t.m.ift 5 0 with | some x => decide (x.look = .heads true) | none => false) = true ∧
      gives (.bucketReadDone 5 0) (inFlight { entry0 with look := .heads true })
        (fun t => match t.m.ift 5 0 with | some x => decide (x.look = .absent) | none => false) = true ∧
      gives (.bucketReadDone 5 0) (inFlight { entry0 with look := .heads false, reads := 1 })
        (fun t => match t.m.ift 5 0 with | some x => decide (x.look = .heads false) | none => false) = true ∧
      gives (.bucketReadDone 5 0) (cached (inFlight { entry0 with look := .heads false }))
        (fun t => match t.m.ift 5 0 with | some x => decide (x.look = .tail slot7) | none => false) = true ∧
      gives (.bucketReadDone 5 0) (inFlight { entry0 with look := .tail slot7 })
        (fun t => match t.m.ift 5 0 with | some x => decide (x.look = .absent) | none => false) = true ∧
      gives (.bucketReadDone 5 0) (bench .lit) (fun t => (t.m.ift 5 0).isNone) = true := by decide

/-- BasinEntries: a result joins its entry, a PARK and the end of the wait release it. -/
theorem test_results :
    chansTo 2 ≠ [] ∧ (inFlight entry0).m.resultFor 5 0 (.result 5 0 99) = true ∧ (inFlight entry0).m.parkFor 5 0 (.park 5 0) = true ∧
      gives (.resultArrival 5 0) (on (inFlight entry0) fun m => { m with dp.chans := [(72, { msgs := [.result 5 0 99] })] })
        (fun t => match t.m.ift 5 0 with | some x => x.result == some 99 | none => false) = true ∧
      gives (.resultArrival 5 0) (bench .lit) (fun t => (t.m.ift 5 0).isNone) = true ∧
      gives (.parkArrival 5 0) (on (inFlight entry0) fun m => { m with dp.chans := [(72, { msgs := [.park 5 0] })] })
        (fun t => (t.m.ift 5 0).isNone && t.m.rd O.iftParks 5 == 1) = true ∧
      gives (.parkArrival 5 0) (inFlight entry0) (fun t => (t.m.ift 5 0).isSome) = true ∧
      gives (.verdictWaitBasin 5 0) (inFlight entry0) (fun t => (t.m.ift 5 0).isNone && t.m.rd O.iftOrphans 5 == 1) = true ∧
      gives (.verdictWaitBasin 5 0) (inFlight { entry0 with result := some 9 }) (fun t => (t.m.ift 5 0).isSome) = true := by decide

/-- OperationsApplied: a found record is counted, an absent key goes without one, is refused by the budget, or posts its CREATE. -/
theorem test_apply :
    (inFlight { entry0 with look := .absent, result := some 0 }).m.isHead 5 { entry0 with look := .absent, result := some 0 } = true ∧
      (cached (inFlight { entry0 with look := .found, result := some 0 })).m.wayByKey 5 1477774535 7 =
        some (wayKey 5 1477774535 0, ⟨slot7, rec7, false, 0, 1, 0, 0⟩) ∧
      (bench .lit).m.expired rec7 = none ∧
      gives (.operationApply 5 0) (cached (inFlight { entry0 with look := .found, result := some 0 }))
        (fun t => match t.m.way (wayKey 5 1477774535 0) with | some w => w.dirty && rValid w.rec_ && (t.m.ift 5 0).isNone | none => false) = true ∧
      gives (.operationApply 5 0) (inFlight { entry0 with look := .absent, result := some (setFld 16 0 9 1 0x80) }) (fun t => (t.m.ift 5 0).isNone) = true ∧
      gives (.operationApply 5 0) (on (inFlight { entry0 with look := .absent, result := some 0 }) fun m => (m.wr O.crbBurst 5 0).setEnt O.flwClass 0 0 (2 ^ 255))
        (fun t => t.m.rd O.refuseBudget 5 == 1) = true ∧
      gives (.operationApply 5 0)
        (on (inFlight { entry0 with look := .absent, result := some 0 }) fun m =>
          (m.setEnt O.flwClass 0 0 (2 ^ 255)).setBasin 5 { m.basin 5 with tok := 2000000000 })
        (fun t => match t.m.ift 5 0 with | some x => x.creating && (t.m.slu 5).inbox.length == 1 | none => false) = true ∧
      gives (.operationApply 5 1) (bench .lit) (fun t => (t.m.ift 5 1).isNone) = true := by decide

/-- OperationsApplied: a dirty record is written back at its age, a clean one is not. -/
theorem test_write_back :
    (cached (bench .lit)).m.wayBySlot slot7 = some (wayKey 5 1477774535 0, ⟨slot7, rec7, false, 0, 1, 0, 0⟩) ∧
      gives (.writeBackAge 5 (4 * 1379527)) (cached (bench .lit)) (fun t => t.m.ns == 0) = true ∧
      gives (.writeBackAge 5 (4 * 1379527)) (on (bench .lit) fun m => m.setWay (wayKey 5 1477774535 0) (some ⟨slot7, rec7, true, 5, 1, 0, 0⟩))
        (fun t => mget none t.m.dp.wbq slot7 == some rec7) = true := by decide +kernel

/-- Request entry 255 of session 0: an operation on key 7, with a source record. -/
def request (op : Nat) (s : State) : State :=
  on (put s .basin 5 .running) fun m => m.setEnt O.flwReq 0 (reqIdx 0 255) (setFld 192 (setFld 192 (setFld 192 0 0 1 op) 16 48 7) 64 128 (rset 0 0 48 7))

/-- FlowRequests: what a request asks of its state. -/
theorem test_asked : Asked (request 1 (bench .lit)) 0 255 1 7 5 0 :=
  ⟨by decide, by decide, by decide, by decide, by decide, by decide, by decide, by decide, by decide, by decide⟩

/-- FlowRequests: LOOKUP finds and does not find, INSERT finds its key taken and makes a record, UPDATE and DELETE act on the record. -/
theorem test_requests :
    flowReqRow 0 255 1 = some (.flwReqLookup 0 255) ∧ (cached (request 1 (bench .lit))).m.findRec 7 = some (slot7, rec7) ∧
      gives (.flwReqLookup 0 255) (cached (request 1 (bench .lit))) (fun t => fld 192 (t.m.reqEnt 0 255) 1 1 == 1) = true ∧
      gives (.flwReqLookup 0 255) (request 1 (bench .lit)) (fun t => fld 192 (t.m.reqEnt 0 255) 1 1 == 0 && (t.m.ift 5 0).isSome) = true ∧
      gives (.flwReqInsert 0 255) (cached (request 2 (bench .lit))) (fun t => fld 192 (t.m.reqEnt 0 255) 1 1 == 3) = true ∧
      gives (.flwReqUpdate 0 255) (cached (request 3 (bench .lit))) (fun t => fld 192 (t.m.reqEnt 0 255) 1 1 == 1) = true ∧
      gives (.flwReqDelete 0 255) (cached (request 4 (bench .lit))) (fun t => fld 192 (t.m.reqEnt 0 255) 1 1 == 1 && (t.m.findRec 7).isNone) = true := by decide +kernel

/-- Request entry 255 of session 0 as it heads its key's chain, its lookup done with the record absent. -/
def requested (op : Nat) (look : Look) : State :=
  on (request op (bench .lit)) fun m => m.setIft 5 0 (some { entry0 with op := .host 0 255, look := look })

/-- FlowRequests: LOOKUP does not find, INSERT makes a record, and an entry whose lookup is not done waits. -/
theorem test_requests_absent :
    (requested 2 .absent).Live ∧ ((requested 2 .absent).m.ift 5 0).any (fun x => (requested 2 .absent).m.isHead 5 x && x.looked) = true ∧
      (requested 2 .absent).m.hostServes 5 7 = true ∧
      gives (.operationApply 5 0) (requested 1 .absent) (fun t => fld 192 (t.m.reqEnt 0 255) 1 1 == 2 && (t.m.ift 5 0).isNone) = true ∧
      gives (.operationApply 5 0) (requested 2 .absent) (fun t => fld 192 (t.m.reqEnt 0 255) 1 1 == 1 && (t.m.findRec 7).isSome) = true ∧
      gives (.operationApply 5 0) (requested 3 .absent) (fun t => fld 192 (t.m.reqEnt 0 255) 1 1 == 2) = true ∧
      gives (.operationApply 5 0) (requested 4 (.heads false)) (fun t => fld 192 (t.m.reqEnt 0 255) 1 1 == 0 && (t.m.ift 5 0).isSome) = true := by decide

/-- FlowRequests: the table cleared, sized and grown. -/
theorem test_flow_table :
    (bench .lit).Admits 0 O.flwClear 0 0 ∧ (bench .lit).m.basinsStopped = true ∧ (bench .lit).Admits 0 O.flwSizeLog2 0 24 ∧ (bench .lit).Admits 0 O.flwGrow 0 0 ∧
      gives (.flwClear 0) (cached (bench .lit)) (fun t => t.m.flwStateV == 1 && t.m.dp.eddy.isEmpty) = true ∧
      gives (.flwClear 0) (put (bench .lit) .basin 15 .running) (fun t => decide (t.m.com.status = .functionRunning)) = true ∧
      gives .flwClearDone (on (bench .lit) fun m => { m with dp.clearing := true }) (fun t => !t.m.dp.clearing) = true ∧
      gives (.flwSizeWrite 0 24) (cached (bench .lit)) (fun t => t.m.rd O.flwSizeLog2 == 24 && t.m.dp.eddy.isEmpty) = true ∧
      gives (.flwGrow 0) (on (bench .lit) fun m => m.wr O.flwSizeLog2 0 24) (fun t => t.m.flwStateV == 2) = true ∧
      gives (.flwGrow 0) (on (bench .lit) fun m => { m.wr O.flwSizeLog2 0 27 with dp.clearing := true }) (fun t => decide (t.m.com.status = .busy)) = true ∧
      gives (.flwGrow 0) (on (bench .lit) fun m => m.wr O.flwSizeLog2 0 28) (fun t => decide (t.m.com.status = .range)) = true := by decide

/-! HBM and pools. -/

/-- A pseudo-channel's request of a line. -/
def hreq (write : Bool) (line : Nat) : HReq := { write := write, line := line, lines := 1, cls := .flow, opn := false, look := none, wb := none, who := 5 }

/-- Pseudo-channel 511 with a request at the head of its queue. -/
def pcWith (x : HReq) : State := on (bench .lit) fun m => m.setPc 511 { m.pc 511 with q := [x] }

/-- The same with a STALE stack 7, or its partner lost. -/
def pcAlone (x : HReq) : State := on (pcWith x) fun m => { m with flt.rebuild := [(3, true)] }

/-- HbmServes: a request enters its queue, waits at a full one, and a mirrored write enters both. -/
theorem test_hbm_request :
    (bench .lit).Live ∧ stacksOn (bench .lit).mc = true ∧ (bench .lit).m.stackLost 7 = false ∧ ((bench .lit).m.hchan (pcChan 511)).sr = 0 ∧
      (bench .lit).m.pcRoom 511 false = true ∧ (⟨7, 511, 1, false, .flow, 5⟩ : HbmReq).wf = true ∧ (bench .lit).m.pcOf 7 511 = 511 ∧
      gives (.hbmRequest ⟨7, 511, 1, false, .flow, 5⟩) (bench .lit) (fun t => (t.m.pc 511).q == [{ hreq false 511 with acc := 1 }]) = true ∧
      gives (.hbmRequest ⟨7, 511, 1, false, .flow, 5⟩) (on (bench .lit) fun m => m.setPc 511 { q := List.replicate 136 (hreq false 0) })
        (fun t => (t.m.pc 511).wait.length == 1 && t.m.rd O.pcQfullWaits 511 == 1) = true ∧
      gives (.hbmRequest ⟨7, 511, 1, true, .flow, 5⟩) (bench .lit) (fun t => (t.m.pc 511).q.length == 1 && (t.m.pc 255).q.length == 1) = true ∧
      gives (.hbmRequest ⟨7, 0, 8, false, .flow, 5⟩) (on (bench .lit) fun m => m.wr O.hbmMapOrder 0 0)
        (fun t => (List.range 8).all fun k => (t.m.pc (448 + k)).q.length == 1) = true := by decide

/-- HbmServes: reads and writes complete from the head of the queue under each outcome of the ECC; an empty queue has nothing to complete. -/
theorem test_hbm_complete :
    (pcWith (hreq false 0)).m.pcServes (bench .lit).mc 511 = true ∧ ((pcWith (hreq false 0)).m.pc 511).wait = [] ∧
      gives (.hbmReadComplete 511 .clean) (pcWith (hreq false 0)) (fun t => (t.m.pc 511).q.isEmpty && t.m.rd O.pcReads 511 == 1) = true ∧
      gives (.hbmReadComplete 511 .corrected) (pcWith (hreq false 0)) (fun t => t.m.rd O.stkCe 7 == 1) = true ∧
      (bench .lit).m.lineUse 7 0 = .head (slotKey 13 0) ∧ (bench .lit).m.readServes 7 = true ∧ (pcAlone (hreq false 0)).m.readServes 3 = false ∧
      gives (.hbmReadComplete 511 .uncorrectable) (pcAlone (hreq false 0)) (fun t => mget false t.m.dp.gone (slotKey 13 0)) = true ∧
      gives (.hbmReadComplete 511 .uncorrectable) (pcWith (hreq false 0)) (fun t => (t.m.pc 511).q.isEmpty && (t.m.pc 255).q.any (·.mend)) = true ∧
      gives (.hbmReadComplete 511 .clean) (pcWith { hreq false 67108864 with mend := true }) (fun t => t.m.rd O.stkRepaired 3 == 1 && (t.m.pc 255).q.length == 1) = true ∧
      gives (.hbmReadComplete 511 .uncorrectable) (pcWith { hreq false 67108864 with mend := true }) (fun t => !t.m.dp.gone.isEmpty) = true ∧
      gives (.hbmReadComplete 511 .uncorrectableBoth) (pcWith { hreq false poolLines with who := 1 }) (fun t => (t.m.hpool 14).frozen) = true ∧
      gives (.hbmWriteComplete 511) (pcWith { hreq true 0 with lines := 2, wb := some (5, 3, 77) })
        (fun t => t.m.rd O.pcWrites 511 == 2 && mget 0 t.m.dp.hbm (3 * 2 ^ 32 + 5) == 77) = true ∧
      gives (.hbmWriteComplete 0) (bench .lit) (fun t => t.m.rd O.pcWrites 0 == 0) = true := by decide

/-- HbmServes: a refresh is postponed while its bank is needed and none is once 8 are owed. -/
theorem test_refresh :
    (pcWith (hreq false 0)).m.bankOf 0 = 0 ∧ (pcWith (hreq false 0)).m.pcServes (bench .lit).mc 511 = true ∧
      gives (.hbmRefresh 511 0) (pcWith (hreq false 0)) (fun t => mget 0 (t.m.pc 511).owed 0 == 1) = true ∧
      gives (.hbmRefresh 511 15) (pcWith (hreq false 0)) (fun t => (t.m.pc 511).owed.isEmpty) = true ∧
      gives (.hbmRefresh 511 0) (on (pcWith (hreq false 0)) fun m => m.setPc 511 { m.pc 511 with owed := [(0, 7)], rows := [(0, some 5)] })
        (fun t => (t.m.pc 511).owed.isEmpty && (t.m.pc 511).rows.isEmpty) = true := by decide

/-- The block with idle self-refresh on. -/
def idleOn : State := on (bench .lit) fun m => m.wr O.hbmIdleSr 0 1

/-- HbmKept: training at 85 and 86 °C and one that fails; self-refresh begun and left; scrub reads; the map order. -/
theorem test_hbm_kept :
    idleOn.m.rdB O.hbmIdleSr = true ∧ (bench .lit).m.flt.queue.length < 255 ∧
      gives (.hbmRetrain 7 31 true 85) (bench .lit) (fun t => t.m.rd O.stkTemp 7 == 85 && t.m.rd O.stkRefreshX 7 == 0 && t.m.rd O.stkRetrains 7 == 1) = true ∧
      gives (.hbmRetrain 7 31 true 86) (bench .lit) (fun t => t.m.rd O.stkRefreshX 7 == 1) = true ∧
      gives (.hbmRetrain 7 31 false 20) (bench .lit) (fun t => t.m.flt.queue.length == 1) = true ∧
      gives (.selfRefreshIdle 7 31) idleOn (fun t => (t.m.hchan 255).sr == 1) = true ∧
      (on (pcWith (hreq false 0)) fun m => { m with com.frc := 40 * 65536, dp.hch := [(255, { sr := 1 })] }).m.srCommitted 255 = true ∧
      gives (.selfRefreshExit 7 31) (on (pcWith (hreq false 0)) fun m => { m with com.frc := 40 * 65536, dp.hch := [(255, { sr := 1 })] })
        (fun t => (t.m.hchan 255).sr == 0 && decide (940 ≤ t.m.ns) && t.m.srEntries 255 == 1) = true := by decide

/-- HbmKept: scrub reads and a new mapping order. -/
theorem test_scrub_and_map :
    (bench .lit).m.stackStale 7 = false ∧ (bench .lit).m.rd O.hbmScrubPeriod ≠ 0 ∧ (bench .lit).Admits 0 O.hbmMapOrder 0 1 ∧
      gives (.hbmScrub 7 0 .clean) (bench .lit) (fun t => mget 0 t.m.dp.scrubAt 7 == 1 && (t.m.pc 448).q.any (·.scrub)) = true ∧
      gives (.hbmScrub 7 1 .clean) (bench .lit) (fun t => t.m.dp.scrubAt.isEmpty) = true ∧
      gives (.hbmReadComplete 511 .clean) (pcWith { hreq false (2 ^ 28 - 1) with scrub := true, ecc := some .corrected })
        (fun t => t.m.rd O.stkScrubPass 7 == 1 && t.m.rd O.stkCe 7 == 1 && (t.m.pc 511).q.any (·.write)) = true ∧
      gives (.hbmMapOrderWrite 0 1) (cached (bench .lit)) (fun t => t.m.rd O.hbmMapOrder == 1 && t.m.dp.eddy.isEmpty) = true ∧
      gives .remapDone (on (bench .lit) fun m => { m with dp.remapping := true }) (fun t => !t.m.dp.remapping) = true := by decide

/-- Cell 5 of pool 3 of reach 7, owned by its ingress writer. -/
def celled : State := on (bench .lit) fun m => { m with dp.pools := [(31, { fresh := 6, used := [(5, some ⟨1, 1000, 7⟩)] })] }

/-- PoolsServe: of two requests for the last cell of 2 KiB, the owner next in rotation has it, and the other takes a cell of 16 KiB. -/
theorem test_pool_arbiter :
    let m := ((bench .lit).m.setPool 1 2 { fresh := 4095, rot := 30 }).cellArb 1 [⟨⟨5, 0, 0⟩, 2⟩, ⟨⟨40, 0, 0⟩, 2⟩]
    m.1.map (·.2) = [(2, 4095), (3, 0)] ∧ m.1.map (·.1.word.owner) = [40, 5] ∧ (m.2.pool 1 2).rot = 41 ∧ (m.2.pool 1 3).rot = 6 := by decide

/-- PoolsServe: a cell freed by its owner and by another. -/
theorem test_cell_free :
    celled.Live ∧ celled.m.cellOk 7 (3, 5) 1 = true ∧ celled.m.cellOk 7 (3, 5) 2 = false ∧
      gives (.cellFree 7 3 5 1) celled (fun t => (t.m.cellOf 7 (3, 5)).isNone && (t.m.pool 7 3).freed == [5]) = true ∧
      gives (.cellFree 7 3 5 2) celled (fun t => (t.m.cellOf 7 (3, 5)).isSome && t.m.rd O.bufpFreeFaults 31 == 1) = true := by decide

/-- PoolsServe: an HBM buffer allocated, refused over the basin's limit, freed, and freed once too often; stock and rebuild. -/
theorem test_hbm_pools :
    (bench .lit).m.poolStack 5 = 3 ∧ (bench .lit).m.hpoolState (bench .lit).mc 7 = 0 ∧ ((bench .lit).m.hpool 7).free ≠ 0 ∧
      gives (.hbmPoolAlloc 5 4097) (bench .lit) (fun t => (t.m.hpool 7).free == 262143 && (t.m.hpool 7).stock == 31 && t.m.rd O.hrqInuse 5 == bufSize 7) = true ∧
      gives (.hbmPoolAlloc 5 4096) (on (bench .lit) fun m => m.wr O.hrqLimit 5 0) (fun t => t.m.rd O.hrqQuotaRefused 5 == 1) = true ∧
      gives (.hbmStockRefill 7) (on (bench .lit) fun m => m.setHpool 7 { m.hpool 7 with stock := 31 }) (fun t => (t.m.hpool 7).stock == 32) = true ∧
      gives (.hbmStockRefill 7) (bench .lit) (fun t => (t.m.hpool 7).stock == 32) = true ∧
      (bench .lit).m.mayTake (bench .lit).mc true = true ∧
      gives (.hbmPoolAlloc 5 4096) (bench .trim) (fun t => (t.m.hpool 6).free == 262144 && t.m.rd O.hrqInuse 5 == 0) = true ∧
      gives (.hbmPoolFree 5 3 (poolStart 7)) (on (bench .lit) fun m => (m.wr O.hrqInuse 5 (bufSize 7)).setHpool 7 { m.hpool 7 with free := 262143, fresh := 1 })
        (fun t => (t.m.hpool 7).free == 262144 && (t.m.hpool 7).freed == [0] && t.m.rd O.hrqInuse 5 == 0) = true ∧
      gives (.hbmPoolFree 5 3 (poolStart 7)) (on (bench .lit) fun m => m.wr O.hrqInuse 5 (bufSize 7)) (fun t => (t.m.hpool 7).frozen) = true ∧
      gives (.hbmPoolFree 5 3 (poolStart 7 + 262144 * 8192)) (bench .lit) (fun t => t.m.flt.queue.length == 1) = true ∧
      gives (.hbmPoolFree 5 3 (poolStart 7 - 1)) (bench .lit) (fun t => t.m.flt.queue.length == 1) = true ∧
      gives (.hbmPoolFree 5 3 (poolStart 7 + 4096)) (on (bench .lit) fun m => m.wr O.hrqInuse 5 (bufSize 7)) (fun t => t.m.flt.queue.length == 1 && !(t.m.hpool 7).frozen) = true := by decide

/-- PoolsServe: a pool rebuilt while its sluices are STOPPED. -/
theorem test_hpl_rebuild :
    (bench .lit).Admits 0 O.hplRebuild 0 15 ∧ ((stackBasins 7).all fun b => decide ((bench .lit).m.fst (fnNum .sluice b) = .stopped)) = true ∧
      gives (.hplRebuild 0 15) (bench .lit) (fun t => (t.m.hpool 15).rebuilding && decide (t.m.com.status = .deferred)) = true ∧
      gives (.hplRebuild 0 15) (put (bench .lit) .sluice 15 .running) (fun t => decide (t.m.com.status = .functionRunning)) = true ∧
      gives (.hplRebuildDone 15) (on (bench .lit) fun m => m.setHpool 15 { m.hpool 15 with rebuilding := true }) (fun t => !(t.m.hpool 15).rebuilding) = true := by
  decide

/-! Sluices and mills. -/

/-- An event of a kind with an argument. -/
def event (kind arg : Nat) : Ev := mkEv kind 0 5 domNone arg 0 0

/-- Sluice 5 running, with events that arrive. -/
def arriving (l : List Ev) : State := on (put (bench .lit) .sluice 5 .running) fun m => m.setSlu 5 { m.slu 5 with inbox := l }

/-- EventsDispatched: an event joins its list, or waits at a full one. -/
theorem test_event_post :
    (arriving []).Live ∧ (arriving []).m.takeMsg (chansTo 2) (eventFor 5) = none ∧ (arriving []).m.running .sluice 5 = true ∧
      gives (.eventPost 5) (arriving [event 1 0]) (fun t => (t.m.slu 5).flow.length == 1 && (t.m.slu 5).inbox.isEmpty) = true ∧
      gives (.eventPost 5) (arriving [event 9 0]) (fun t => (t.m.slu 5).maint.length == 1) = true ∧
      gives (.eventPost 5) (arriving []) (fun t => (t.m.slu 5).flow.isEmpty) = true ∧
      gives (.eventPost 5) (on (arriving []) fun m => { m with dp.chans := [(72, { msgs := [.event 5 (event 8 0)] })] })
        (fun t => (t.m.slu 5).exp.length == 1) = true ∧
      gives (.eventPost 5) (on (arriving [event 7 0]) fun m => m.setSlu 5 { m.slu 5 with age := List.replicate 4096 (event 7 0) })
        (fun t => (t.m.slu 5).inbox == [{ event 7 0 with waited := true }] && t.m.rd O.sluPostWaits 5 == 1) = true := by decide

/-- Context 3 of sluice 5 with an event. -/
def context (e : Ev) : State :=
  on (put (put (bench .lit) .sluice 5 .running) .basin 5 .running) fun m => m.setSlu 5 { m.slu 5 with ctxs := [(3, some { ev := e, cls := 0, shared := false, ord := 0, asked := false, reply := none })] }

/-- EventsDispatched: an event enters a free context; the timers post their events; a trace is armed. -/
theorem test_dispatch :
    gives (.eventDispatch 5) (on (arriving []) fun m => m.setSlu 5 { m.slu 5 with flow := [event 1 0] })
        (fun t => (t.m.ctx 5 0).isSome && (t.m.slu 5).flow.isEmpty && t.m.rd O.sluDispatched 5 == 1) = true ∧
      gives (.eventDispatch 5) (bench .lit) (fun t => t.m.rd O.sluDispatched 5 == 0) = true ∧
      (arriving []).m.sharesOf 5 ≠ [] ∧
      gives (.sweepTimer 5) (arriving []) (fun t => (t.m.slu 5).sweepOut && (t.m.slu 5).inbox.length == 1) = true ∧
      gives (.sweepTimer 5) (on (arriving []) fun m => m.setSlu 5 { m.slu 5 with sweepOut := true }) (fun t => (t.m.slu 5).sweepDue && (t.m.slu 5).inbox.isEmpty) = true ∧
      gives (.sweepTimer 5) (bench .lit) (fun t => t.m.ns == 0) = true ∧
      gives (.splitTimer 5) (on (put (arriving []) .basin 5 .running) fun m => { m with dp.growing := true })
        (fun t => (t.m.slu 5).splitOut && (t.m.slu 5).inbox.length == 1) = true ∧
      gives (.splitTimer 5) (arriving []) (fun t => !(t.m.slu 5).splitOut) = true ∧
      (bench .lit).Admits 0 O.trcArm 15 0 ∧
      gives (.trcArm 0 15) (on (bench .lit) fun m => m.wr O.trcMode 15 1) (fun t => t.m.rd O.trcState 15 == 1) = true ∧
      gives (.trcArm 0 15) (bench .lit) (fun t => t.m.rd O.trcState 15 == 0) = true := by decide

/-- Whether an event has its turn. -/
def heads (t : Turn) : Bool := match t with | .head .. => true | _ => false

/-- Context 3 of sluice 5 with a CREATE for entry 0, whose packet's result names a destination. -/
def creating (dest : Nat) : State :=
  on (context { event 1 0 with sender := entry0.seq }) fun m => m.setIft 5 0 (some { entry0 with look := .absent, creating := true, result := some (setFld 16 0 4 4 dest), cls := m.ent O.flwClass 0 0 })

/-- RecordsCreated: CREATE makes a record, and is refused where its backend group is none. -/
theorem test_create :
    heads ((creating 0x10000000).m.turn 5 3 1) = true ∧ (bench .lit).m.entF O.epTable 0 0 0 1 ≠ 1 ∧ (bench .lit).m.poolOf ((bench .lit).m.ent O.flwClass 0 0) = .none ∧
      gives (.create 5 3) (creating 0x10000000) (fun t => (t.m.ctx 5 3).isNone && (t.m.findRec 7).isSome && t.m.rd O.bsnCreated 5 == 1) = true ∧
      gives (.create 5 3) (creating 0x50000000) (fun t => (t.m.ctx 5 3).isNone && (t.m.findRec 7).isNone && t.m.rd O.bsnEndpointInvalid 5 == 1) = true ∧
      gives (.create 5 3) (bench .lit) (fun t => t.m.rd O.bsnCreated 5 == 0) = true := by decide

/-- Context 3 of sluice 5 with an event on key 7 that heads its chain. -/
def onKey (e : Ev) (found := false) : State := on (context e) fun m => m.setIft 5 0 (some { entry0 with op := .mill 3, look := if found then .found else .absent })

/-- RecordsCreated: LINK-CREATE with its basin stopped, PAIR-NOTE and PAIR-DELETE without a record, and a PAIR-NOTE whose record is not paired with its sender. -/
theorem test_pairs :
    heads ((onKey (event 2 0)).m.turn 5 3 2) = true ∧ heads ((onKey (event 3 0)).m.turn 5 3 3) = true ∧ heads ((onKey (event 4 0)).m.turn 5 3 4) = true ∧
      (onKey (event 4 0)).m.findRec 7 = none ∧
      gives (.linkCreate 5 3) (put (onKey (event 2 0)) .basin 5 .stopped)
        (fun t => match t.m.ctx 5 3 with | some x => x.posts == 1 && x.fin.isSome | none => false) = true ∧
      gives (.pairNote 5 3) (onKey (event 3 0)) (fun t => (t.m.ctx 5 3).isNone && t.m.rd O.pairNoteVoid 5 == 1) = true ∧
      gives (.pairNote 5 3) (cached (onKey (event 3 0) true)) (fun t => (t.m.ctx 5 3).isNone && t.m.rd O.pairNoteVoid 5 == 1 && (t.m.findRec 7).isSome) = true ∧
      gives (.pairDelete 5 3) (onKey (event 4 0)) (fun t => (t.m.ctx 5 3).isNone && t.m.rd O.pairDeleteVoid 5 == 1) = true ∧
      gives (.linkCreate 5 3) (bench .lit) (fun t => (t.m.ctx 5 3).isNone) = true ∧ gives (.pairNote 5 3) (bench .lit) (fun t => (t.m.ctx 5 3).isNone) = true ∧
      gives (.pairDelete 5 3) (bench .lit) (fun t => (t.m.ctx 5 3).isNone) = true := by decide

/-- A pool of ports 5 and 6 at endpoint 9, with its buffer. -/
def pooled (kind arg : Nat) (bits : Map Bool) : State :=
  on (context (event kind arg)) fun m =>
    { m.setEnt O.epTable 0 9 (setFld 64 (setFld 64 0 30 2 5) 32 2 6) with
      dp.ppool := [(9, { bits := bits, count := bits.length, cursor := 6, buf := some (14, 0) })] }

/-- MillWork: POOL-ALLOC from the cursor on, and with every port out; PORT-RELEASE of a port that is out and of one that is not. -/
theorem test_ports :
    (pooled 5 (9 * 2 ^ 40) []).m.entF O.epTable 0 9 30 2 = 5 ∧ ((pooled 5 (9 * 2 ^ 40) []).m.ppool 9).buf ≠ none ∧
      gives (.poolAlloc 5 3) (pooled 5 (9 * 2 ^ 40) [])
        (fun t => mget false (t.m.ppool 9).bits 6 && (t.m.ppool 9).count == 1 && (t.m.ppool 9).cursor == 5 && t.m.rd O.poolAllocs 5 == 1) = true ∧
      gives (.poolAlloc 5 3) (pooled 5 (9 * 2 ^ 40) [(5, true), (6, true)]) (fun t => t.m.rd O.poolExhaustedCnt 5 == 1) = true ∧
      fld 8 (pack [(3, 9), (2, 6), (3, 0)]) 0 3 = 9 ∧
      gives (.portRelease 5 3) (pooled 6 (pack [(3, 9), (2, 6), (3, 0)]) [(6, true)]) (fun t => (t.m.ppool 9).bits.isEmpty && (t.m.ctx 5 3).isNone) = true ∧
      gives (.portRelease 5 3) (pooled 6 (pack [(3, 9), (2, 6), (3, 0)]) []) (fun t => t.m.flt.queue.length == 1 && t.m.rd O.portFreeFault 5 == 1) = true := by decide

/-- MillWork: AGE without a record and on one that is not expired, EXPORT of a refusal, SWEEP and SPLIT at their ends, and the recount. -/
theorem test_mill :
    heads ((onKey (event 7 0)).m.turn 5 3 7) = true ∧
      gives (.age 5 3) (onKey (event 7 0)) (fun t => (t.m.ctx 5 3).isNone && t.m.rd O.ageVoid 5 == 1) = true ∧
      gives (.age 5 3) (cached (onKey (event 7 0) true)) (fun t => t.m.rd O.ageVoid 5 == 1 && (t.m.findRec 7).isSome) = true ∧
      (bench .lit).m.ent O.evtEpilogue 5 8 = 0xFF ∧
      gives (.exportEvent 5 3) (context (event 8 (pack [(1, 1), (1, 0x30), (6, 0)]))) (fun t => (t.m.ctx 5 3).isNone) = true ∧
      gives (.sweep 5 3) (context (event 9 0)) (fun t => (t.m.ctx 5 3).isNone && !(t.m.slu 5).sweepOut) = true ∧
      gives (.split 5 3) (on (context (event 10 0)) fun m => m.setSlu 5 { m.slu 5 with splitOut := true }) (fun t => (t.m.ctx 5 3).isNone && !(t.m.slu 5).splitOut) = true ∧
      gives .poolRecountDone (on (bench .lit) fun m => { m with dp.recounting := true }) (fun t => !t.m.dp.recounting) = true ∧
      (bench .lit).Admits 0 O.poolRecount 0 0 ∧
      gives (.poolRecount 0) (bench .lit) (fun t => decide (t.m.com.status = .functionRunning)) = true := by decide

/-! Lifecycle, keys and debug. -/

/-- A block in a lifecycle state with its claim slot loaded, session 0 enabled at P2 once owned, and session 63 at P3. -/
def aged (c : Mode) (l : Life) : State :=
  on (bench c) fun m => { (((m.wr O.sesEnable 0 1).wr O.sesPriv 0 2).wr O.sesEnable 63 1).wr O.sesPriv 63 3 with sec.life := l, sec.slots := [(64, { state := 1 }), (66, { state := 1 })] }

/-- LifecycleCommands: LC-SHIP of a device in TEST and of one with no claim key, in PILOT and not. -/
theorem test_ship :
    (aged .pilot .test).Powered ∧ (aged .pilot .test).Admits 63 O.lcShip 63 0 ∧ (aged .pilot .returned).Admits 63 O.lcShip 63 0 ∧
      ((aged .pilot .test).m.slot 64).state = 1 ∧
      gives (.lcShip 63) (aged .pilot .test) (fun t => decide (t.m.sec.life = .shipped) && t.m.rd O.sesPaths == 3 && decide (t.m.com.status = .ok)) = true ∧
      gives (.lcShip 63) (aged .pilot .returned) (fun t => decide (t.m.sec.life = .shipped)) = true ∧
      gives (.lcShip 63) (on (aged .pilot .test) fun m => m.setSlot 64 {}) (fun t => decide (t.m.com.status = .lifecycle ∧ t.m.sec.life = .test)) = true ∧
      gives (.lcShip 63) (aged .pilot .owned) (fun t => decide (t.m.com.status = .lifecycle)) = true ∧
      gives (.lcShip 63) (aged .probe .test) (fun t => decide (t.m.com.status = .mode)) = true := by decide

/-- LifecycleCommands: the owner's commands in a lifecycle state and a mode that refuse them, and a claim with no other way in. -/
theorem test_owner :
    (aged .pilot .shipped).Admits 0 O.ownerClaim 0 5 ∧ (aged .pilot .owned).Admits 0 O.ownerTransfer 0 5 ∧ (aged .pilot .owned).Admits 0 O.ownerReturn 0 5 ∧
      (aged .pilot .shipped).m.otherWayIn = false ∧
      (on (aged .pilot .shipped) fun m => { ((m.wr O.sesEnable 63 1).wr O.sesPriv 63 2).wr O.sesKeySlot 63 3 with sec.slots := [(3, { state := 1 })] }).m.otherWayIn = true ∧
      gives (.ownerClaim 0 5) (aged .lit .shipped) (fun t => decide (t.m.com.status = .mode)) = true ∧
      gives (.ownerClaim 0 5) (aged .pilot .owned) (fun t => decide (t.m.com.status = .lifecycle)) = true ∧
      gives (.ownerTransfer 0 5) (aged .pilot .shipped) (fun t => decide (t.m.com.status = .lifecycle)) = true ∧
      gives (.ownerReturn 0 5) (aged .pilot .shipped) (fun t => decide (t.m.com.status = .lifecycle)) = true ∧
      gives (.ownerReturn 0 5) (aged .lit .owned) (fun t => decide (t.m.com.status = .mode)) = true := by decide

/-- A block with slot 63 loaded. -/
def slotted : State := on (bench .pilot) fun m => m.setSlot 63 { state := 1 }

/-- KeysAndCipher: SLOT-ERASE of a loaded slot, of one that a session names and of the first that is not the owner's; the TRNG's failure and retest. -/
theorem test_keys :
    (bench .pilot).Powered ∧ slotted.Admits 0 O.slotErase 63 0 ∧ (bench .pilot).Admits 0 O.trngRetest 0 0 ∧
      gives (.slotErase 0 63) slotted (fun t => (t.m.slot 63).state == 0 && decide (t.m.com.status = .ok)) = true ∧
      gives (.slotErase 0 63) (on slotted fun m => (m.wr O.sesEnable 5 1).wr O.sesKeySlot 5 63) (fun t => decide (t.m.com.status = .busy)) = true ∧
      gives (.slotErase 0 64) slotted (fun t => decide (t.m.com.status = .range)) = true ∧
      gives .trngHealthFail (bench .lit) (fun t => t.m.rd O.trngState == 2 && t.m.rd O.trngFails == 1) = true ∧
      gives .trngHealthFail (on (bench .lit) fun m => m.wr O.trngState 0 2) (fun t => t.m.rd O.trngFails == 0) = true ∧
      gives (.trngRetest 0 true) (on (bench .lit) fun m => m.wr O.trngState 0 2) (fun t => t.m.rd O.trngState == 0 && t.m.sec.generates == 0) = true ∧
      gives (.trngRetest 0 false) (bench .lit) (fun t => t.m.rd O.trngState == 2) = true := by decide

/-- Session 0's entry 15 of the cipher service with a request on slot 3. -/
def sealing (l : Life) (op rsvd : Nat) : State :=
  on (aged .pilot l) fun m => m.setEnt O.cipherReq 0 15 (pack [(1, op), (1, 0), (1, 3), (1, rsvd), (2, 0), (2, 0), (4152, 0)])

/-- KeysAndCipher: a request of an owned device on a slot that serves nothing, one with a reserved octet and one of a device that no one owns. -/
theorem test_cipher :
    cipherRow 0 15 1 = some (.cipherSeal 0 15) ∧ cipherRow 0 15 2 = some (.cipherOpen 0 15) ∧ cipherRow 0 15 3 = some (.cipherMac 0 15) ∧
      cipherRow 0 15 4 = some (.cipherVerify 0 15) ∧ (sealing .owned 1 0).Powered ∧ (sealing .owned 1 0).m.sesOn 0 = true ∧
      areaOpen (sealing .owned 1 0).mc.mode 0xA0 0x400 true = true ∧ 2 ≤ (sealing .owned 1 0).m.sesP 0 ∧
      oct ((sealing .owned 1 0).m.cipherEnt 0 15) 0 1 = 1 ∧ cipherEntryOk ((sealing .owned 1 0).m.cipherEnt 0 15) = true ∧
      gives (.cipherSeal 0 15) (sealing .owned 1 0) (fun t => oct (t.m.cipherEnt 0 15) 1 1 == 3 && decide (t.m.com.status = .ok)) = true ∧
      gives (.cipherOpen 0 15) (sealing .owned 2 0) (fun t => oct (t.m.cipherEnt 0 15) 1 1 == 3) = true ∧
      gives (.cipherMac 0 15) (sealing .owned 3 1) (fun t => decide (t.m.com.status = .range)) = true ∧
      gives (.cipherVerify 0 15) (sealing .shipped 4 0) (fun t => decide (t.m.com.status = .lifecycle)) = true := by decide

/-- A block with debug of a level and a TAP instruction. -/
def probed (c : Mode) (level tap : Nat) : State := on (bench c) fun m => { m with dbg.level := level, dbg.tap := tap }

/-- DebugServed: instructions that a mode takes and refuses, and the first SCAN of a visit. -/
theorem test_tap :
    (bench .lit).Live ∧ tapKnown 0x33 = false ∧ (bench .lit).m.tapOk (bench .lit).mc 2 = true ∧ (bench .lit).m.tapOk (bench .lit).mc 3 = false ∧
      (probed .probe 4 1).m.tapOk (probed .probe 4 1).mc 0x20 = true ∧
      gives (.tapInstructionLoad 0x33 false) (bench .lit) (fun t => t.m.dbg.tap == 0xFF && t.m.rd O.dbgTapRefused == 0) = true ∧
      gives (.tapInstructionLoad 2 false) (bench .lit) (fun t => t.m.dbg.tap == 2) = true ∧
      gives (.tapInstructionLoad 3 false) (bench .lit) (fun t => t.m.dbg.tap == 0xFF && t.m.rd O.dbgTapRefused == 1) = true ∧
      gives (.tapInstructionLoad 0x20 false) (on (probed .probe 4 1) fun m => m.setSlot 65 { state := 1 }) (fun t => t.m.dbg.scanned && (t.m.slot 65).state == 0) = true := by
  decide

/-- DebugServed: instruments without power, and margins, memory tests and faults under IJTAG-RW only. -/
theorem test_ijtag :
    (probed .probe 2 0x11).Live ∧ (probed .probe 2 0x11).m.tapOk (probed .probe 2 0x11).mc 0x11 = true ∧ (probed .pilot 1 0x10).m.tapOk (probed .pilot 1 0x10).mc 0x10 = true ∧
      (probed .probe 2 0x11).m.tilePower (probed .probe 2 0x11).mc 435 = 1 ∧ (probed .pilot 1 0x10).m.tilePower (probed .pilot 1 0x10).mc 0 ≠ 1 ∧
      gives (.ijtagAccess (.read 0)) (probed .pilot 1 0x10) (fun t => t.m.com.value == 2 ^ 32) = true ∧
      gives (.ijtagAccess (.read 439)) (probed .probe 2 0x11) (fun t => t.m.com.value == 0) = true ∧
      gives (.ijtagAccess (.margin 441 63)) (probed .probe 2 0x11) (fun t => t.m.tileMargin 441 == 63) = true ∧
      gives (.ijtagAccess (.margin 441 63)) (probed .pilot 1 0x10) (fun t => t.m.pwr.override.isEmpty) = true ∧
      gives (.ijtagAccess (.bist 255)) (probed .probe 2 0x11) (fun t => t.m.rd O.iftRecount 15 == 1) = true ∧
      gives (.ijtagAccess (.inject ⟨441, 15, 7, 0, none⟩)) (probed .probe 2 0x11) (fun t => t.m.flt.queue.length == 1) = true := by decide

/-- A wick in force. -/
def wicked : State := on (probed .primed 2 1) fun m => { m.wr O.dbgExpiry 0 4000 with dbg.wick := some ⟨2, 0xFF, 9⟩ }

/-- DebugServed: a wick that fails its first check, one revoked and one that expires; TEST's own request; consent and observation. -/
theorem test_wick :
    (bench .lit).Admits 0 O.wickApply 0 0 ∧ wicked.Admits 0 O.wickRevoke 0 0 ∧ wicked.Live ∧ wicked.m.dbg.wick ≠ none ∧
      (bench .lit).m.wickStatus (bench .lit).mc (bench .lit).m.wickBuf true = .type ∧
      gives (.wickApply 0 true) (bench .lit) (fun t => decide (t.m.com.status = .type)) = true ∧
      gives (.wickRevoke 0) wicked (fun t => t.m.dbg.wick.isNone && t.m.rd O.dbgExpiry == 0 && t.m.dbg.level == 0) = true ∧
      gives .wickExpiry wicked (fun t => t.m.dbg.wick.isNone && decide (4000 ≤ t.m.ns)) = true ∧
      gives .wickExpiry (bench .lit) (fun t => t.m.ns == 0) = true ∧
      (aged .pilot .test).Admits 0 O.dbgLevelReq 0 1 ∧
      gives (.dbgLevelReq 0 1) (aged .pilot .test) (fun t => t.m.dbg.level == 1) = true ∧
      gives (.dbgLevelReq 0 5) (aged .pilot .test) (fun t => decide (t.m.com.status = .range)) = true ∧
      gives (.dbgLevelReq 0 4) (aged .pilot .test) (fun t => decide (t.m.com.status = .mode)) = true ∧
      gives (.dbgLevelReq 0 1) (bench .pilot) (fun t => decide (t.m.com.status = .lifecycle)) = true ∧
      (aged .lit .owned).Admits 0 O.dbgOwnerConsent 0 3 ∧ (aged .lit .owned).Admits 0 O.dbgObserveEn 0 1 ∧
      gives (.dbgOwnerConsentWrite 0 3) (aged .lit .owned) (fun t => t.m.rd O.dbgOwnerConsent == 3) = true ∧
      gives (.dbgObserveEnWrite 0 1) (aged .lit .owned) (fun t => t.m.rd O.dbgObserveEn == 1 && t.m.dbg.level == t.m.dbgGives) = true := by decide

/-! Faults and containment. -/

/-- A record in the snuffer's queue. -/
def record (tile init : Nat) : FltRec := ⟨1, 0, tile, 1, 0, 0, false, false, false, init⟩

/-- A block with records that wait. -/
def blamed (c : Mode) (l : List FltRec) : State := on (bench c) fun m => { m with flt.queue := l }

/-- FaultsDecided: a fault joins the queue, and the 256th overflows it; records that place a block at a level and that place none. -/
theorem test_snuffer :
    (bench .lit).Live ∧ (record 192 1).overflow = false ∧ (List.replicate 255 (record 192 1)).any (·.overflow) = false ∧
      gives (.faultDetect ⟨192, 2, 7, 0, none⟩) (bench .lit) (fun t => t.m.flt.queue.length == 1) = true ∧
      gives (.faultDetect ⟨192, 2, 7, 0, none⟩) (blamed .lit (List.replicate 255 (record 192 1))) (fun t => t.m.rd O.fltOverflowLatch == 1 && t.m.flt.queue.length == 256) = true ∧
      gives .snufferDecide (bench .lit) (fun t => t.m.flt.queue.isEmpty && t.m.com.out.isEmpty) = true ∧
      gives .snufferDecide (blamed .lit [record 192 0]) (fun t => t.m.flt.queue.isEmpty && t.m.flt.blk.isEmpty) = true ∧
      topLevel 441 = 0 ∧ gives .snufferDecide (blamed .lit [record 441 1]) (fun t => t.m.flt.blk.isEmpty) = true ∧
      gives .snufferDecide (put (blamed .lit [record 255 1]) .basin 15 .running) (fun t => (t.m.cont 255).level == 1 && decide (t.m.fst (fnNum .basin 15) = .faulted)) = true ∧
      gives .snufferDecide (blamed .lit [record 287 2]) (fun t => (t.m.cont 287).level == 2 && (t.m.cont 252).level == 2) = true ∧
      gives .snufferDecide (on (blamed .lit [record 415 1]) fun m => { m with flt.blk := [(415, { level := 1 })] }) (fun t => (t.m.cont 415).level == 2) = true := by
  decide

/-- A block of one tile contained at a level. -/
def contained (tile : Nat) (b : Contain) : State := on (bench .lit) fun m => { m with flt.blk := [(blkOf tile, b)] }

/-- ContainmentEnds: a restart's end, the end of the stable period 100 ms later, and a restore. -/
theorem test_containment :
    (bench .lit).m.restartOn (bench .lit).mc 415 = true ∧ ((contained 415 { level := 1, resetting := true }).m.cont 415).level = 1 ∧
      gives (.blockRestartComplete 415) (contained 415 { level := 1, resetting := true }) (fun t => (t.m.cont 415).level == 1 && !(t.m.cont 415).resetting && (t.m.cont 415).stableAt == some 0) = true ∧
      gives (.blockRestartComplete 415) (bench .lit) (fun t => t.m.flt.blk.isEmpty) = true ∧
      gives (.containmentEnd 415) (contained 415 { level := 1, stableAt := some 5 }) (fun t => (t.m.cont 415).level == 0 && t.m.ns == 5 + 1000 * t.m.rd O.fltStable) = true ∧
      gives (.containmentEnd 415) (contained 415 { level := 1, resetting := true, stableAt := some 5 }) (fun t => (t.m.cont 415).level == 1) = true ∧
      (bench .lit).Admits 0 O.fltRestore 0 415 ∧
      gives (.fltRestore 0 415) (bench .lit) (fun t => decide (t.m.com.status = .range)) = true ∧
      gives (.fltRestore 0 415) (contained 415 { level := 2 }) (fun t => (t.m.cont 415).level == 1 && (t.m.cont 415).restore && decide (t.m.com.status = .deferred)) = true ∧
      gives (.fltRestore 0 423) (on (contained 423 { level := 2 }) fun m => { m with flt.rebuild := [(7, true)] }) (fun t => decide (t.m.com.status = .busy)) = true := by decide

/-- ContainmentEnds: a share handed back, a stack rebuilt, the latches acknowledged, and the snuffer's end. -/
theorem test_recovery :
    (on (bench .lit) fun m => { m.wr O.fltBasinServer 15 7 with flt.handback := [(15, 8)] }).m.server 15 = 7 ∧
      gives (.handbackComplete 15) (on (bench .lit) fun m => { m.wr O.fltBasinServer 15 7 with flt.handback := [(15, 8)] })
        (fun t => t.m.server 15 == 15 && t.m.flt.handback.isEmpty) = true ∧
      gives (.handbackComplete 15) (bench .lit) (fun t => t.m.server 15 == 15) = true ∧
      gives (.stackRebuildComplete 7) (on (bench .lit) fun m => { m with flt.rebuild := [(7, true)] }) (fun t => !t.m.stackStale 7 && t.m.rd O.fltRebuildDone 7 == 0x210000000) = true ∧
      gives (.stackRebuildComplete 7) (bench .lit) (fun t => t.m.rd O.fltRebuildDone 7 == 0) = true ∧
      (bench .lit).Admits 0 O.fltAck 0 0 ∧ (bench .lit).Admits 0 O.fltAck 0 1 ∧
      gives (.fltAckOverflow 0) (on (bench .lit) fun m => m.wr O.fltOverflowLatch 0 1) (fun t => t.m.rd O.fltOverflowLatch == 0) = true ∧
      gives (.fltAckOverflow 0) (blamed .lit [{ record 0xFFFF 0 with overflow := true }]) (fun t => decide (t.m.com.status = .busy)) = true ∧
      gives (.fltAckPin 0) (on (bench .lit) fun m => { m with flt.pinLatch := true }) (fun t => !t.m.flt.pinLatch && t.m.faultN t.mc) = true ∧
      gives .snufferHeartbeatLoss (bench .lit) (fun t => t.m.flt.dead && !t.m.faultN t.mc) = true ∧
      lanternRow (.eventPost 5) = false ∧ (match exec (.eventPost 5) (on (bench .lit) fun m => { m with flt.dead := true }) with | .fault .snufferDead => true | _ => false) = true := by decide

/-! Trim and the Adtieb record. -/

/-- TRIM with a working image that began as the safe one. -/
def trimming : State := on (bench .trim) fun m => { m with trm.work := some { safe := true } }

/-- TrimAndAdtieb: a die record that may stand in the working image, one above VCORE-MAX, and one while a commit runs; a record outside TRIM. -/
theorem test_trim_write :
    trimming.Live ∧ trimming.m.sesOn 0 = true ∧ areaOpen trimming.mc.mode 0xB8 0x11 true = true ∧ 2 ≤ trimming.m.sesP 0 ∧ dieRecOk 11 (pack [(2, 800), (6, 0)]) = true ∧
      gives (.trimWorkWrite 0 2 11 (octets 2 800 ++ octets 6 0)) trimming
        (fun t => match t.m.trm.work with | some g => g.die 11 == pack [(2, 800), (6, 0)] | none => false) = true ∧
      gives (.trimWorkWrite 0 2 11 (octets 2 801 ++ octets 6 0)) trimming (fun t => decide (t.m.com.status = .range)) = true ∧
      gives (.trimWorkWrite 0 2 12 (octets 8 0)) (on trimming fun m => { m with trm.measuring := some 0 }) (fun t => decide (t.m.com.status = .busy)) = true ∧
      gives (.trimWorkWrite 0 1 441 (octets 16 0)) (bench .lit) (fun t => decide (t.m.com.status = .mode)) = true := by decide

/-- TrimAndAdtieb: a measurement begun, refused while one runs, and ended where none runs; a commit refused and one that ends. -/
theorem test_trim_commands :
    trimming.Admits 0 O.trimMeasure 0 441 ∧ trimming.Admits 0 O.trimCommit 0 0 ∧ trimming.m.trimBusy = false ∧
      gives (.trimMeasure 0 441) trimming (fun t => t.m.trm.measuring == some 441 && decide (t.m.com.status = .deferred)) = true ∧
      gives (.trimMeasure 0 441) (on trimming fun m => { m with trm.measuring := some 0 }) (fun t => decide (t.m.com.status = .busy)) = true ∧
      gives .trimMeasureDone trimming (fun t => t.m.trm.measures == 0) = true ∧
      gives (.trimCommit 0) (on trimming fun m => { m with trm.measuring := some 0 }) (fun t => decide (t.m.com.status = .busy)) = true ∧
      gives (.trimCommit 0) (bench .trim) (fun t => decide (t.m.com.status = .mode)) = true ∧
      gives .trimCommitDone (on trimming fun m => { m with trm.committing := some { generation := 2, origin := 1 } })
        (fun t => t.m.trm.committing.isNone && t.m.trimState == 1 && t.m.trimValid.isSome) = true ∧
      gives .trimCommitDone trimming (fun t => t.m.trm.committing.isNone) = true := by decide

/-- The block in PILOT with safe margins and its loops idle. -/
def resting : State := on (bench .pilot) fun m => m.wr O.marginSource 0 1

/-- TrimAndAdtieb: a commit at 600 s and one held back for a second; a second at 25 °C counted against PILOT. -/
theorem test_adtieb :
    (bench .lit).Powered ∧
      gives .adtiebCommit (bench .lit) (fun t => t.m.rd O.adtCommits == 1 && t.m.ns == 600000000000 && t.m.trm.images.length == 1) = true ∧
      gives .adtiebCommit (on (bench .lit) fun m => { m with trm.commitDue := true, trm.lastCommit := some 7 }) (fun t => t.m.ns == 1000000007 && t.m.rd O.adtCommits == 1) = true ∧
      (bench .pilot).m.dbg.level = 0 ∧ (bench .pilot).m.rd O.marginSource ≠ 1 ∧ ((List.range 4).all fun d => decide ((bench .pilot).m.avsState (bench .pilot).mc d ≠ 3) && !(bench .pilot).m.diePowered (bench .pilot).mc d) = true ∧
      gives (.adtiebSecond [some 400]) (bench .pilot) (fun t => mget 0 t.m.trm.counters (12 + t.mc.mode.code) == 1 && mget 0 t.m.trm.hists 6 == 1) = true := by decide

/-! The block as a whole. -/

/-- StepRunsFront, QueueInOrder: the front of the queue is taken; an idle tick of 1 ns, and none in DARK. -/
theorem test_step :
    (match step { bench .lit with pending := [.snufferHeartbeatLoss, .ebbDrained] } with
      | .next t => decide (t.pending = [.ebbDrained]) && t.m.flt.dead
      | _ => false) = true ∧
      (match step (bench .lit) with | .next t => t.m.com.frc == 65536 | _ => false) = true ∧
      (match step (bench .dark) with | .next t => t.m.com.frc == 0 | _ => false) = true := by decide

/-- DarkOnlyByRail: the rail's loss. -/
theorem test_rail_loss : (match step { bench .lit with pending := [.lanternRailLoss] } with | .next t => decide (t.mc.mode = .dark) | _ => false) = true := by decide

/-- DarkOnlyByRail: the rail's return leads to PILOT. -/
theorem test_rail_back :
    (match step { on State.reset fun m => { m with trm.stored := none } with pending := [.lanternRailValid 0 true true true []] } with | .next t => decide (t.mc.mode = .pilot) | _ => false) = true := by
  decide

/-- ModeStaysSound: the mode of a block in LIT and of the block after reset. -/
theorem test_mode_sound : (bench .lit).mc.Sound ∧ State.reset.mc.Sound :=
  ⟨⟨Or.inl rfl, rfl, by decide, by decide⟩, ⟨Or.inl rfl, rfl, by decide, by decide⟩⟩

/-! Well-formedness: one ill-formed command for each check, and the largest operands that pass. -/

/-- A frame whose fields all fit. -/
def fit : ClFrame := asked 1 []

/-- Every field of a Clelek frame is checked. -/
theorem test_wf_frame :
    fit.wf = true ∧ { fit with path := 3 }.wf = false ∧ { fit with src := 2 ^ 128 }.wf = false ∧ { fit with sport := 65536 }.wf = false ∧
      { fit with len := 65536 }.wf = false ∧ { fit with version := 256 }.wf = false ∧ { fit with op := 256 }.wf = false ∧ { fit with session := 256 }.wf = false ∧
      { fit with flags := 256 }.wf = false ∧ { fit with seq := 2 ^ 64 }.wf = false ∧ { fit with recCount := 65536 }.wf = false ∧
      { fit with status := 256 }.wf = false ∧ { fit with bodyLen := 65536 }.wf = false ∧ { fit with rsvd := 2 ^ 24 }.wf = false ∧
      { fit with nonce := 2 ^ 96 }.wf = false ∧ (Instr.inbandClelekRx 0 { fit with path := 3 }).wf = false ∧ (Instr.inbandClelekRx 0 fit).wf = true := by decide

/-- Every field of a management-port frame is checked. -/
theorem test_wf_mgt :
    (Instr.mgtFrameRx 1 ⟨2 ^ 48 - 1, 2 ^ 48 - 1, true, true, .other⟩).wf = true ∧ (Instr.mgtFrameRx 0 ⟨2 ^ 48, 0, false, false, .other⟩).wf = false ∧
      (Instr.mgtFrameRx 0 ⟨0, 2 ^ 48, false, false, .other⟩).wf = false ∧ (Instr.mgtFrameRx 0 ⟨0, 0, false, false, .arp (2 ^ 32)⟩).wf = false ∧
      (Instr.mgtFrameRx 0 ⟨0, 0, false, false, .neighbour (2 ^ 128)⟩).wf = false ∧ (Instr.mgtFrameRx 0 ⟨0, 0, false, false, .echo4 (2 ^ 32) []⟩).wf = false ∧
      (Instr.mgtFrameRx 0 ⟨0, 0, false, false, .echo6 (2 ^ 128) []⟩).wf = false ∧ (Instr.mgtFrameRx 0 ⟨0, 0, false, false, .clelek ⟨false, 0, 65536⟩ fit⟩).wf = false ∧
      (Instr.mgtFrameRx 0 ⟨0, 0, false, false, .clelek ⟨false, 2 ^ 32, 0⟩ fit⟩).wf = false ∧ (Instr.mgtFrameRx 0 ⟨0, 0, false, false, .clelek ⟨true, 2 ^ 32, 0⟩ fit⟩).wf = true ∧
      (Instr.mgtFrameRx 0 ⟨0, 0, false, false, .clelek ⟨true, 2 ^ 128, 0⟩ fit⟩).wf = false ∧
      (Instr.mgtFrameRx 0 ⟨0, 0, false, false, .clelek ⟨false, 0, 0⟩ { fit with op := 256 }⟩).wf = false := by decide

/-- Every field of a host-path frame is checked. -/
theorem test_wf_inject :
    (Instr.injectPort (inj 1)).wf = true ∧ (Instr.injectPort { inj 1 with path := 2 }).wf = false ∧ (Instr.injectPort { inj 1 with src := 2 ^ 128 }).wf = false ∧
      (Instr.injectPort { inj 1 with version := 256 }).wf = false ∧ (Instr.injectPort { inj 1 with kind := 256 }).wf = false ∧
      (Instr.injectPipeline { inj 2 with lif := 65536 }).wf = false ∧ (Instr.injectPipeline { inj 2 with tc := 256 }).wf = false ∧
      (Instr.injectPipeline { inj 2 with seq := 2 ^ 64 }).wf = false ∧ (Instr.injectPort { inj 1 with dmac := 2 ^ 48 }).wf = false ∧
      (Instr.injectPort { inj 1 with addr := ⟨false, 2 ^ 32, 0⟩ }).wf = false ∧ (Instr.injectPort { inj 1 with reason := 256 }).wf = false ∧
      (Instr.injectPort { inj 1 with tenant := 65536 }).wf = false ∧ (Instr.injectPort { inj 1 with ruleRef := 2 ^ 32 }).wf = false ∧
      (Instr.injectPort { inj 1 with ts := 2 ^ 96 }).wf = false := by decide

/-- Every field of a fault, of an IEEE 1687 access and of an HBM request is checked. -/
theorem test_wf_fault :
    (Instr.faultDetect ⟨441, 15, 65535, 2 ^ 64 - 1, some 441⟩).wf = true ∧ (Instr.faultDetect ⟨0xFFFF, 0, 0, 0, none⟩).wf = true ∧
      (Instr.faultDetect ⟨442, 0, 0, 0, none⟩).wf = false ∧ (Instr.faultDetect ⟨0, 16, 0, 0, none⟩).wf = false ∧ (Instr.faultDetect ⟨0, 0, 65536, 0, none⟩).wf = false ∧
      (Instr.faultDetect ⟨0, 0, 0, 2 ^ 64, none⟩).wf = false ∧ (Instr.faultDetect ⟨0, 0, 0, 0, some 442⟩).wf = false ∧
      (Instr.ijtagAccess (.read 442)).wf = false ∧ (Instr.ijtagAccess (.margin 442 0)).wf = false ∧ (Instr.ijtagAccess (.margin 0 64)).wf = false ∧
      (Instr.ijtagAccess (.bist 442)).wf = false ∧ (Instr.ijtagAccess (.inject ⟨442, 0, 0, 0, none⟩)).wf = false ∧
      (Instr.hbmRequest ⟨7, 2 ^ 28 - 8, 8, true, .bulk, 5⟩).wf = true ∧ (Instr.hbmRequest ⟨8, 0, 1, true, .bulk, 5⟩).wf = false ∧
      (Instr.hbmRequest ⟨7, 0, 1, true, .bulk, 6⟩).wf = false ∧ (Instr.hbmRequest ⟨7, 2 ^ 28, 1, true, .bulk, 5⟩).wf = false ∧
      (Instr.hbmRequest ⟨7, 1, 8, true, .bulk, 5⟩).wf = false ∧ (Instr.hbmRequest ⟨7, 1, 0, true, .bulk, 5⟩).wf = false := by decide

/-- Readings and the control values of power, ports and memory are checked. -/
theorem test_wf_values :
    (Instr.coreUndervolt 0 65536).wf = false ∧ (Instr.railOutOfRange 0 65536).wf = false ∧ (Instr.thermalTrip 0 32768).wf = false ∧
      (Instr.thermalTrip 0 (-32768)).wf = true ∧ (Instr.dieTempLimit 0 (-32769)).wf = false ∧ (Instr.paceWindow 0 65536).wf = false ∧
      (Instr.avsInterval 0 65536 0).wf = false ∧ (Instr.avsInterval 0 0 (2 ^ 32)).wf = false ∧ (Instr.avsLoopEnWrite 0 256).wf = false ∧
      (Instr.coreVcoreSetWrite 0 0 65536).wf = false ∧ (Instr.resetBlock 0 65536).wf = false ∧ (Instr.resetDie 0 256).wf = false ∧
      (Instr.rlLanding 0 (2 ^ 32)).wf = false ∧ (Instr.mgtSpeedWrite 0 0 256).wf = false ∧ (Instr.sesConfigWrite 0 0 256 0).wf = false ∧
      (Instr.sesConfigWrite 0 0 0 (2 ^ 128)).wf = false ∧ (Instr.bpEnableWrite 0 0 256).wf = false ∧ (Instr.bpHoldWrite 0 0 true (2 ^ 32)).wf = false ∧
      (Instr.pauseRx 0 65536 0 (List.replicate 8 0)).wf = false ∧ (Instr.pauseRx 0 0 65536 (List.replicate 8 0)).wf = false ∧
      (Instr.pauseRx 0 0 0 (List.replicate 7 0)).wf = false ∧ (Instr.pauseRx 0 0 0 (List.replicate 8 65536)).wf = false ∧
      (Instr.pmSecond 0 ⟨2 ^ 64, 0, 0, 0⟩).wf = false ∧ (Instr.pmSecond 0 ⟨0, 2 ^ 64, 0, 0⟩).wf = false ∧ (Instr.pmSecond 0 ⟨0, 0, 2 ^ 64, 0⟩).wf = false ∧
      (Instr.pmSecond 0 ⟨0, 0, 0, 2 ^ 64⟩).wf = false ∧ (Instr.flxCalUseWrite 0 0 256).wf = false ∧ (Instr.frameRx 0 80 true false []).wf = false ∧
      (Instr.queryReceipt 0 8).wf = false ∧ (Instr.flwSizeWrite 0 256).wf = false ∧ (Instr.hbmRefresh 0 16).wf = false ∧ (Instr.hbmRetrain 0 0 true 32768).wf = false ∧
      (Instr.hbmScrub 0 (2 ^ 29) .clean).wf = false ∧ (Instr.hbmMapOrderWrite 0 256).wf = false ∧ (Instr.cellFree 0 0 0 64).wf = false ∧
      (Instr.hbmPoolAlloc 0 0).wf = false ∧ (Instr.hbmPoolAlloc 0 8193).wf = false ∧ (Instr.hplRebuild 0 256).wf = false := by decide

/-- The control values of time, telemetry, keys, debug, faults and trim are checked. -/
theorem test_wf_controls :
    (Instr.gateUseWrite 0 0 256).wf = false ∧ (Instr.tbRateWrite 0 (2 ^ 64)).wf = false ∧ (Instr.tbAdjust 0 (2 ^ 64)).wf = false ∧ (Instr.tbSet 0 (2 ^ 96)).wf = false ∧
      (Instr.tbSetAtPps 0 (2 ^ 96)).wf = false ∧ (Instr.cntStickyClear 0 256).wf = false ∧ (Instr.gecSelectWrite 0 0 (2 ^ 64)).wf = false ∧
      (Instr.flColEnWrite 0 0 256).wf = false ∧ (Instr.flTemplateWrite 0 0 (2 ^ 32)).wf = false ∧ (Instr.ownerClaim 0 (2 ^ 64)).wf = false ∧
      (Instr.ownerTransfer 0 (2 ^ 64)).wf = false ∧ (Instr.ownerReturn 0 (2 ^ 64)).wf = false ∧ (Instr.dbgLevelReq 0 65536).wf = false ∧
      (Instr.dbgOwnerConsentWrite 0 256).wf = false ∧ (Instr.dbgObserveEnWrite 0 256).wf = false ∧ (Instr.fltRestore 0 65536).wf = false ∧
      (Instr.trimMeasure 0 65536).wf = false ∧ (Instr.adtiebSecond [none, some 32768]).wf = false ∧ (Instr.adtiebSecond [none, some 32767]).wf = true := by decide

/-! Clauses that the theorems above do not meet. -/

/-- ModeRequestAnswered, EbbAndBanked: containment that stands at a request for LIT in EBB is remembered, and the return then ends in GUARD; a batch that
is to start a binding keeps EBB waiting. -/
theorem test_guard_at_request :
    (owned .ebb).AsksMode 0 .lit ∧
      gives (.modeReqLit 0) (on (owned .ebb) fun m => { m with flt.blk := [(415, { level := 2 })] }) (fun t => t.m.trn.guardAsk && t.mc.target == .lit) = true ∧
      gives .ebbReturn { on (bench .ebb) (fun m => { m with trn.guardAsk := true, flt.blk := [(415, { level := 2 })] }) with mc := { mode := .ebb, target := .lit, trans := some (.ebbReturn .lit) } }
        (fun t => t.mc.mode == .guard && t.mc.ret == .lit) = true ∧
      ((on (owned .lit) fun m => m.setFn (fnNum .binding 3) { state := .stopping, holder := 5 }).m.asked .ebb).mustWait (owned .lit).mc .ebb = true := by decide

/-- TransitionsEnd: a tile that fails its self-test in KINDLE belongs to a block that can be contained. -/
theorem test_kindle_failed : (kindling .primed).m.flt.queue.length + [(0 : Nat)].length ≤ 255 ∧ topLevel 0 ≠ 0 := by decide

/-- ManagementPorts: Clelek for another address, for another port, and to a port behind a high symbol error rate. -/
theorem test_management_discards :
    addressed.m.udpMine 1 ⟨false, 8, 0⟩ = false ∧
      gives (.mgtFrameRx 1 (toPort false false (.clelek ⟨false, 8, addressed.m.rd O.clkUdpPort⟩ (asked 1 [])))) addressed (fun t => t.m.rd O.mgtDiscard 1 == 1) = true ∧
      gives (.mgtFrameRx 1 (toPort false false (.clelek ⟨false, 9, 1⟩ (asked 1 [])))) addressed (fun t => t.m.rd O.mgtDiscard 1 == 1 && t.m.clk.engineQ.isEmpty) = true ∧
      (on inband fun m => m.setPort 9 { m.port 9 with defects := 64 }).m.corrupts 9 = true ∧
      gives (.inbandClelekRx 9 (asked 1 [])) (on inband fun m => m.setPort 9 { m.port 9 with defects := 64 }) (fun t => t.m.clk.engineQ.isEmpty) = true := by decide

/-- HostPackets: the last punt of an epoch, and packets that leave a queue whose mode forwards nothing. -/
theorem test_punt_wraps :
    gives .puntSend (on punting fun m => { m with clk.puntCount := 2 ^ 32 - 1 }) (fun t => t.m.clk.puntCount == 0 && t.m.rd O.bootEpoch == punting.m.rd O.bootEpoch + 1) = true ∧
      gives .injectDrain (on (host .primed) fun m => { m with clk.injQ := [punt] }) (fun t => t.m.clk.injQ.isEmpty && t.m.dp.pktNext == 0) = true := by decide

/-- Group 1 in FlexE with port 8 its one member, running in 200GBASE, its calendar's client 5 announced as another. -/
def flexed : State :=
  on (put (bench .lit) .pgroup 1 .running) fun m =>
    { ((m.wr O.pgFlexe 1 1).wr O.flxMembers 1 1).setEnt O.flxCalA 1 3 5 with dp.flexIds := [(323, 77)] }

/-- PortDefectsAct, PauseAndSeconds, FrameReceived: announced identifiers, a pause frame at a FlexE member and a frame of a mismatched client. -/
theorem test_flexe :
    flexed.Live ∧ flexed.m.flexMember 8 = true ∧ flexed.m.flexMember 9 = false ∧ flexed.m.pcsDelivers 8 = true ∧ flexed.m.clientWrong 1 5 = true ∧
      flexed.m.clientWrong 1 6 = false ∧ flexed.m.monitored 8 20 = true ∧ flexed.m.defectIs 8 true { bit := 20, ids := [(3, 1)] } = true ∧
      gives (.defectRaise 8 { bit := 20, ids := [(3, 9)] }) flexed (fun t => bit (t.m.port 8).defects 20 && mget 0 t.m.dp.flexIds 323 == 10) = true ∧
      gives (.pauseRx 8 1 0 [65535]) (on flexed fun m => m.wr O.bpFcMode 8 1) (fun t => (t.m.port 8).paused.isEmpty) = true ∧
      gives (.frameRx 8 5 true false data60) flexed (fun t => t.m.dp.pktNext == 0 && t.m.ns == 0) = true := by decide

/-- VerdictsAndLanes: a backend chosen by the verdict, one that the verdict leaves open, and the host while punting is off. -/
theorem test_verdict_clauses :
    (laned (some 0) 0x50000001).m.puntOn = false ∧
      gives (.verdictArrival 0 0) (on (laned (some 0) 0x50000001) fun m => { m with dp.chans := [(0, { msgs := [.verdict 0 0] })] })
        (fun t => (t.m.pkt 0).isNone && t.m.dp.lanes.isEmpty) = true ∧
      gives (.verdictArrival 0 0) (on (laned (some 0) 0x50000001) fun m => { m with dp.chans := [(0, { msgs := [.verdict 0 (setFld 16 (setFld 16 0 4 1 0x10) 8 4 0x10000005)] })] })
        (fun t => match t.m.pkt 0 with | some x => x.verdict.isSome && x.w.dest == 0x10000005 | none => (t.m.pkt 0).isNone) = true ∧
      gives (.verdictArrival 0 0) (on (laned (some 0) 0x30000000) fun m => { m with dp.chans := [(0, { msgs := [.verdict 0 0] })] })
        (fun t => (t.m.pkt 0).isNone) = true := by decide

/-- EgressServes: a crossing FIFO without room, queues without a frame, and a frame that its gate does not fit. -/
theorem test_serve_clauses :
    24576 < (on (sending false) fun m => m.setPort 0 { m.port 0 with txf := [{ copy0 with data := List.replicate 24600 0 }] }).m.txOcc 0 ∧
      gives (.schedDecision 0) (on (sending false) fun m => m.setPort 0 { m.port 0 with txf := [{ copy0 with data := List.replicate 24600 0 }] })
        (fun t => (t.m.eq 7).length == 1) = true ∧
      (sending true).m.eligible 0 = [] ∧ gives (.schedDecision 0) (sending true) (fun t => (t.m.port 0).txf.length == 1) = true := by decide

/-- The egress of port 1023 sending, its gates in force and closed. -/
def shut : State :=
  on (put gated .pgroup 127 .running) fun m =>
    let m := (m.wr O.bpLinkState 1023 3).setEnt O.gclEntries 2046 0 (pack [(1, 0), (3, 0), (4, 1000000)])
    (m.wr O.gclCount 2046 1).wr O.gclCycle 2046 1000000 |>.setPort 1023 { m.port 1023 with txf := [{ copy0 with tc := 7 }] }

/-- EgressServes, ShapersAndGates: a frame whose gate is closed is late, once; a list written while its egress list starts waits. -/
theorem test_gate_clauses :
    shut.m.linkSends 1023 = true ∧ shut.m.gateOn 1023 = true ∧ shut.m.gateFits 1023 7 64 = false ∧
      gives (.pcsFrameStart 1023) shut (fun t => t.m.rd O.esGateLate 1023 == 1 && t.m.com.out.isEmpty) = true ∧
      gives (.gateUseWrite 0 1023 1) (put gated .egress 1023 .starting)
        (fun t => decide (t.m.com.status = .deferred) && t.m.pendOf O.esGateUse 1023 == some 1 && t.m.rd O.esGateActive 1023 == 0) = true := by decide +kernel

/-- PassesAndBackwater: a Pdelay frame goes to the host, and a packet behind the head of the backwater stays. -/
theorem test_pass_clauses :
    gives (.backwaterReentry 0 0) (on (ruled .water {}) fun m => m.setRch 0 { m.rch 0 with water := [1, 0] })
        (fun t => (t.m.rch 0).water == [1, 0] && t.m.rd O.genRestart 0 == 0) = true ∧
      ((withPkt (bench .lit) { pkt0 with stage := .pass, pdelay := true }).m.passRun { pkt0 with stage := .pass, pdelay := true }).1.next = none ∧
      gives (.passEnd 0 0) (withPkt (bench .lit) { pkt0 with stage := .pass, pdelay := true }) (fun t => (t.m.pkt 0).isNone) = true := by decide

/-- DebugServed: boundary cells loaded, the balls under EXTEST, HIGHZ and a functional instruction. -/
theorem test_balls :
    (probed .probe 4 1).m.tapOk (probed .probe 4 1).mc 3 = true ∧ (probed .probe 4 1).m.tapOk (probed .probe 4 1).mc 5 = true ∧
      gives (.tapInstructionLoad 3 false) (probed .probe 4 1) (fun t => t.m.dbg.tap == 3) = true ∧
      gives (.tapInstructionLoad 5 false) (probed .probe 4 1) (fun t => t.m.balls t.mc == [none, none, none]) = true ∧
      gives (.tapInstructionLoad 1 false) (probed .probe 4 1) (fun t => (t.m.balls t.mc).length == 3) = true := by decide

/-- TrimAndAdtieb: a second in LIT with debug open and safe margins, its temperatures and voltages binned. -/
theorem test_adtieb_lit :
    (on (bench .lit) fun m => m.wr O.coreVcoreRead 0 720).m.diePowered (bench .lit).mc 0 = true ∧
      gives (.adtiebSecond [none, some 400]) (on (bench .lit) fun m => { (m.wr O.marginSource 0 1).wr O.coreVcoreRead 0 720 with dbg.level := 1 })
        (fun t => mget 0 t.m.trm.counters 9 == 1 && mget 0 t.m.trm.counters 12 == 1 && mget 0 t.m.trm.counters (12 + t.mc.mode.code) == 1 && t.m.trm.secDone == 1 &&
          mget 0 t.m.trm.hists (25 + tempBin 400) == 1 && mget 0 t.m.trm.hists (1000 + vcoreBin 720) == 1 && t.m.ns == 1000000000) = true := by decide

/-- Sluice 5 with a full set of contexts, those of the remainder with EXPORT, and a FLOW event that waits. -/
def crowded : State :=
  on (arriving []) fun m => m.setSlu 5 { m.slu 5 with
    flow := [event 1 0]
    ctxs := (List.range 256).map fun k => (k, some { ev := event 8 0, cls := if k < 32 then 0 else 2, shared := decide (60 ≤ k), ord := k, asked := false, reply := none }) }

/-- EventsDispatched: the youngest context of the remainder is freed for the event that the pointer finds. -/
theorem test_preempt :
    crowded.m.ctxFree crowded.mc 5 0 = none ∧ (crowded.m.victim crowded.mc 5).any (fun p => decide (p.1 = 255)) = true ∧
      crowded.m.running .sluice 5 = true ∧ (crowded.m.slu 5).oldest (crowded.m.millServes 5) 0 = some 0 ∧
      gives (.eventDispatch 5) crowded
        (fun t => (t.m.slu 5).flow.isEmpty && (t.m.slu 5).exp.length == 1 && (t.m.ctx 5 255).any (fun x => decide (x.cls = 0)) && t.m.rd O.sluPreempted 5 == 1) = true := by
  decide +kernel

/-- RecordsCreated: a CREATE of an entry with another operation, and a LINK-CREATE whose entry is lost, end with nothing made. -/
theorem test_turns :
    (context (event 1 0)).m.turn 5 3 1 = .gone ∧ (context (event 2 0)).m.turn 5 3 2 = .gone ∧ (bench .lit).m.turn 5 3 1 = .wait ∧
      gives (.create 5 3) (context (event 1 0)) (fun t => (t.m.ctx 5 3).isNone && t.m.rd O.bsnCreated 5 == 0) = true ∧
      gives (.age 5 3) (context (event 7 0)) (fun t => (t.m.ctx 5 3).isNone && t.m.rd O.ageVoid 5 == 0) = true := by decide

/-- A CREATE whose class takes its ports from pool 9, before it has asked for one, while it waits and with an answer. -/
def natted (asked : Bool) (reply : Option (Nat ⊕ Nat)) : State :=
  on (creating 0x10000000) fun m =>
    let m := m.setEnt O.epTable 0 9 (setFld 64 (setFld 64 0 0 1 3) 4 16 (0xFFFF * 2 ^ 32 + 1))
    let m := m.setIft 5 0 (some { entry0 with
      key := pack [(3, 0), (1, 6), (16, 0xFFFF * 2 ^ 32 + 2), (16, 0xFFFF * 2 ^ 32 + 3), (2, 80), (2, 81), (8, 0)]
      look := .absent, creating := true, result := some (setFld 16 0 4 4 0x10000000), cls := setFld 32 0 4 3 9 })
    m.setCtx 5 3 (some { ev := { event 1 0 with sender := entry0.seq }, cls := 0, shared := false, ord := 0, asked := asked, reply := reply })

/-- RecordsCreated: CREATE asks for its port once, waits for the answer, and fails where the pool has none. -/
theorem test_create_port :
    (natted false none).m.poolOf (setFld 32 0 4 3 9) = .got 9 ∧ heads ((natted false none).m.turn 5 3 1) = true ∧
      ((natted false none).m.ift 5 0).any (fun x => (natted false none).m.canXlate x.key ((natted false none).m.entF O.epTable 0 9 4 16)) = true ∧
      gives (.create 5 3) (natted false none) (fun t => (t.m.ctx 5 3).any (·.asked)) = true ∧
      gives (.create 5 3) (natted true none) (fun t => (t.m.ctx 5 3).isSome && t.m.rd O.bsnCreated 5 == 0) = true ∧
      gives (.create 5 3) (natted true (some (.inr 0x41))) (fun t => (t.m.ctx 5 3).isNone && t.m.rd O.bsnCreated 5 == 0) = true := by decide

/-- MillWork: a recount of stopped basins whose sluices all run, a share grown while its basin is stopped, and one whose growth is over. -/
theorem test_mill_clauses :
    gives (.split 5 3) (on (context (event 10 0)) fun m => { (m.setFn (fnNum .basin 5) {}).setSlu 5 { m.slu 5 with splitOut := true } with dp.growing := true })
        (fun t => (t.m.ctx 5 3).isSome) = true ∧
      gives (.split 5 3) (on (context { event 10 0 with sender := 16 }) fun m => { m.setSlu 5 { m.slu 5 with splitOut := true } with dp.growing := true })
        (fun t => (t.m.ctx 5 3).isNone && !(t.m.slu 5).splitOut && t.m.rd O.bsnSplit 0 == 0) = true := by decide

/-- HbmKept: a line of the first share of stack 7 holds a slot's head, and its partner holds the same. -/
theorem test_line_heads :
    (bench .lit).m.lineUse 7 0 = .head (slotKey 13 0) ∧ (on (bench .lit) fun m => m.wr O.flwSizeLog2 0 28).m.lineUse 7 (2 ^ 26 - 5) = .head (slotKey 15 (2 ^ 24 - 1)) ∧
      (on (bench .lit) fun m => m.wr O.flwSizeLog2 0 27).m.lineUse 7 (2 ^ 26 - 5) = .held ∧ (bench .lit).m.dp.hbm = [] := by decide

/-- StepRunsFront: a block at rest has nothing that follows a command. -/
theorem test_nothing_follows :
    (bench .lit).m.clk.owed = [] ∧ ((List.range 16).all fun v => ((bench .lit).m.basin v).inOther.isEmpty && ((bench .lit).m.ifts v).isEmpty) = true ∧ (bench .lit).m.pwr.avs = [] ∧ (bench .lit).m.gecOn = [] ∧
      (bench .lit).m.clk.job = none ∧ (bench .lit).m.dbg.scanEnd = false ∧ (bench .lit).m.guardDue = false := by decide

/-- A READ of slot 0 through session 0's window on the flow-record slots. -/
def slotFrame : ClFrame := frame 1 0 (objRec (O.flwSlots.key 0 + 3) 0 []) 1

/-- FramesReadAndWrite: a READ of a slot is answered at once where its basin serves host operations, and waits for it where it does not yet. -/
theorem test_slot_read :
    (recsOf slotFrame).isSome = true ∧ admits (bench .lit).mc ((heard (bench .lit) slotFrame).engineStart 1) 1 slotFrame [] = true ∧
      gives .clelekRead (heard (put (bench .lit) .basin 0 .running) slotFrame) (fun t => t.m.com.out.length == 1 && t.m.clk.owed.isEmpty) = true ∧
      gives .clelekRead (heard (put (bench .lit) .basin 0 .starting) slotFrame) (fun t => t.m.com.out.isEmpty && t.m.clk.owed.length == 1) = true := by decide

end Sys2Proof.Tests
end

namespace Sys2Proof.Machine

/-! What the work of the mills leaves alone. Five relations between the machine before and after: each lemma below says once which of them an operation keeps. -/

/-- What decides how a sluice's events complete: its contexts, and whether a SWEEP or a SPLIT is outstanding, or a SWEEP due. -/
def Slu.duties (s : Slu) : Map (Option Ctx) × Bool × Bool × Bool := (s.ctxs, s.sweepOut, s.sweepDue, s.splitOut)

/-- `n` has the contexts of `m`, and the same SWEEPs and SPLITs are outstanding. -/
structure Quiet (m n : Mach) : Prop where
  duties : ∀ v, (n.slu v).duties = (m.slu v).duties

/-- Identifiers of area 60 with subindex 0 or 2: FLW-SIZE-LOG2 and the split pointers are among them. -/
abbrev SizeKey (k : Nat) : Prop := k / 16777216 = 0x60 ∧ (k % 256 = 0 ∨ k % 256 = 2)

/-- `n` has the eddy of `m`, and the size and growth of its flow table. -/
structure Held (m n : Mach) : Prop where
  eddy : n.dp.eddy = m.dp.eddy
  splits : n.dp.splits = m.dp.splits
  growing : n.dp.growing = m.dp.growing
  sizes : ∀ k, SizeKey k → ∀ d, mget d n.com.objs k = mget d m.com.objs k

/-- `n` has the contexts, the eddy and the table's size and growth of `m`. -/
structure Still (m n : Mach) : Prop extends Quiet m n, Held m n

/-- Identifiers that neither the queues of HBM nor the traces count under. -/
abbrev Unlogged (k : Nat) : Prop := k / 16777216 < 0x70 ∨ k % 256 = 0 ∨ 15 < k % 256

/-- `n` differs from `m` at most in its sluices, in requests to HBM, and in the counters and entries of these and of the traces. -/
structure Logged (m n : Mach) : Prop where
  flt : n.flt = m.flt
  dp : n.dp = { m.dp with slu := n.dp.slu, pcs := n.dp.pcs, hch := n.dp.hch, accNext := n.dp.accNext }
  objs : ∀ k, Unlogged k → ∀ d, mget d n.com.objs k = mget d m.com.objs k

/-- The same, where no context ends or begins. -/
structure Queues (m n : Mach) : Prop extends Logged m n, Quiet m n

section Relations

variable {m n p : Mach}

theorem Quiet.refl (m : Mach) : Quiet m m := ⟨fun _ => rfl⟩
theorem Held.refl (m : Mach) : Held m m := ⟨rfl, rfl, rfl, fun _ _ _ => rfl⟩
theorem Still.refl (m : Mach) : Still m m := ⟨.refl m, .refl m⟩
theorem Logged.refl (m : Mach) : Logged m m := ⟨rfl, rfl, fun _ _ _ => rfl⟩
theorem Queues.refl (m : Mach) : Queues m m := ⟨.refl m, .refl m⟩

theorem Quiet.trans (h : Quiet m n) (g : Quiet n p) : Quiet m p := ⟨fun v => (g.duties v).trans (h.duties v)⟩

theorem Held.trans (h : Held m n) (g : Held n p) : Held m p :=
  ⟨g.eddy.trans h.eddy, g.splits.trans h.splits, g.growing.trans h.growing, fun k a d => (g.sizes k a d).trans (h.sizes k a d)⟩

theorem Still.trans (h : Still m n) (g : Still n p) : Still m p := ⟨h.toQuiet.trans g.toQuiet, h.toHeld.trans g.toHeld⟩

theorem Logged.trans (h : Logged m n) (g : Logged n p) : Logged m p :=
  ⟨g.flt.trans h.flt, by rw [g.dp, h.dp], fun k a d => (g.objs k a d).trans (h.objs k a d)⟩

theorem Queues.trans (h : Queues m n) (g : Queues n p) : Queues m p := ⟨h.toLogged.trans g.toLogged, h.toQuiet.trans g.toQuiet⟩

/-! The same, the later step given first. -/

theorem Quiet.after (g : Quiet n p) (h : Quiet m n) : Quiet m p := h.trans g
theorem Still.after (g : Still n p) (h : Still m n) : Still m p := h.trans g
theorem Queues.after (g : Queues n p) (h : Queues m n) : Queues m p := h.trans g

/-- What every step of a fold keeps, the fold keeps. -/
theorem foldl_keeps {R : Mach → Mach → Prop} {α : Type} {f : Mach → α → Mach} (r : ∀ m, R m m) (t : ∀ {a b c}, R a b → R b c → R a c)
    (h : ∀ m a, R m (f m a)) (l : List α) (m : Mach) : R m (l.foldl f m) := by
  induction l generalizing m with
  | nil => exact r m
  | cons a l ih => exact t (h m a) (ih _)

theorem Quiet.foldl {α : Type} {f : Mach → α → Mach} (h : ∀ m a, Quiet m (f m a)) (l : List α) (m : Mach) : Quiet m (l.foldl f m) :=
  foldl_keeps Quiet.refl Quiet.trans h l m

theorem Still.foldl {α : Type} {f : Mach → α → Mach} (h : ∀ m a, Still m (f m a)) (l : List α) (m : Mach) : Still m (l.foldl f m) :=
  foldl_keeps Still.refl Still.trans h l m

theorem Queues.foldl {α : Type} {f : Mach → α → Mach} (h : ∀ m a, Queues m (f m a)) (l : List α) (m : Mach) : Queues m (l.foldl f m) :=
  foldl_keeps Queues.refl Queues.trans h l m

/-- What both branches keep, a choice between them keeps. -/
theorem ite_keeps {R : Mach → Prop} {q : Prop} [Decidable q] (h : R m) (g : R n) : R (if q then m else n) := by
  split
  · exact h
  · exact g

/-- A context is as before. -/
theorem Quiet.ctx (h : Quiet m n) (v k : Nat) : n.ctx v k = m.ctx v k := by
  have e := congrArg Prod.fst (h.duties v)
  simp only [Slu.duties] at e
  simp only [Mach.ctx, e]

theorem Quiet.sweepOut (h : Quiet m n) (v : Nat) : (n.slu v).sweepOut = (m.slu v).sweepOut := congrArg (·.2.1) (h.duties v)
theorem Quiet.sweepDue (h : Quiet m n) (v : Nat) : (n.slu v).sweepDue = (m.slu v).sweepDue := congrArg (·.2.2.1) (h.duties v)
theorem Quiet.splitOut (h : Quiet m n) (v : Nat) : (n.slu v).splitOut = (m.slu v).splitOut := congrArg (·.2.2.2) (h.duties v)

/-- Sluices left as they were keep their contexts. -/
theorem quiet_of_slu (h : n.dp.slu = m.dp.slu) : Quiet m n := ⟨fun v => by simp only [Mach.slu, h]⟩

/-- What leaves the data plane and the objects of the table's size alone. -/
theorem still_of_dp (h : n.dp = m.dp) (g : ∀ k, SizeKey k → ∀ d, mget d n.com.objs k = mget d m.com.objs k) : Still m n :=
  ⟨quiet_of_slu (by rw [h]), by rw [h], by rw [h], by rw [h], g⟩

theorem Logged.held (h : Logged m n) : Held m n where
  eddy := by rw [h.dp]
  splits := by rw [h.dp]
  growing := by rw [h.dp]
  sizes k a := h.objs k (.inl (by omega))

theorem Queues.still (h : Queues m n) : Still m n := ⟨h.toQuiet, h.held⟩

/-- Raising something, or a fault found, leaves the flow table and its sluices alone. -/
theorem Faulted.still (h : Faulted m n) : Still m n :=
  still_of_dp h.dp fun k a => h.objs k ⟨by omega, by omega, by omega⟩ (by omega)

theorem Raised.still (h : Raised m n) : Still m n := still_of_dp h.dp fun k a => h.objs k ⟨by omega, by omega, by omega⟩

end Relations

section Objects

variable (m : Mach) {o : ObjDef}

theorem key_sub {i : Nat} (h : o.sub < 256) : o.key i % 256 = o.sub := by
  simp only [ObjDef.key, Nat.shiftLeft_eq]
  omega

theorem area_le_key (o : ObjDef) (i : Nat) : o.area ≤ o.key i / 16777216 := by
  simp only [ObjDef.key, Nat.shiftLeft_eq]
  omega

theorem quiet_wr (o : ObjDef) (i v : Nat) : Quiet m (m.wr o i v) := quiet_of_slu rfl
theorem quiet_bump (o : ObjDef) (i n : Nat) : Quiet m (m.bump o i n) := quiet_of_slu rfl
theorem quiet_setEnt (o : ObjDef) (i x v : Nat) : Quiet m (m.setEnt o i x v) := quiet_of_slu rfl
theorem quiet_bumpF (o : ObjDef) (i x off n b : Nat) : Quiet m (m.bumpF o i x off n b) := quiet_of_slu rfl

/-- Objects whose writing leaves the table's size alone: of an area above 60, or of another subindex. -/
abbrev ObjDef.Apart60 (o : ObjDef) : Prop := 0x60 < o.area ∨ (o.sub ≠ 0 ∧ o.sub ≠ 2 ∧ o.sub < 256)

theorem still_wr (i v : Nat) (h : o.Apart60) : Still m (m.wr o i v) :=
  still_of_dp rfl fun k a d => objs_wr_ne m v (by
    rintro rfl
    have := area_le_key o i
    rcases h with h | ⟨h0, h2, hs⟩
    · omega
    · have := key_sub (i := i) hs
      omega) d

theorem still_bump (i n : Nat) (h : o.Apart60) : Still m (m.bump o i n) := still_wr m i _ h

theorem still_peak (i v : Nat) (h : o.Apart60) : Still m (m.peak o i v) := by
  unfold Mach.peak
  exact ite_keeps (still_wr m i v h) (.refl m)

theorem still_setEnt (o : ObjDef) (i x v : Nat) : Still m (m.setEnt o i x v) := still_of_dp rfl fun _ _ _ => rfl

theorem still_bumpF (o : ObjDef) (i x off n b : Nat) : Still m (m.bumpF o i x off n b) := still_setEnt m o i x _

/-- Objects that the queues of HBM and the traces count under. -/
abbrev ObjDef.Logs (o : ObjDef) : Prop := 0x70 ≤ o.area ∧ 0 < o.sub ∧ o.sub ≤ 15

theorem queues_wr (i v : Nat) (h : o.Logs) : Queues m (m.wr o i v) where
  flt := rfl
  dp := rfl
  objs k a d := objs_wr_ne m v (by
    rintro rfl
    have := area_le_key o i
    have := key_sub (o := o) (i := i) (by omega)
    omega) d
  duties _ := rfl

theorem queues_bump (i n : Nat) (h : o.Logs) : Queues m (m.bump o i n) := queues_wr m i _ h

theorem queues_peak (i v : Nat) (h : o.Logs) : Queues m (m.peak o i v) := by
  unfold Mach.peak
  exact ite_keeps (queues_wr m i v h) (.refl m)

theorem queues_setEnt (o : ObjDef) (i x v : Nat) : Queues m (m.setEnt o i x v) := ⟨⟨rfl, rfl, fun _ _ _ => rfl⟩, quiet_setEnt m o i x v⟩

end Objects

/-! Requests to HBM (R397, R398, R404, R405). -/

section Hbm

variable (m : Mach)

theorem queues_setPc (p : Nat) (x : Pc) : Queues m (m.setPc p x) := ⟨⟨rfl, rfl, fun _ _ _ => rfl⟩, quiet_of_slu rfl⟩
theorem queues_setHchan (k : Nat) (x : HCh) : Queues m (m.setHchan k x) := ⟨⟨rfl, rfl, fun _ _ _ => rfl⟩, quiet_of_slu rfl⟩
theorem queues_accNext (n : Nat) : Queues m { m with dp.accNext := n } := ⟨⟨rfl, rfl, fun _ _ _ => rfl⟩, quiet_of_slu rfl⟩

theorem queues_pcWake (p : Nat) : Queues m (m.pcWake p) := by
  unfold Mach.pcWake
  exact ite_keeps (.refl m) (ite_keeps (queues_bump m _ _ (by decide)) ((queues_bump _ _ _ (by decide)).after (queues_setHchan m _ _)))

theorem queues_pcEnter (p : Nat) (x : HReq) : Queues m (m.pcEnter p x) := (queues_peak _ _ _ (by decide)).after (queues_setPc m _ _)

theorem queues_pcWait (p : Nat) (x : HReq) (full : Bool) : Queues m (m.pcWait p x full) := by
  unfold Mach.pcWait
  exact ite_keeps ((queues_bump _ _ _ (by decide)).after (queues_setPc m _ _)) (queues_setPc m _ _)

theorem queues_pcPushAll (l : List (Nat × HReq)) : Queues m (m.pcPushAll l) := by
  unfold Mach.pcPushAll
  dsimp only
  refine ite_keeps ((Queues.foldl (fun m _ => queues_pcEnter m _ _) _ _).after ?_) ((Queues.foldl (fun m _ => queues_pcWait m _ _ _) _ _).after ?_) <;>
    exact (Queues.foldl (fun m _ => queues_pcWake m _) _ _).after (ite_keeps (.refl m) (queues_accNext m _))

theorem queues_readLines (s line n : Nat) (look : Nat × Nat) (opn : Bool) : Queues m (m.readLines s line n look opn).2 :=
  Queues.foldl (fun m _ => queues_pcPushAll m _) _ _

end Hbm

/-! The scheduling trace (R386, R387). -/

section Trace

variable (m : Mach)

theorem slu_setSlu (v w : Nat) (x : Slu) : (m.setSlu v x).slu w = if w = v then x else m.slu w := mget_mset _ _ _ _ _

@[simp] theorem slu_setSlu_same (v : Nat) (x : Slu) : (m.setSlu v x).slu v = x := by simp [slu_setSlu]

theorem quiet_setSlu {v : Nat} {x : Slu} (h : x.duties = (m.slu v).duties) : Quiet m (m.setSlu v x) where
  duties w := by
    rw [slu_setSlu]
    split
    · rename_i e
      rw [h, e]
    · rfl

theorem queues_setSlu {v : Nat} {x : Slu} (h : x.duties = (m.slu v).duties) : Queues m (m.setSlu v x) :=
  ⟨⟨rfl, rfl, fun _ _ _ => rfl⟩, quiet_setSlu m h⟩

theorem queues_trcStore (v i r : Nat) : Queues m (m.trcStore v i r) := (queues_setEnt m _ _ _ _).trans (queues_pcPushAll _ _)

theorem queues_trcPut (v r : Nat) : Queues m (m.trcPut v r) := by
  unfold Mach.trcPut
  dsimp only
  generalize hz : (m.trcStore v _ _).wr O.trcNext v _ = z
  have h : Queues m z := hz ▸ (queues_wr _ _ _ (by decide)).after (queues_trcStore m _ _ _)
  have hs : (m.slu v).duties = (z.slu v).duties := (h.duties v).symm
  refine h.trans (ite_keeps ?_ (ite_keeps (ite_keeps ?_ ?_) (ite_keeps ?_ ?_)))
  · exact (queues_wr _ _ _ (by decide)).after (queues_setSlu z hs)
  · exact (queues_wr _ _ _ (by decide)).after (queues_setSlu z hs)
  · exact queues_setSlu z hs
  · have hy : ∀ j t, Queues z (if bit (z.rd O.trcWhat v) 7 then (z.trcStore v j t).wr O.trcNext v ((j + 1) % 2097152) else z) := fun _ _ =>
      ite_keeps ((queues_wr _ _ _ (by decide)).after (queues_trcStore z _ _ _)) (.refl z)
    refine (queues_wr _ _ _ (by decide)).after ((queues_setSlu _ ?_).after (hy _ _))
    exact hs.trans ((hy _ _).duties v).symm
  · exact queues_setSlu z hs

theorem queues_trcDrain (v f : Nat) : Queues m (m.trcDrain v f) := by
  induction f generalizing m with
  | zero => exact .refl m
  | succ f ih =>
    unfold Mach.trcDrain
    split
    · exact .refl m
    · refine ite_keeps (queues_setSlu m rfl) (ite_keeps (.refl m) (ite_keeps ?_ (ite_keeps (.refl m) ?_)))
      · exact (ih _).after ((queues_trcPut _ _ _).after (queues_setSlu m rfl))
      · exact (queues_bump _ _ _ (by decide)).after (queues_setSlu m rfl)

theorem queues_trc (v what : Nat) (e : Ev) (ctx reason : Nat) : Queues m (m.trc v what e ctx reason) := by
  unfold Mach.trc
  dsimp only
  refine (queues_trcDrain m v 257).trans ?_
  generalize m.trcDrain v 257 = n
  refine ite_keeps (.refl n) (ite_keeps ?_ ?_)
  · exact (queues_bump _ _ _ (by decide)).after (queues_setSlu n rfl)
  · exact (queues_trcDrain _ _ _).after (queues_setSlu n rfl)

end Trace

end Sys2Proof.Machine

namespace Sys2Proof.Machine

/-! In-flight entries (R335 to R339). -/

section InFlight

variable (m : Mach) (c : ModeCtl)

theorem still_count (o : ObjDef) (idx table n : Nat) : Still m (m.count c o idx table n) := by
  unfold Mach.count
  dsimp only
  refine ite_keeps (.refl m) (ite_keeps (still_setEnt m _ _ _ _) (ite_keeps (still_setEnt m _ _ _ _) ?_))
  exact (raised_note _ _ _ _ _ _ _).still.after (still_setEnt m _ _ _ _)

theorem still_gecAdd (g n : Nat) : Still m (m.gecAdd c g n) := by
  unfold Mach.gecAdd
  dsimp only
  refine ite_keeps (ite_keeps ?_ ?_) (still_count m _ _ _ _ _)
  · exact (still_setEnt _ _ _ _ _).after (still_count m _ _ _ _ _)
  · exact (raised_note _ _ _ _ _ _ _).still.after ((still_setEnt _ _ _ _ _).after (still_count m _ _ _ _ _))

theorem still_pulse (tile ev arg n : Nat) : Still m (m.pulse c tile ev arg n) :=
  Still.foldl (fun m _ => ite_keeps (still_gecAdd m c _ _) (.refl m)) _ _

theorem still_setBasin (b : Nat) (x : Bsn) : Still m (m.setBasin b x) := ⟨quiet_of_slu rfl, rfl, rfl, rfl, fun _ _ _ => rfl⟩

theorem still_setIft (v e : Nat) (x : Option Ift) : Still m (m.setIft v e x) := still_setBasin m v _

theorem still_chainWait (v e : Nat) (x : Ift) : Still m (m.chainWait v e x) := by
  unfold Mach.chainWait
  exact ite_keeps (.refl m) ((still_bump _ _ _ (by decide)).after (still_setIft m _ _ _))

theorem still_startLookup (v e : Nat) (x : Ift) : Still m (m.startLookup c v e x) := by
  unfold Mach.startLookup
  split
  · exact (still_bump _ _ _ (by decide)).after (still_setIft m _ _ _)
  · refine ite_keeps (still_chainWait m _ _ _) ?_
    dsimp only
    generalize hz : Mach.pulse _ c _ 0x12 0 = z
    have h : Still m z := hz ▸ (still_pulse _ _ _ _ _ _).after (still_bump m _ _ (by decide))
    exact (still_setIft _ _ _ _).after ((queues_readLines z _ _ _ _ _).still.after h)

theorem still_receive (v e : Nat) (w : Arrival) : Still m (m.receive c v e w) := by
  unfold Mach.receive
  dsimp only
  generalize hz : Mach.peak _ O.iftPeak v _ = z
  have h : Still m z := hz ▸ (still_peak _ _ _ (by decide)).after ((still_setIft _ _ _ _).after (still_setBasin m _ _))
  exact h.trans (ite_keeps (ite_keeps (still_startLookup z c _ _ _) (.refl z)) (ite_keeps (.refl z) (still_chainWait z _ _ _)))

theorem still_admitWait (v : Nat) : Still m (m.admitWait c v) := by
  have h : ∀ (x : Bsn) (e : Nat) (w : Arrival), Still m ((m.setBasin v x).receive c v e w) := fun _ _ _ =>
    (still_receive _ _ _ _ _).after (still_setBasin m _ _)
  unfold Mach.admitWait
  dsimp only
  split
  · split
    · exact h _ _ _
    · exact h _ _ _
    · exact .refl m
  · split
    · exact h _ _ _
    · exact .refl m

theorem still_enterOther (v : Nat) (op : IOp) (key : Nat) : Still m (m.enterOther c v op key).2 := by
  unfold Mach.enterOther
  dsimp only
  split
  · exact still_receive m c _ _ _
  · exact (still_bump _ _ _ (by decide)).after (still_setBasin m _ _)

theorem still_headNow (v e : Nat) (y : Ift) (known : Bool) : Still m (m.headNow c v e y known) := by
  unfold Mach.headNow
  exact ite_keeps (.refl m) (ite_keeps (still_setIft m _ _ _) (ite_keeps (still_setIft m _ _ _) (still_startLookup m c _ _ _)))

theorem still_freeIft (v e : Nat) : Still m (m.freeIft c v e) := by
  unfold Mach.freeIft
  split
  · exact .refl m
  · refine (still_admitWait _ _ _).after ?_
    dsimp only
    have joined : ∀ (q : Bool) (l : List (Nat × Ift)), Still m
        (if q then l.foldl (fun m p => m.setIft v p.1 (some { p.2 with joined := p.2.op.isPacket })) (m.setIft v e none) else m.setIft v e none) := fun _ _ =>
      ite_keeps ((Still.foldl (fun m _ => still_setIft m _ _ _) _ _).after (still_setIft m _ _ _)) (still_setIft m _ _ _)
    split
    · split
      · exact (still_headNow _ _ _ _ _ _).after (joined _ _)
      · exact joined _ _
    · exact joined _ _

theorem still_dropMoves (v k : Nat) : Still m (m.dropMoves c v k) := by
  unfold Mach.dropMoves
  dsimp only
  split
  · exact (still_freeIft _ _ _ _).after (still_setBasin m _ _)
  · exact still_setBasin m _ _

theorem still_lookupsGo (v : Nat) : Still m (m.lookupsGo c v) :=
  Still.foldl (fun m _ => ite_keeps (still_startLookup m c _ _ _) (.refl m)) _ _

end InFlight

/-! Export buffers (R378, R526, R430 to R434). -/

section Export

variable (m : Mach) (c : ModeCtl)

theorem still_setHpool (p : Nat) (x : HPool) : Still m (m.setHpool p x) := ⟨quiet_of_slu rfl, rfl, rfl, rfl, fun _ _ _ => rfl⟩
theorem still_setCol (k : Nat) (x : Col) : Still m (m.setCol k x) := ⟨quiet_of_slu rfl, rfl, rfl, rfl, fun _ _ _ => rfl⟩
theorem still_xbuf (x : Map (Option Xb)) : Still m { m with dp.xbuf := x } := ⟨quiet_of_slu rfl, rfl, rfl, rfl, fun _ _ _ => rfl⟩

theorem still_bufWrite (own : Option Nat) (buf : Nat × Nat) (o : Nat) (l : List Byte) : Still m (m.bufWrite own buf o l) := by
  unfold Mach.bufWrite
  exact ite_keeps (.refl m) ⟨quiet_of_slu rfl, rfl, rfl, rfl, fun _ _ _ => rfl⟩

theorem still_faultAt (tile cls detail : Nat) : Still m (m.faultAt c tile cls detail) := (faultAt_spec m c tile cls detail).2.still

theorem still_hpoolFault (b p : Nat) : Still m (m.hpoolFault c b p) :=
  (still_faultAt _ _ _ _ _).after ((still_count _ _ _ _ _ _).after (still_bump m _ _ (by decide)))

theorem still_hpoolFree (b p i : Nat) : Still m (m.hpoolFree c b p i) := by
  unfold Mach.hpoolFree
  dsimp only
  refine ite_keeps (.refl m) (ite_keeps (still_hpoolFault m c _ _) (ite_keeps ?_ (ite_keeps (still_bump m _ _ (by decide)) (ite_keeps ?_ ?_))))
  · exact (still_hpoolFault _ _ _ _).after (still_bump m _ _ (by decide))
  · exact (still_faultAt _ _ _ _ _).after (still_setHpool m _ _)
  · exact (still_bufWrite _ _ _ _ _).after ((still_wr _ _ _ (by decide)).after (still_setHpool m _ _))

theorem still_bufDone (x : Xb) : Still m (m.bufDone c x) := ite_keeps (.refl m) (still_hpoolFree m c _ _ _)

theorem still_handBuf (b : Nat) : Still m (m.handBuf c b) := by
  unfold Mach.handBuf
  split
  · exact .refl m
  · refine (still_bufDone _ _ _).after ((Still.foldl (fun m k => ?_) _ _).after (still_xbuf m _))
    exact ite_keeps (.refl m) (ite_keeps (still_setCol m _ _) ((still_bump _ _ _ (by decide)).after (still_setCol m _ _)))

theorem still_hpoolTake (b p : Nat) : Still m (m.hpoolTake c b p).2 := by
  unfold Mach.hpoolTake
  dsimp only
  split
  · exact .refl m
  · split
    · exact still_bump m _ _ (by decide)
    · exact (still_peak _ _ _ (by decide)).after ((still_bump _ _ _ (by decide)).after ((still_wr _ _ _ (by decide)).after (still_setHpool m _ _)))

theorem still_hpoolServe (p : Nat) (l : List HbmAsk) : Still m (m.hpoolServe c p l).2.2 := by
  unfold Mach.hpoolServe
  generalize served 16 _ _ l = r
  suffices h : ∀ a : List (HbmAsk × HGrant) × List HbmAsk × Mach, Still m a.2.2 → Still m (r.foldl _ a).2.2 from h _ (.refl m)
  induction r with
  | nil => exact fun _ h => h
  | cons q r ih =>
    intro a h
    refine ih _ ?_
    have g := (still_hpoolTake a.2.2 c q.1 p).after h
    dsimp only
    split
    · next e => rwa [e] at g
    · next e => rwa [e] at g

theorem still_hpoolArb (s : Nat) (l : List HbmAsk) : Still m (m.hpoolArb c s l).2 := by
  unfold Mach.hpoolArb
  dsimp only
  refine (Still.foldl (fun m q => (still_count _ _ _ _ _ _).after (still_bump m _ _ (by decide))) _ _).after ?_
  refine (still_hpoolServe _ _ _ _).after ((still_hpoolServe _ _ _ _).after ?_)
  exact Still.foldl (fun m q => (still_count _ _ _ _ _ _).after (still_bump m _ _ (by decide))) _ _

theorem still_takeBuf (b : Nat) (bitmap : Bool) : Still m (m.takeBuf c b bitmap).2 := by
  unfold Mach.takeBuf
  split
  · exact .refl m
  · have g : Still m (m.hpoolAlloc c b bitmap).2 := still_hpoolArb m c _ _
    split
    · next e => rwa [e] at g
    · next e => rwa [e] at g
    · next p n e =>
      rw [e] at g
      have h : Still m ((n.hpoolRefill p).hpoolTake c b p).2 :=
        (still_hpoolTake _ _ _ _).after ((ite_keeps (still_setHpool n _ _) (.refl n) : Still n (n.hpoolRefill p)).after g)
      split
      · next e => rwa [e] at h
      · next e => rwa [e] at h

theorem still_appendWrite (b : Nat) (x : Xb) (r : FlRec) : Still m (m.appendWrite b x r) := (still_bufWrite _ _ _ _ _).after (still_bufWrite m _ _ _ _)

theorem still_flLose (cause n : Nat) : Still m (m.flLose cause n) := by
  unfold Mach.flLose
  split <;> exact still_bump m _ _ (by decide)

theorem still_flAppend (b : Nat) (r : FlRec) : Still m (m.flAppend c b r) := by
  unfold Mach.flAppend
  refine ite_keeps (.refl m) ?_
  extract_lets k n
  have h : Still m n := by
    unfold n
    split
    · exact ite_keeps (still_handBuf m c _) (.refl m)
    · exact .refl m
  clear_value n
  refine Still.after ?_ h
  split
  · next x _ => exact (still_xbuf (n.appendWrite b x r) _).after (still_appendWrite n _ _ _)
  · have g := still_takeBuf n c b false
    split
    · next z e =>
      rw [e] at g
      exact (still_xbuf (z.appendWrite b _ r) _).after ((still_appendWrite z _ _ _).after g)
    · next e =>
      rw [e] at g
      exact (still_flLose _ _ _).after g

theorem still_flFlow (b k r why : Nat) (active : Bool) : Still m (m.flFlow c b k r why active) := still_flAppend m c _ _

theorem still_flRefusal (b key reason : Nat) : Still m (m.flRefusal c b key reason) := still_flAppend m c _ _

end Export

end Sys2Proof.Machine

namespace Sys2Proof.Machine

/-! Contexts: an event's end, and what it waits for (R361, R365, R380, R381). -/

section Contexts

variable {m n : Mach} (c : ModeCtl)

@[simp] theorem ctx_setCtx_same (m : Mach) (v k : Nat) (x : Option Ctx) : (m.setCtx v k x).ctx v k = x := by
  simp [Mach.setCtx, Mach.ctx]

theorem logged_setCtx (m : Mach) (v k : Nat) (x : Option Ctx) : Logged m (m.setCtx v k x) := ⟨rfl, rfl, fun _ _ _ => rfl⟩

theorem logged_ctxFree1 (m : Mach) (v k steps : Nat) : Logged m (m.ctxFree1 v k steps) := by
  unfold Mach.ctxFree1
  split
  · exact .refl m
  · exact (logged_setCtx m _ _ _).trans ((queues_trc _ _ _ _ _ _).after (queues_bump _ _ _ (by decide))).toLogged

/-- A context whose event completes is free. -/
theorem ctx_ctxFree1 (m : Mach) (v k steps : Nat) : (m.ctxFree1 v k steps).ctx v k = none := by
  unfold Mach.ctxFree1
  split
  · assumption
  · exact (((queues_trc _ _ _ _ _ _).after (queues_bump _ _ _ (by decide))).toQuiet.ctx v k).trans (ctx_setCtx_same m v k none)

/-- An event that waits for no post frees its context as its work ends. -/
theorem ctx_ctxFinish {v k : Nat} {x : Ctx} (q : Quiet m n) (hx : m.ctx v k = some x) (hp : x.posts = 0) (f : CtxEnd) :
    (n.ctxFinish c v k f).ctx v k = none := by
  simp only [Mach.ctxFinish, q.ctx v k, hx, hp, if_true]
  exact ctx_ctxFree1 _ _ _ _

/-- An event that waits for a post keeps its context, its work done. -/
theorem ctx_ctxFinish_waits {v k : Nat} {x : Ctx} (hx : n.ctx v k = some x) (hp : x.posts ≠ 0) (f : CtxEnd) :
    (n.ctxFinish c v k f).ctx v k = some { x with fin := some f } := by
  simp [Mach.ctxFinish, hx, hp]

theorem ctx_recDone {v k : Nat} {x : Ctx} (q : Quiet m n) (hx : m.ctx v k = some x) (hp : x.posts = 0) (e kind steps : Nat) (live : Option Nat)
    (r outcome why : Nat) : (n.recDone c v k e kind steps live r outcome why).ctx v k = none := ctx_ctxFinish c q hx hp _

theorem logged_ctxDone (m : Mach) (v k steps : Nat) : Logged m (m.ctxDone c v k steps) := by
  unfold Mach.ctxDone Mach.ctxFinish
  split
  · exact .refl m
  · exact ite_keeps (logged_ctxFree1 m _ _ _) (logged_setCtx m _ _ _)

theorem held_epiStep (m : Mach) (v st r outcome why : Nat) {y : Mach × Nat × Nat} (h : m.epiStep c v st none r outcome why = some y) : Held m y.1 := by
  unfold Mach.epiStep at h
  dsimp only at h
  split at h <;> cases h
  · exact .refl m
  · exact (still_bumpF m _ _ _ _ _ _).toHeld
  · exact (still_flFlow m c _ _ _ _ _).toHeld
  · exact .refl m
  · exact .refl m

theorem held_epiRun (m : Mach) (v list r outcome why k f : Nat) : Held m (m.epiRun c v list none r outcome why k f).1 := by
  induction f generalizing m r k with
  | zero => exact .refl m
  | succ f ih =>
    unfold Mach.epiRun
    split
    · exact .refl m
    · split
      · exact .refl m
      · next h => exact (held_epiStep c m _ _ _ _ _ h).trans (ih _ _ _)

/-- An epilogue of an event whose record is gone writes no record. -/
theorem held_epilogue (m : Mach) (v kind r outcome why : Nat) : Held m (m.epilogue c v kind none r outcome why).1 := by
  unfold Mach.epilogue
  dsimp only
  split
  · exact .refl m
  · exact (still_bump m _ _ (by decide)).toHeld.trans (held_epiRun c _ _ _ _ _ _ _ _)

theorem held_ctxEnd (m : Mach) (v k : Nat) {f : CtxEnd} (h : f.live = none) : Held m (m.ctxEnd c v k f) := by
  have g : Held m (if f.kind = 0 then (m, 0) else m.epilogue c v f.kind f.live f.rec_ f.outcome f.why).1 := by
    split
    · exact .refl m
    · rw [h]
      exact held_epilogue c m _ _ _ _ _
  unfold Mach.ctxEnd
  dsimp only
  split
  · exact g.trans ((still_freeIft _ c _ _).toHeld.trans (logged_ctxFree1 _ _ _ _).held)
  · exact g.trans (logged_ctxFree1 _ _ _ _).held

/-- A record event whose record is gone leaves the eddy as it ends. -/
theorem held_recDone (m : Mach) (v k e kind steps r outcome why : Nat) : Held m (m.recDone c v k e kind steps none r outcome why) := by
  unfold Mach.recDone Mach.ctxFinish
  split
  · exact .refl m
  · exact ite_keeps (held_ctxEnd c m _ _ rfl) (logged_setCtx m _ _ _).held

/-- The event whose turn it is stands in its context. -/
theorem ctx_of_turn {v k kind e : Nat} {cx : Ctx} {x : Ift} (h : m.turn v k kind = .head cx e x) : m.ctx v k = some cx := by
  unfold Mach.turn at h
  split at h
  · cases h
  · next y hy =>
    split at h
    · cases h
    · dsimp only at h
      split at h
      · split at h <;> cases h
      · split at h
        · cases h
          exact hy
        · cases h

end Contexts

/-! Messages, verdicts and counts that go with the work of an event. -/

section Work

variable (m : Mach) (c : ModeCtl)

theorem still_metChan (j : Nat) : Still m (m.metChan j) := by
  unfold Mach.metChan
  split
  · exact ite_keeps (.refl m) (still_of_dp rfl fun _ _ _ => rfl)
  · exact .refl m

theorem still_setChan (j : Nat) (x : ChSt) : Still m (m.setChan j x) := ⟨quiet_of_slu rfl, rfl, rfl, rfl, fun _ _ _ => rfl⟩

theorem still_post (i e k : Nat) (x : Msg) : Still m (m.post i e k x) := by
  unfold Mach.post
  dsimp only
  split
  · exact (still_metChan _ _).after (still_setChan m _ _)
  · exact (still_metChan _ _).after (still_setChan m _ _)
  · exact still_setChan m _ _

theorem still_postEv (v t : Nat) (e : Ev) : Still m (m.postEv v t e) := ite_keeps (queues_setSlu m (by rfl)).still (still_post m _ _ _ _)

/-- A post changes no context but that of its poster. -/
theorem held_postBy (by_ : Option (Nat × Nat)) (v t : Nat) (e : Ev) : Held m (m.postBy by_ v t e) := by
  unfold Mach.postBy
  dsimp only
  refine Held.trans ?_ (still_postEv _ _ _ _).toHeld
  split
  · split
    · exact (logged_setCtx m _ _ _).held
    · exact .refl m
  · exact .refl m

/-- A context that posts an event waits for it. -/
theorem ctx_postBy {v k : Nat} {x : Ctx} (h : m.ctx v k = some x) (w t : Nat) (e : Ev) :
    (m.postBy (byCtx v k) w t e).ctx v k = some { x with posts := x.posts + 1 } := by
  simp only [Mach.postBy, byCtx, h]
  rw [(still_postEv _ _ _ _).ctx, ctx_setCtx_same]

theorem quiet_sendVerdict (v : Nat) (x : Ift) (w : Nat) : Quiet m (m.sendVerdict v x w) := by
  unfold Mach.sendVerdict
  split
  · exact (still_post m _ _ _ _).toQuiet
  · exact .refl m

theorem quiet_tenRefused (key reason : Nat) : Quiet m (m.tenRefused key reason) := by
  unfold Mach.tenRefused
  split <;> exact quiet_of_slu rfl

theorem quiet_refuseCreate (v e : Nat) (x : Ift) (reason : Nat) : Quiet m (m.refuseCreate c v e x reason) := by
  unfold Mach.refuseCreate
  dsimp only
  refine (still_freeIft _ _ _ _).toQuiet.after ((quiet_sendVerdict _ _ _ _).after ((quiet_tenRefused m x.key reason).trans ?_))
  exact ite_keeps (still_postEv _ _ _ _).toQuiet (.refl _)

theorem quiet_pendDone (v key : Nat) : Quiet m (m.pendDone v key) := (still_setBasin m _ _).toQuiet

theorem still_tenCount (key : Nat) (up : Bool) : Still m (m.tenCount key up) := still_setEnt m _ _ _ _

theorem still_epActive (e : Nat) (up : Bool) : Still m (m.epActive e up) := by
  unfold Mach.epActive
  exact ite_keeps (.refl m) (ite_keeps (still_bumpF m _ _ _ _ _ _) (still_setEnt m _ _ _ _))

theorem still_setPair (key id : Nat) : Still m (m.setPair key id) := ⟨quiet_of_slu rfl, rfl, rfl, rfl, fun _ _ _ => rfl⟩

theorem quiet_recMade (v r : Nat) : Quiet m (m.recMade c v r) :=
  (still_epActive _ _ _).toQuiet.after ((still_tenCount _ _ _).toQuiet.after ((still_pulse _ _ _ _ _ _).toQuiet.after
    ((quiet_bump _ _ _ _).after (quiet_bump m _ _ _))))

theorem quiet_epUsed (l : List Nat) : Quiet m (m.epUsed l) := Quiet.foldl (fun m _ => quiet_bumpF m _ _ _ _ _ _) _ _

/-- A CREATE that fails frees its context unless it waits for a post (R350). -/
theorem ctx_createFails {s m : Mach} {v k e : Nat} {cx : Ctx} (q : Quiet s m) (hx : s.ctx v k = some cx) (hp : cx.posts = 0) (x : Ift) (reason steps : Nat) :
    (m.createFails c v k e x reason steps).ctx v k = none :=
  ctx_ctxFinish c ((quiet_refuseCreate _ c _ _ _ _).after ((quiet_pendDone m _ _).after q)) hx hp _

end Work

end Sys2Proof.Machine

namespace Sys2Proof.Machine

/-! Placing and moving records leaves contexts alone (R283, R286, R293, R294). -/

section Placing

variable (m : Mach) (c : ModeCtl)

theorem quiet_freed : Quiet m m.freed := quiet_of_slu rfl

theorem quiet_setWay (k : Nat) (w : Option Way) : Quiet m (m.setWay k w) := quiet_of_slu rfl

theorem quiet_setRec (k : Nat) (w : Way) (r : Nat) : Quiet m (m.setRec k w r) := quiet_of_slu rfl

/-- A changed record stands in its way. -/
theorem way_setRec (k : Nat) (w : Way) (r : Nat) : ∃ u, (m.setRec k w r).way k = some u ∧ u.rec_ = r := by
  simp [Mach.setRec, Mach.way, Mach.setWay]

theorem quiet_rebuildHold (b : Nat) : Quiet m (m.rebuildHold b) :=
  Quiet.foldl (fun m _ => ite_keeps (.refl m) (ite_keeps ((quiet_bump _ _ _ _).after (quiet_freed m)) (quiet_freed m))) _ _

theorem quiet_writeSlot (g r : Nat) : Quiet m (m.writeSlot g r).2 :=
  (queues_pcPushAll _ _).toQuiet.after ((quiet_rebuildHold _ _).after (quiet_of_slu rfl))

theorem quiet_takeWay {v h k : Nat} {n : Mach} (e : m.takeWay v h = some (k, n)) : Quiet m n := by
  unfold Mach.takeWay at e
  split at e
  · cases e
    exact .refl m
  · dsimp only at e
    split at e
    · cases e
    · cases e
      refine (quiet_setWay _ _ _).after ?_
      exact ite_keeps ((quiet_bump _ _ _ _).after (quiet_writeSlot m _ _)) (.refl m)

theorem quiet_replaceWay {g : Nat} {n : Mach} (e : m.replaceWay g = some n) : Quiet m n := by
  unfold Mach.replaceWay at e
  split at e
  · split at e
    · cases e
      exact (quiet_setWay _ _ _).after (ite_keeps (quiet_writeSlot m _ _) (.refl m))
    · cases e
  · cases e
    exact .refl m

theorem quiet_place {v g h r : Nat} {d : Bool} {n : Mach} (e : m.place v g h r d = some n) : Quiet m n := by
  simp only [Mach.place, Option.bind_eq_some_iff, Option.map_eq_some_iff] at e
  obtain ⟨a, ha, ⟨k, b⟩, hb, rfl⟩ := e
  exact ((quiet_replaceWay m ha).trans (quiet_takeWay a hb)).trans (quiet_of_slu rfl)

theorem quiet_moveRec {g g' : Nat} {n : Mach} (e : m.moveRec g g' = some n) : Quiet m n := by
  unfold Mach.moveRec at e
  dsimp only at e
  split at e
  · cases e
  · next a ha =>
    refine (quiet_place m ha).trans ?_
    split at e
    · cases e
      exact quiet_setRec a _ _ _
    · exact quiet_place a e

theorem quiet_relocMove {key : Nat} {q : Bool} {n : Mach} (e : m.relocMove key = some (q, n)) : Quiet m n := by
  unfold Mach.relocMove at e
  split at e
  · cases e
    exact .refl m
  · dsimp only at e
    split at e
    · cases e
      exact .refl m
    · simp only [Option.map_eq_some_iff] at e
      obtain ⟨a, ha, e⟩ := e
      cases e
      exact quiet_moveRec m ha

theorem quiet_wayWaits (v e : Nat) (x : Ift) : Quiet m (m.wayWaits v e x) := by
  unfold Mach.wayWaits
  exact ite_keeps (.refl m) ((quiet_bump _ _ _ _).after (still_setIft m _ _ _).toQuiet)

theorem quiet_entWaits (v e : Nat) : Quiet m (m.entWaits v e) := by
  unfold Mach.entWaits
  split
  · exact quiet_wayWaits m _ _ _
  · exact .refl m

theorem quiet_moved (v e b : Nat) : Quiet m (m.moved v e b) := by
  unfold Mach.moved
  refine (quiet_bump _ _ _ _).after ?_
  split
  · exact (still_setIft m _ _ _).toQuiet
  · exact .refl m

/-- The machine that placing a new record leaves. -/
def Placed.mach : Placed → Mach
  | .at_ _ m => m
  | .full m => m
  | .wait m => m

theorem quiet_placeRun (v e b r f : Nat) : Quiet m (m.placeRun c v e b r f).mach := by
  induction f generalizing m with
  | zero => exact .refl m
  | succ f ih =>
    unfold Mach.placeRun
    dsimp only
    split
    · split
      · exact .refl m
      · split
        · exact quiet_wayWaits m _ _ _
        · next h => exact (ih _).after ((still_freeIft _ _ _ _).toQuiet.after ((quiet_moved _ _ _ _).after (quiet_relocMove m h)))
        · next h => exact (ih _).after ((still_freeIft _ _ _ _).toQuiet.after (quiet_relocMove m h))
    · split
      · exact .refl m
      · split
        · split
          · next h => exact quiet_place m h
          · exact quiet_entWaits m _ _
        · split
          · exact .refl m
          · exact (ih _).after (still_enterOther m _ _ _ _).toQuiet

theorem quiet_placeNew {v e r : Nat} {y : Placed} (h : m.placeNew c v e r = y) : Quiet m y.mach := h ▸ quiet_placeRun m c _ _ _ _ _

end Placing

end Sys2Proof.Machine

namespace Sys2Proof.Machine

/-! Deletion (R318, R320, R371). -/

section Deletion

variable (m : Mach) (c : ModeCtl)

theorem Held.way {m n : Mach} (h : Held m n) (k : Nat) : n.way k = m.way k := by
  simp only [Mach.way, h.eddy]

/-- What a deletion does besides clearing its slot and telling the partner. -/
theorem still_delCounts (v r why : Nat) (final : Bool) : Still m (m.delNotes c v r why false final) := by
  unfold Mach.delNotes
  simp only [Bool.false_and, Bool.false_eq_true, if_false]
  refine (still_wr _ _ _ (by decide)).after ((still_bump _ _ _ (by decide)).after ((still_setPair _ _ _).after
    ((still_tenCount _ _ _).after ((still_epActive _ _ _).after ?_))))
  exact ite_keeps (still_flFlow m c _ _ _ _ _) (.refl m)

theorem delNotes_eq (v r why : Nat) (partner final : Bool) (by_ : Option (Nat × Nat)) :
    m.delNotes c v r why partner final by_ =
      if partner && rPaired r then (m.delNotes c v r why false final).postPairDelete v r true by_ else m.delNotes c v r why false final := by
  simp [Mach.delNotes]

theorem held_delNotes (v r why : Nat) (partner final : Bool) (by_ : Option (Nat × Nat)) : Held m (m.delNotes c v r why partner final by_) := by
  rw [delNotes_eq]
  exact ite_keeps ((still_delCounts m c v r why final).toHeld.trans (held_postBy _ _ _ _ _)) (still_delCounts m c v r why final).toHeld

theorem quiet_delRec {v k : Nat} {w : Way} {why : Nat} {partner final : Bool} {by_ : Option (Nat × Nat)} (h : (partner && rPaired w.rec_) = false) :
    Quiet m (m.delRec c v k w why partner final by_) := by
  rw [Mach.delRec, delNotes_eq, h]
  exact (still_delCounts _ c _ _ _ _).toQuiet.after (quiet_setRec m _ _ _)

/-- The way of a deleted record holds an empty one, to be written back. -/
theorem way_delRec (v k : Nat) (w : Way) (why : Nat) (partner final : Bool) (by_ : Option (Nat × Nat)) :
    ∃ u, (m.delRec c v k w why partner final by_).way k = some u ∧ u.rec_ = 0 := by
  rw [Mach.delRec, (held_delNotes _ c _ _ _ _ _ _).way]
  exact way_setRec m k w 0

theorem way_ageOut (v k : Nat) (w : Way) (why : Nat) (by_ : Option (Nat × Nat)) : ∃ u, (m.ageOut c v k w why by_).way k = some u ∧ u.rec_ = 0 :=
  way_delRec m c _ _ _ _ _ _ _

theorem quiet_ageOut {v k : Nat} {w : Way} {why : Nat} {by_ : Option (Nat × Nat)} (h : rPaired w.rec_ = false) : Quiet m (m.ageOut c v k w why by_) :=
  (quiet_bump _ _ _ _).after (quiet_delRec m c (by simp [h]))

/-- An event that deletes a record leaves its way empty as it ends. -/
theorem way_recDone_of {n : Mach} {k' : Nat} (h : ∃ u, n.way k' = some u ∧ u.rec_ = 0) (v k e kind steps r outcome why : Nat) :
    ∃ u, (n.recDone c v k e kind steps none r outcome why).way k' = some u ∧ u.rec_ = 0 := by
  rwa [(held_recDone c n _ _ _ _ _ _ _ _).way]

end Deletion

/-! CREATE (R308 to R317, R350). -/

section Create

variable {m : Mach} {c : ModeCtl} {v k e : Nat} {cx : Ctx} {x : Ift}

/-- A destination that is no backend group takes no member. -/
theorem backend_none {d : Nat} (h : d / 2 ^ 28 ≠ 5) (hash : Nat) : m.backend d hash = (.none, 0) := by
  rw [Mach.backend, if_pos h]

/-- A backend destination whose entry is no group is invalid. -/
theorem backend_invalid {d : Nat} (h : d / 2 ^ 28 = 5) (g : m.entF O.epTable 0 (d % 2 ^ 24) 0 1 ≠ 1) (hash : Nat) : m.backend d hash = (.invalid, 0) := by
  rw [Mach.backend, if_neg (not_not_intro h)]
  exact if_pos g

/-- The pool that a CREATE in its turn takes its port from: once asked, the one it asked. -/
def Mach.createPool (m : Mach) (cx : Ctx) (x : Ift) : Pick := if cx.asked then .got (fld 32 x.cls 4 3) else m.poolOf x.cls

theorem createEv_invalid (t : m.turn v k 1 = .head cx e x) {n : Nat} (b : m.backend (fld 16 (x.result.getD 0) 4 4) x.hash = (.invalid, n)) :
    m.createEv c v k = (m.bump O.bsnEndpointInvalid v).createFails c v k e x 0x20 (24 + (n - 8 + 7) / 8) := by
  simp only [Mach.createEv, t, b]

/-- A CREATE whose class has no pool and whose destination is no backend group places its record plain. -/
theorem createEv_plain (t : m.turn v k 1 = .head cx e x) (h : fld 16 (x.result.getD 0) 4 4 / 2 ^ 28 ≠ 5) (p : m.createPool cx x = .none) :
    m.createEv c v k = m.createPlace c v k e x (m.newRec x) none 24 := by
  unfold Mach.createPool at p
  simp only [Mach.createEv, t, backend_none h, p]

/-- A CREATE whose member is not to be translated to pins its record to it (R311). -/
theorem createEv_pinned (t : m.turn v k 1 = .head cx e x) {i n : Nat} (b : m.backend (fld 16 (x.result.getD 0) 4 4) x.hash = (.got i, n))
    (p : m.createPool cx x = .none) (h : bit (m.entF O.epTable 0 (fld 16 (x.result.getD 0) 4 4 % 2 ^ 24) 1 1) 0 = false) :
    m.createEv c v k = m.createPlace c v k e x (m.withPin (m.newRec x) i) (some i) (24 + (n - 8 + 7) / 8) := by
  unfold Mach.createPool at p
  simp only [Mach.createEv, t, b, p, h, Bool.false_eq_true, if_false]

section Pool

@[simp] theorem poolHome_setCtx (m : Mach) (v k i : Nat) (y : Option Ctx) : (m.setCtx v k y).poolHome i = m.poolHome i := rfl

variable {i : Nat} (t : m.turn v k 1 = .head cx e x) (h : fld 16 (x.result.getD 0) 4 4 / 2 ^ 28 ≠ 5) (p : m.createPool cx x = .got i)

include t h p

/-- A CREATE whose key cannot be translated takes no port of its pool (R315). -/
theorem createEv_skips (a : cx.asked = false) (g : m.canXlate x.key (m.entF O.epTable 0 i 4 16) = false) :
    m.createEv c v k = m.createPlace c v k e x (m.newRec x) none 24 true := by
  unfold Mach.createPool at p
  simp only [Mach.createEv, t, backend_none h, p]
  simp [a, g]

theorem createEv_asks (a : cx.asked = false) (g : m.canXlate x.key (m.entF O.epTable 0 i 4 16) = true) :
    m.createEv c v k = (m.setCtx v k (some { cx with asked := true })).postEv v (m.poolHome i)
      (mkEv 5 0 v (domPool i) (i * 2 ^ 40 + v * 2 ^ 36 + k * 2 ^ 28) 0 0) := by
  unfold Mach.createPool at p
  simp only [Mach.createEv, t, backend_none h, p]
  simp [a, g]

theorem createEv_waits (a : cx.asked = true) (r : cx.reply = none) : m.createEv c v k = m := by
  unfold Mach.createPool at p
  simp only [Mach.createEv, t, backend_none h, p]
  simp [a, r]

theorem createEv_noPort (a : cx.asked = true) {why : Nat} (r : cx.reply = some (.inr why)) : m.createEv c v k = m.createFails c v k e x why 24 := by
  unfold Mach.createPool at p
  simp only [Mach.createEv, t, backend_none h, p]
  simp [a, r]

theorem createEv_port (a : cx.asked = true) {port : Nat} (r : cx.reply = some (.inl port)) :
    m.createEv c v k = m.createPlace c v k e x (withXlate (rset (m.newRec x) 90 3 i) 1 (m.entF O.epTable 0 i 4 16) port) none 24 := by
  unfold Mach.createPool at p
  simp only [Mach.createEv, t, backend_none h, p]
  simp [a, r]

end Pool

section Place

variable {r r' ver steps : Nat} {pin : Option Nat} (hr : m.passRecord x r (filterDrops r 0 (bit (fld 64 x.q 58 1) 6) (fld 64 x.q 59 1)) 0x40 = (r', ver))

include hr

theorem createPlace_wait {z : Mach} (p : m.placeNew c v e r' = .wait z) : m.createPlace c v k e x r pin steps = z := by
  simp only [Mach.createPlace, hr, p]

/-- A record without a pair that the table has no room for is refused (R283, R350). -/
theorem createPlace_full {z : Mach} (p : m.placeNew c v e r' = .full z) (u : rPaired r' = false) :
    m.createPlace c v k e x r pin steps = (z.bump O.bsnTableFull v).createFails c v k e x 0x33 steps := by
  simp only [Mach.createPlace, hr, p, rPoolPort, u]
  rfl

/-- A record without a pair that is placed: what follows its making (R309, R313). -/
theorem createPlace_at {g : Nat} {z : Mach} (p : m.placeNew c v e r' = .at_ g z) (u : rPaired r' = false) :
    m.createPlace c v k e x r none steps =
      (((((z.recMade c v r').pendDone v x.key).epUsed [rf r' 90 3]).freed).sendVerdict v x ver).recDone c v k e 1
        (steps + 3 * (((z.recMade c v r').pendDone v x.key).epUsed [rf r' 90 3]).movesOf v e) (some x.key) r' 0
        ((((z.recMade c v r').pendDone v x.key).epUsed [rf r' 90 3]).freeVal 8) := by
  simp only [Mach.createPlace, hr, p, Mach.newPair, u]
  rfl

end Place

end Create

end Sys2Proof.Machine

namespace Sys2Proof.Machine

/-! LINK-CREATE, PAIR-NOTE and PAIR-DELETE (R308, R313, R314, R371 to R373). -/

section Pairs

variable {m : Mach} {c : ModeCtl} {v k e : Nat} {cx : Ctx} {x : Ift}

/-- A link that cannot be made is told by a post, for which its context waits. -/
theorem ctx_linkFail (h : m.ctx v k = some cx) (w : Nat) (ev : Ev) :
    (m.linkFail w ev (byCtx v k)).ctx v k = some { cx with posts := cx.posts + 1 } :=
  ctx_postBy _ (show ({ m with dp.linkFails := rKey ev.sender :: m.dp.linkFails } : Mach).ctx v k = some cx from h) _ _ _

/-- A link whose basin does not run, or whose record is there, undoes its pair (R313). -/
theorem linkEv_fails (t : m.turn v k 2 = .head cx e x)
    (h : m.running .basin v = false ∨ ∃ w y, m.wayByKey v x.hash x.key = some (w, y) ∧ m.expired y.rec_ = none) :
    m.linkEv c v k = (m.linkFail v cx.ev (byCtx v k)).recDone c v k e 2 8 none 0 2 0 := by
  simp only [Mach.linkEv, t]
  rcases h with h | ⟨w, y, hw, hy⟩
  · simp [h]
  · simp [hw, hy]

section Absent

variable (t : m.turn v k 2 = .head cx e x) (h : m.running .basin v = true) (g : m.wayByKey v x.hash x.key = none) (f : m.findRec (rKey cx.ev.sender) = none)

include t h g f

theorem linkEv_wait {z : Mach} (p : m.placeNew c v e (m.linkRec cx.ev.sender) = .wait z) : m.linkEv c v k = z := by
  simp [Mach.linkEv, t, h, g, f, p]

theorem linkEv_full {z : Mach} (p : m.placeNew c v e (m.linkRec cx.ev.sender) = .full z) :
    m.linkEv c v k = ((z.bump O.bsnTableFull v).linkFail v cx.ev (byCtx v k)).recDone c v k e 2 8 none 0 2 0 := by
  simp [Mach.linkEv, t, h, g, f, p]

theorem linkEv_at {i : Nat} {z : Mach} (p : m.placeNew c v e (m.linkRec cx.ev.sender) = .at_ i z) :
    m.linkEv c v k = ((z.recMade c v (m.linkRec cx.ev.sender)).setPair x.key cx.ev.pair).freed.recDone c v k e 2 8 (some x.key) (m.linkRec cx.ev.sender) 0
      (z.freeVal 8) := by
  simp [Mach.linkEv, t, h, g, f, p]

end Absent

/-- A PAIR-NOTE has no effect where its record is absent, names another sender or is of another pair (R373, Table 10.2). -/
theorem pairNoteEv_void (t : m.turn v k 3 = .head cx e x)
    (h : m.wayByKey v x.hash x.key = none ∨ (∃ w y, m.wayByKey v x.hash x.key = some (w, y) ∧ m.namesSender y.rec_ cx.ev = false) ∨ m.pairOf x.key ≠ cx.ev.pair) :
    m.pairNoteEv c v k = (m.bump O.pairNoteVoid v).recDone c v k e 3 4 none 0 1 0 := by
  simp only [Mach.pairNoteEv, t]
  rcases h with h | ⟨w, y, hw, hy⟩ | h
  · simp [h]
  · simp [hw, hy]
  · split
    · rfl
    · simp [h]

theorem pairNoteEv_copies (t : m.turn v k 3 = .head cx e x) {w : Nat} {y : Way} {u : Nat} (h : m.wayByKey v x.hash x.key = some (w, y))
    (g : m.namesSender y.rec_ cx.ev = true) (p : m.pairOf x.key = cx.ev.pair)
    (hu : u = rChange y.rec_ (rsetBits (rsetBits y.rec_ 50 5 4 (cx.ev.arg / 2 ^ 62)) 50 3 3 (cx.ev.arg / 2 ^ 61 % 2))) :
    m.pairNoteEv c v k = (m.setRec w y u).recDone c v k e 3 4 (some x.key) u 0 0 := by
  simp only [Mach.pairNoteEv, t, h]
  rw [if_neg (by simp [g, p]), hu]

theorem ctx_pairNoteEv (t : m.turn v k 3 = .head cx e x) (p : cx.posts = 0) : (m.pairNoteEv c v k).ctx v k = none := by
  simp only [Mach.pairNoteEv, t]
  split
  · exact ctx_recDone c (quiet_bump m _ _ _) (ctx_of_turn t) p _ _ _ _ _ _ _
  · split
    · exact ctx_recDone c (quiet_bump m _ _ _) (ctx_of_turn t) p _ _ _ _ _ _ _
    · exact ctx_recDone c (quiet_setRec m _ _ _) (ctx_of_turn t) p _ _ _ _ _ _ _

/-- A PAIR-DELETE without LINK-FAILED whose record is absent (R371, R372). -/
theorem pairDeleteEv_absent (t : m.turn v k 4 = .head cx e x) (h : cx.ev.flag 3 = false) (g : m.wayByKey v x.hash x.key = none) :
    m.pairDeleteEv c v k = (m.pairAbsent v k cx.ev).recDone c v k e 4 6 none 0 1 0 := by
  simp [Mach.pairDeleteEv, t, h, g]

section Target

variable {ev : Ev}

theorem pairAbsent_void (f : ev.flag 4 = false) : m.pairAbsent v k ev = m.bump O.pairDeleteVoid v := by
  simp only [Mach.pairAbsent, f, Bool.not_false, if_true]

theorem linkFailed_eq (h : ev.flag 3 = false) : m.linkFailed ev = m.dp.linkFails.contains (rKey ev.sender) := by
  simp only [Mach.linkFailed, h, Bool.not_false, Bool.true_and]

/-- The port of a link that could not be made has been released by LINK-FAILED (R372, log entry 144). -/
theorem pairAbsent_failed (f : ev.flag 4 = true) (h : ev.flag 3 = false) (q : m.dp.linkFails.contains (rKey ev.sender) = true) :
    m.pairAbsent v k ev = { m with dp.linkFails := m.dp.linkFails.erase (rKey ev.sender) } := by
  rw [Mach.pairAbsent, if_neg (by simp [f]), if_pos (by rw [linkFailed_eq h, q])]

theorem pairAbsent_releases (f : ev.flag 4 = true) (h : ev.flag 3 = false) (q : m.dp.linkFails.contains (rKey ev.sender) = false)
    (a : fld 8 ev.arg 0 3 ≠ 0xFFFFFF) : m.pairAbsent v k ev = m.postRelease v k (fld 8 ev.arg 0 3) (fld 8 ev.arg 3 2) := by
  rw [Mach.pairAbsent, if_neg (by simp [f]), if_neg (by simp only [linkFailed_eq h, q, Bool.false_eq_true, not_false_iff]), Mach.pairRelease, if_neg a]

end Target

/-- A PAIR-DELETE without LINK-FAILED or port whose record names its sender deletes it. -/
theorem pairDeleteEv_deletes (t : m.turn v k 4 = .head cx e x) (h : cx.ev.flag 3 = false) {w : Nat} {y : Way} (g : m.wayByKey v x.hash x.key = some (w, y))
    (q : m.namesSender y.rec_ cx.ev = true) (a : fld 8 cx.ev.arg 0 3 = 0xFFFFFF) :
    m.pairDeleteEv c v k = (m.delRec c v w y 4 false true).recDone c v k e 4 6 none y.rec_ 0 4 := by
  simp [Mach.pairDeleteEv, t, h, g, q, Mach.pairRelease, a]

end Pairs

/-- Settles O48: each kind of record event, by what its turn is and what it finds at the head of its chain. -/
theorem recordsCreated : Obligations.RecordsCreated := by
  unfold Obligations.RecordsCreated
  refine ⟨fun s b k l => completes_run l (exec_create s b k) ⟨fun t => ?_, fun t => ?_, fun cx e x d p t hd hp => ?_⟩,
    fun s b k l => completes_run l (exec_linkCreate s b k) ⟨fun t => ?_, fun t => ?_, fun cx e x t => ?_⟩,
    fun s b k l => completes_run l (exec_pairNote s b k) ⟨fun t => ?_, fun t => ?_, fun cx e x t => ⟨ctx_pairNoteEv t, pairNoteEv_void t, ?_⟩⟩,
    fun s b k l => completes_run l (exec_pairDelete s b k) ⟨fun t => ?_, fun t => ?_, fun cx e x t h => ?_⟩⟩
  · simp only [Mach.createEv, t]
  · simp only [Mach.createEv, t]
  · have hx := ctx_of_turn t
    subst hd
    change p = s.m.createPool cx x at hp
    subst hp
    refine ⟨fun hd g => ?_, fun hd hp r ver hr => ⟨fun z p => ?_, fun z p u => ?_, fun g z y p u hy => ?_⟩,
      fun i hd hp => ⟨createEv_asks t hd hp, createEv_waits t hd hp, fun why a => createEv_noPort t hd hp a, fun port a => createEv_port t hd hp a⟩,
      fun i hd hp => createEv_skips t hd hp, fun i n hb hp => createEv_pinned t hb hp⟩
    · rw [createEv_invalid t (backend_invalid hd g _)]
      exact ⟨rfl, fun h => ctx_createFails _ (quiet_bump _ _ _ _) hx h _ _ _⟩
    · rw [createEv_plain t hd hp, createPlace_wait hr p]
    · rw [createEv_plain t hd hp, createPlace_full hr p u]
      exact ⟨rfl, fun h => ctx_createFails _ ((quiet_bump _ _ _ _).after (quiet_placeNew _ _ p)) hx h _ _ _⟩
    · subst hy
      rw [createEv_plain t hd hp, createPlace_at hr p u]
      refine ⟨rfl, fun h => ctx_recDone _ ?_ hx h _ _ _ _ _ _ _⟩
      exact (quiet_sendVerdict _ _ _ _).after ((quiet_freed _).after ((quiet_epUsed _ _).after ((quiet_pendDone _ _ _).after
        ((quiet_recMade _ _ _ _).after (quiet_placeNew _ _ p)))))
  · simp only [Mach.linkEv, t]
  · simp only [Mach.linkEv, t]
  · have hx := ctx_of_turn t
    refine ⟨fun h => ?_, fun r hb hw hf hr => ?_⟩
    · rw [linkEv_fails t h]
      exact ⟨rfl, _, ctx_ctxFinish_waits _ (ctx_linkFail hx _ _) (Nat.succ_ne_zero _) _⟩
    · subst hr
      refine ⟨fun z => linkEv_wait t hb hw hf, fun z => linkEv_full t hb hw hf, fun g z p => ?_⟩
      rw [linkEv_at t hb hw hf p]
      refine ⟨rfl, fun h => ctx_recDone _ ?_ hx h _ _ _ _ _ _ _⟩
      exact (quiet_freed _).after ((still_setPair _ _ _).toQuiet.after ((quiet_recMade _ _ _ _).after (quiet_placeNew _ _ p)))
  · simp only [Mach.pairNoteEv, t]
  · simp only [Mach.pairNoteEv, t]
  · exact fun w y u h g p => pairNoteEv_copies t h g p
  · simp only [Mach.pairDeleteEv, t]
  · simp only [Mach.pairDeleteEv, t]
  · refine ⟨fun g f => ?_, fun g f q => ?_, fun i g f q hi a => ?_, fun w y g q a => ?_⟩
    · rw [pairDeleteEv_absent t h g, pairAbsent_void f]
    · rw [pairDeleteEv_absent t h g, pairAbsent_failed f h q]
    · subst hi
      rw [pairDeleteEv_absent t h g, pairAbsent_releases f h q a]
    · rw [pairDeleteEv_deletes t h g q a]
      exact ⟨rfl, way_recDone_of _ (way_delRec _ _ _ _ _ _ _ _ _) _ _ _ _ _ _ _ _,
        fun z => ctx_recDone _ (quiet_delRec _ _ rfl) (ctx_of_turn t) z _ _ _ _ _ _ _⟩

end Sys2Proof.Machine

namespace Sys2Proof.Machine

/-! Pool ports (R368 to R370, R436) and their recount (R385). -/

section Reads

variable {m n : Mach} {o p : ObjDef} {i j : Nat}

theorem key_ne_of_sub (h : o.sub ≠ p.sub) (hs : o.sub < 256) (ht : p.sub < 256) : o.key i ≠ p.key j := fun e =>
  h (by rw [← key_sub (i := i) hs, e, key_sub ht])

/-- An object that neither the queues of HBM nor the traces count under reads as before. -/
theorem Logged.rd (h : Logged m n) (hs : o.sub = 0 ∨ 15 < o.sub) (hl : o.sub < 256) : n.rd o i = m.rd o i :=
  rd_of_key (h.objs _ (.inr (by rwa [key_sub hl])))

theorem Logged.ppool (h : Logged m n) (e : Nat) : n.ppool e = m.ppool e := by
  unfold Mach.ppool
  rw [h.dp]

end Reads

section Pool

variable (m : Mach) (c : ModeCtl)

theorem bufWrite_eq (own : Option Nat) (buf : Nat × Nat) (o : Nat) (l : List Byte) :
    ∃ x y z, m.bufWrite own buf o l = { m with dp.xbuf := x, dp.cols := y, dp.ppool := z } := by
  unfold Mach.bufWrite
  split
  · exact ⟨_, _, _, rfl⟩
  · exact ⟨_, _, _, rfl⟩

/-- A pool's allocation state replaced changes at most the buffers of records besides: where one stands in the bitmap's buffer (R433). -/
theorem setPpool_eq (e : Nat) (p : PPool) :
    ∃ x y z, m.setPpool e p = { m with dp.xbuf := x, dp.cols := y, dp.ppool := mset {} z e p } := by
  unfold Mach.setPpool
  dsimp only
  split
  · next b _ =>
    split
    · obtain ⟨x, y, z, h⟩ := bufWrite_eq { m with dp.ppool := mset {} m.dp.ppool e { p with buf := none } } none b 0 p.octets
      rw [h]
      exact ⟨_, _, _, rfl⟩
    · exact ⟨_, _, _, rfl⟩
  · exact ⟨_, _, _, rfl⟩

@[simp] theorem setPpool_com (e : Nat) (p : PPool) : (m.setPpool e p).com = m.com := by
  obtain ⟨x, y, z, h⟩ := setPpool_eq m e p
  rw [h]

@[simp] theorem setPpool_flt (e : Nat) (p : PPool) : (m.setPpool e p).flt = m.flt := by
  obtain ⟨x, y, z, h⟩ := setPpool_eq m e p
  rw [h]

@[simp] theorem setPpool_recounting (e : Nat) (p : PPool) : (m.setPpool e p).dp.recounting = m.dp.recounting := by
  obtain ⟨x, y, z, h⟩ := setPpool_eq m e p
  rw [h]

@[simp] theorem ppool_setPpool_same (e : Nat) (p : PPool) : (m.setPpool e p).ppool e = p := by
  obtain ⟨x, y, z, h⟩ := setPpool_eq m e p
  rw [h]
  exact mget_mset_same _ _ _ _

@[simp] theorem setPpool_rd (e : Nat) (p : PPool) (o : ObjDef) (i : Nat) : (m.setPpool e p).rd o i = m.rd o i := rd_of_objs (by rw [setPpool_com]) o i

theorem quiet_setPpool (e : Nat) (p : PPool) : Quiet m (m.setPpool e p) := by
  obtain ⟨x, y, z, h⟩ := setPpool_eq m e p
  rw [h]
  exact quiet_of_slu rfl

theorem logged_poolReply (ev : Ev) (r : Nat ⊕ Nat) : Logged m (m.poolReply ev r) := by
  unfold Mach.poolReply
  dsimp only
  split
  · exact ite_keeps (logged_setCtx m _ _ _) (.refl m)
  · exact .refl m

/-- A POOL-ALLOC answered, and at its end. -/
def Mach.poolAnswered (m : Mach) (c : ModeCtl) (v k : Nat) (ev : Ev) (r : Nat ⊕ Nat) (steps : Nat) : Mach := (m.poolReply ev r).ctxDone c v k steps

theorem logged_poolAnswered (v k : Nat) (ev : Ev) (r : Nat ⊕ Nat) (steps : Nat) : Logged m (m.poolAnswered c v k ev r steps) :=
  (logged_poolReply m _ _).trans (logged_ctxDone c _ _ _ _)

/-- Steps of a POOL-ALLOC that has scanned so many ports. -/
def scanSteps (scanned : Nat) : Nat := 4 + (scanned - 512 + 511) / 512

section Alloc

variable {m c} {v k e lo hi : Nat} {cx : Ctx} (hx : m.ctx v k = some cx) (hk : cx.ev.kind = 5) (he : e = cx.ev.arg / 2 ^ 40)
  (hlo : lo = m.entF O.epTable 0 e 30 2) (hhi : hi = m.entF O.epTable 0 e 32 2) (hb : (m.ppool e).buf ≠ none)

include hx hk he hlo hhi hb

/-- A POOL-ALLOC whose scan meets a poisoned line before a free port fails (R436). -/
theorem poolAllocEv_poisoned {j : Nat} (bad : ((poolScan lo hi (m.ppool e).cursor).findIdx? fun q => (m.ppool e).bad.contains (q / 512)) = some j)
    (hit : ∀ i, ((poolScan lo hi (m.ppool e).cursor).findIdx? fun q => !mget false (m.ppool e).bits q) = some i → j ≤ i) :
    m.poolAllocEv c v k =
      (((m.setPpool e (m.ppool e)).wr O.poolState 0 1).bump O.poolExhaustedCnt v).poolAnswered c v k cx.ev (.inr 0x41) (scanSteps (j + 1)) := by
  obtain ⟨b, hb⟩ := Option.ne_none_iff_exists'.mp hb
  simp only [Mach.poolAllocEv, hx, hk, ← he, ← hlo, ← hhi, hb, bad]
  cases h : (poolScan lo hi (m.ppool e).cursor).findIdx? fun q => !mget false (m.ppool e).bits q with
  | none => rfl
  | some i =>
    simp only [ne_eq, not_true_eq_false, if_false, Option.any_some, hit i h, decide_true, if_true]
    rfl

/-- A POOL-ALLOC that finds every port of its range out fails. -/
theorem poolAllocEv_exhausted (bad : ((poolScan lo hi (m.ppool e).cursor).findIdx? fun q => (m.ppool e).bad.contains (q / 512)) = none)
    (hit : ((poolScan lo hi (m.ppool e).cursor).findIdx? fun q => !mget false (m.ppool e).bits q) = none) :
    m.poolAllocEv c v k =
      ((m.setPpool e (m.ppool e)).bump O.poolExhaustedCnt v).poolAnswered c v k cx.ev (.inr 0x41)
        (scanSteps (poolScan lo hi (m.ppool e).cursor).length) := by
  obtain ⟨b, hb⟩ := Option.ne_none_iff_exists'.mp hb
  simp only [Mach.poolAllocEv, hx, hk, ← he, ← hlo, ← hhi, hb, bad, hit]
  rfl

/-- A POOL-ALLOC of a pool without poisoned lines takes the first free port that its scan meets. -/
theorem poolAllocEv_takes (bad : (m.ppool e).bad = []) {i port : Nat}
    (hit : ((poolScan lo hi (m.ppool e).cursor).findIdx? fun q => !mget false (m.ppool e).bits q) = some i)
    (hp : port = (poolScan lo hi (m.ppool e).cursor).getD i 0) :
    m.poolAllocEv c v k =
      ((m.setPpool e { m.ppool e with
        bits := mset false (m.ppool e).bits port true, count := (m.ppool e).count + 1,
        cursor := if port = hi then lo else port + 1 }).bump O.poolAllocs v).poolAnswered c v k cx.ev (.inl port) (scanSteps (i + 1)) := by
  obtain ⟨b, hb⟩ := Option.ne_none_iff_exists'.mp hb
  have none_bad : ((poolScan lo hi (m.ppool e).cursor).findIdx? fun q => (m.ppool e).bad.contains (q / 512)) = none := by
    simp [bad, List.findIdx?_eq_none_iff]
  simp only [Mach.poolAllocEv, hx, hk, ← he, ← hlo, ← hhi, hb, hit, none_bad, ← hp]
  rfl

/-- The bitmap stands as before, and the pools are poisoned (R436). -/
theorem pool_poisoned {j : Nat} (bad : ((poolScan lo hi (m.ppool e).cursor).findIdx? fun q => (m.ppool e).bad.contains (q / 512)) = some j)
    (hit : ∀ i, ((poolScan lo hi (m.ppool e).cursor).findIdx? fun q => !mget false (m.ppool e).bits q) = some i → j ≤ i) :
    ((m.poolAllocEv c v k).ppool e).bits = (m.ppool e).bits ∧ (m.poolAllocEv c v k).rd O.poolState = 1 := by
  rw [poolAllocEv_poisoned hx hk he hlo hhi hb bad hit, (logged_poolAnswered _ c v k _ _ _).ppool, (logged_poolAnswered _ c v k _ _ _).rd (by decide) (by decide),
    rd_bump_ne _ _ (key_ne_of_sub (by decide) (by decide) (by decide)), rd_wr_same]
  exact ⟨congrArg PPool.bits (ppool_setPpool_same m e _), rfl⟩

theorem pool_exhausted (hit : ((poolScan lo hi (m.ppool e).cursor).findIdx? fun q => !mget false (m.ppool e).bits q) = none) :
    ((m.poolAllocEv c v k).ppool e).bits = (m.ppool e).bits ∧
      (m.poolAllocEv c v k).rd O.poolExhaustedCnt v = (m.rd O.poolExhaustedCnt v + 1) % 2 ^ (8 * O.poolExhaustedCnt.len) := by
  cases bad : (poolScan lo hi (m.ppool e).cursor).findIdx? fun q => (m.ppool e).bad.contains (q / 512) with
  | none =>
    rw [poolAllocEv_exhausted hx hk he hlo hhi hb bad hit, (logged_poolAnswered _ c v k _ _ _).ppool,
      (logged_poolAnswered _ c v k _ _ _).rd (by decide) (by decide), rd_bump_same, setPpool_rd]
    exact ⟨congrArg PPool.bits (ppool_setPpool_same m e _), rfl⟩
  | some j =>
    rw [poolAllocEv_poisoned hx hk he hlo hhi hb bad (by simp [hit]), (logged_poolAnswered _ c v k _ _ _).ppool,
      (logged_poolAnswered _ c v k _ _ _).rd (by decide) (by decide), rd_bump_same,
      rd_wr_ne _ _ (key_ne_of_sub (by decide) (by decide) (by decide)), setPpool_rd]
    exact ⟨congrArg PPool.bits (ppool_setPpool_same m e _), rfl⟩

theorem pool_takes (bad : (m.ppool e).bad = []) {i port : Nat}
    (hit : ((poolScan lo hi (m.ppool e).cursor).findIdx? fun q => !mget false (m.ppool e).bits q) = some i)
    (hp : port = (poolScan lo hi (m.ppool e).cursor).getD i 0) :
    (m.poolAllocEv c v k).ppool e = { m.ppool e with
        bits := mset false (m.ppool e).bits port true, count := (m.ppool e).count + 1, cursor := if port = hi then lo else port + 1 } ∧
      (m.poolAllocEv c v k).rd O.poolAllocs v = (m.rd O.poolAllocs v + 1) % 2 ^ (8 * O.poolAllocs.len) := by
  rw [poolAllocEv_takes hx hk he hlo hhi hb bad hit hp, (logged_poolAnswered _ c v k _ _ _).ppool,
    (logged_poolAnswered _ c v k _ _ _).rd (by decide) (by decide), rd_bump_same, setPpool_rd]
  exact ⟨ppool_setPpool_same m e _, rfl⟩

end Alloc

/-- Every port of a range is scanned. -/
theorem mem_poolScan {lo hi port : Nat} (h : lo ≤ port) (g : port ≤ hi) (cursor : Nat) : port ∈ poolScan lo hi cursor := by
  unfold poolScan
  dsimp only
  generalize hc : (if cursor < lo ∨ hi < cursor then lo else cursor) = a
  simp only [List.mem_append, List.mem_map, List.mem_range]
  by_cases hp : a ≤ port
  · exact .inl ⟨port - a, by omega, by omega⟩
  · exact .inr ⟨port - lo, by omega, by omega⟩

section Release

variable {m c} {v k e port : Nat} {cx : Ctx} (hx : m.ctx v k = some cx) (hk : cx.ev.kind = 6) (he : e = fld 8 cx.ev.arg 0 3) (hp : port = fld 8 cx.ev.arg 3 2)

include hx hk he hp

theorem portReleaseEv_out (h : mget false (m.ppool e).bits port = true) :
    m.portReleaseEv c v k =
      ((m.setPpool e { m.ppool e with
        bits := mset false (m.ppool e).bits port false, count := (m.ppool e).count - 1 }).bump O.poolReleases v).ctxDone c v k 3 := by
  subst he hp
  simp [Mach.portReleaseEv, hx, hk, h]

/-- A release of a port that is not out changes nothing in its pool, and is reported (R370). -/
theorem portReleaseEv_fault (h : mget false (m.ppool e).bits port = false) :
    m.portReleaseEv c v k = ((m.bump O.portFreeFault v).faultAt c (256 + 2 * v) 0x0A v).ctxDone c v k 3 := by
  subst he hp
  simp [Mach.portReleaseEv, hx, hk, h]

theorem pool_released (h : mget false (m.ppool e).bits port = true) :
    (m.portReleaseEv c v k).ppool e = { m.ppool e with bits := mset false (m.ppool e).bits port false, count := (m.ppool e).count - 1 } ∧
      (m.portReleaseEv c v k).flt = m.flt := by
  rw [portReleaseEv_out hx hk he hp h, (logged_ctxDone c _ v k 3).ppool, (logged_ctxDone c _ v k 3).flt]
  exact ⟨ppool_setPpool_same m e _, setPpool_flt m e _⟩

theorem release_faults (hv : v < 16) (h : mget false (m.ppool e).bits port = false) :
    (m.portReleaseEv c v k).dp.ppool = m.dp.ppool ∧
      (m.portReleaseEv c v k).rd O.portFreeFault v = (m.rd O.portFreeFault v + 1) % 2 ^ (8 * O.portFreeFault.len) ∧
      AppendsFault m (m.portReleaseEv c v k) (256 + 2 * v) 0x0A v := by
  obtain ⟨⟨short, full⟩, f⟩ := faultAt_spec (m.bump O.portFreeFault v) c (256 + 2 * v) 0x0A v
  have l := logged_ctxDone c ((m.bump O.portFreeFault v).faultAt c (256 + 2 * v) 0x0A v) v k 3
  have area : O.portFreeFault.key v / 16777216 = 0x70 := by
    simp only [ObjDef.key, O.portFreeFault, Nat.shiftLeft_eq]
    omega
  rw [portReleaseEv_fault hx hk he hp h]
  refine ⟨?_, ?_, fun q => ?_, fun q => ?_⟩
  · rw [l.dp, f.dp, bump_dp]
  · rw [l.rd (by decide) (by decide), ← rd_bump_same]
    exact rd_of_key (f.objs _ ⟨by omega, by omega, by omega⟩ (by omega))
  · rw [l.flt]
    exact short q
  · rw [l.flt, l.rd (by decide) (by decide)]
    exact full q

/-- A port given back is found again by a scan of a range that it lies in. -/
theorem scan_released (h : mget false (m.ppool e).bits port = true) {lo hi : Nat} (hl : lo ≤ port) (hh : port ≤ hi) :
    ∃ i, ((poolScan lo hi ((m.portReleaseEv c v k).ppool e).cursor).findIdx? fun q => !mget false ((m.portReleaseEv c v k).ppool e).bits q) = some i := by
  rw [(pool_released hx hk he hp h).1, ← Option.isSome_iff_exists, List.findIdx?_isSome, List.any_eq_true]
  exact ⟨port, mem_poolScan hl hh _, by simp⟩

theorem ctx_portReleaseEv (h : cx.posts = 0) : (m.portReleaseEv c v k).ctx v k = none := by
  cases g : mget false (m.ppool e).bits port with
  | true =>
    rw [portReleaseEv_out hx hk he hp g]
    exact ctx_ctxFinish c ((quiet_bump _ _ _ _).after (quiet_setPpool m _ _)) hx h _
  | false =>
    rw [portReleaseEv_fault hx hk he hp g]
    exact ctx_ctxFinish c ((still_faultAt _ c _ _ _).toQuiet.after (quiet_bump m _ _ _)) hx h _

end Release

theorem recounting_foldl {α : Type} {f : Mach → α → Mach} (h : ∀ m x, (f m x).dp.recounting = m.dp.recounting) (l : List α) :
    ∀ m : Mach, (l.foldl f m).dp.recounting = m.dp.recounting := by
  induction l with
  | nil => exact fun _ => rfl
  | cons x l ih => exact fun m => (ih _).trans (h m x)

/-- A recount ends with the pools good (R385). -/
theorem poolRecountDone_good (h : m.dp.recounting = true) : m.poolRecountDone.poolStateV = 0 ∧ m.poolRecountDone.dp.recounting = false := by
  have done : m.poolRecountDone.dp.recounting = false := by
    unfold Mach.poolRecountDone
    rw [if_neg (by simp [h])]
    dsimp only
    rw [wr_dp, recounting_foldl fun m x => setPpool_recounting m _ _]
  have good : m.poolRecountDone.rd O.poolState 0 = 0 := by
    unfold Mach.poolRecountDone
    rw [if_neg (by simp [h])]
    exact rd_wr_same _ _ _ _
  refine ⟨?_, done⟩
  simp [Mach.poolStateV, done, good]

end Pool

end Sys2Proof.Machine

namespace Sys2Proof.Machine

/-! AGE, EXPORT and SWEEP (R343, R375, R377). -/

section Age

variable {m : Mach} {c : ModeCtl} {v k e : Nat} {cx : Ctx} {x : Ift} (t : m.turn v k 7 = .head cx e x)

include t

/-- An AGE has no effect where its record is absent or no longer expired. -/
theorem ageEv_void (h : m.wayByKey v x.hash x.key = none ∨ ∃ w y, m.wayByKey v x.hash x.key = some (w, y) ∧ m.expired y.rec_ = none) :
    m.ageEv c v k = (m.bump O.ageVoid v).recDone c v k e 7 10 none 0 1 0 := by
  simp only [Mach.ageEv, t]
  rcases h with h | ⟨w, y, hw, hy⟩
  · simp only [h]
  · simp only [hw, hy]

theorem ageEv_deletes {w why : Nat} {y : Way} (h : m.wayByKey v x.hash x.key = some (w, y)) (g : m.expired y.rec_ = some why) :
    m.ageEv c v k = (m.ageOut c v w y why (byCtx v k)).recDone c v k e 7 10 none y.rec_ 0 why := by
  simp only [Mach.ageEv, t, h, g]

end Age

section Export

variable {m : Mach} {c : ModeCtl} {v k : Nat} {cx : Ctx} (hx : m.ctx v k = some cx) (hk : cx.ev.kind = 8)

include hx hk

theorem exportEv_refusal (h : fld 8 cx.ev.arg 0 1 = 1) :
    m.exportEv c v k = (m.flRefusal c v cx.ev.body (fld 8 cx.ev.arg 1 1)).ctxFinish c v k ⟨none, 8, 4, none, 0, 0, 2⟩ := by
  simp [Mach.exportEv, hx, hk, h]

theorem exportEv_absent (h : fld 8 cx.ev.arg 0 1 ≠ 1) (f : m.findRec cx.ev.body = none) :
    m.exportEv c v k = m.ctxFinish c v k ⟨none, 8, 4, none, 0, 1, 2⟩ := by
  simp [Mach.exportEv, hx, hk, h, f]

section Found

variable {g r : Nat} (h : fld 8 cx.ev.arg 0 1 ≠ 1) (f : m.findRec cx.ev.body = some (g, r))

include h f

/-- An EXPORT whose record is in the eddy, or whose epilogue writes none (R292). -/
theorem exportEv_active (p : m.epiSets v 8 = false ∨ (m.wayBySlot g).isSome = true) :
    m.exportEv c v k = (m.flFlow c v (m.rd O.flFlowTemplate) r 2 true).ctxFinish c v k ⟨none, 8, 4, some cx.ev.body, r, 0, 2⟩ := by
  have q : (m.epiSets v 8 && (m.wayBySlot g).isNone) = false := by
    rcases p with p | p
    · simp [p]
    · simp [p]
  simp [Mach.exportEv, hx, hk, h, f, q]

theorem exportEv_places (s : m.epiSets v 8 = true) (w : m.wayBySlot g = none) {z : Mach} (p : m.place v g (m.hOf cx.ev.body) r false = some z) :
    m.exportEv c v k = (z.flFlow c v (z.rd O.flFlowTemplate) r 2 true).ctxFinish c v k ⟨none, 8, 4, some cx.ev.body, r, 0, 2⟩ := by
  simp [Mach.exportEv, hx, hk, h, f, s, w, p]

/-- An EXPORT waits for a way (R293). -/
theorem exportEv_waits (s : m.epiSets v 8 = true) (w : m.wayBySlot g = none) (p : m.place v g (m.hOf cx.ev.body) r false = none) : m.exportEv c v k = m := by
  simp [Mach.exportEv, hx, hk, h, f, s, w, p]

end Found

theorem ctx_exportEv (s : m.epiSets v 8 = false) (p : cx.posts = 0) : (m.exportEv c v k).ctx v k = none := by
  by_cases h : fld 8 cx.ev.arg 0 1 = 1
  · rw [exportEv_refusal hx hk h]
    exact ctx_ctxFinish c (still_flRefusal m c _ _ _).toQuiet hx p _
  · cases f : m.findRec cx.ev.body with
    | none =>
      rw [exportEv_absent hx hk h f]
      exact ctx_ctxFinish c (.refl m) hx p _
    | some y =>
      rw [exportEv_active hx hk h f (.inl s)]
      exact ctx_ctxFinish c (still_flFlow m c _ _ _ _ _).toQuiet hx p _

end Export

section Sweep

variable (m : Mach) (c : ModeCtl)

theorem quiet_sweepStatic (v k g r : Nat) : Quiet m (m.sweepStatic c v k g r).2 := by
  unfold Mach.sweepStatic
  extract_lets op go
  have kept : ∀ (m : Mach) (e : Nat) (x : Ift), Quiet m (go m e x).2 := by
    intro m e x
    unfold go
    dsimp only
    split
    · exact .refl m
    · split
      · exact (still_freeIft _ _ _ _).toQuiet.after (quiet_setRec m _ _ _)
      · split
        · next h => exact (still_freeIft _ _ _ _).toQuiet.after (quiet_place m h)
        · exact quiet_wayWaits m _ _ _
  clear_value go
  split
  · split
    · exact kept m _ _
    · exact (still_freeIft m _ _ _).toQuiet
  · split
    · exact .refl m
    · have entered := still_enterOther m c v op (rKey r)
      split
      · next h =>
        rw [h] at entered
        split
        · exact (kept _ _ _).after entered.toQuiet
        · exact entered.toQuiet
      · next h =>
        rw [h] at entered
        exact entered.toQuiet

theorem quiet_sweepSlot (v k g : Nat) : Quiet m (m.sweepSlot c v k g).2 := by
  unfold Mach.sweepSlot
  extract_lets r s n told
  have kept : ∀ m, Quiet m (told m) := fun m => ite_keeps (still_postEv m _ _ _).toQuiet (.refl m)
  clear_value told
  split
  · exact .refl m
  · split
    · split
      · exact .refl m
      · exact (still_postEv m _ _ _).toQuiet
    · split
      · have visited := quiet_sweepStatic m c v k g r
        split
        · next h =>
          rw [h] at visited
          exact (kept _).after visited
        · next h =>
          rw [h] at visited
          exact visited
      · exact kept m

theorem quiet_sweepRun (v k b first count pos f : Nat) : Quiet m (m.sweepRun c v k b first count pos f).2 := by
  induction f generalizing m pos with
  | zero => exact .refl m
  | succ f ih =>
    unfold Mach.sweepRun
    split
    · exact .refl m
    · have visited := quiet_sweepSlot m c v k (slotKey b (4 * first + pos))
      split
      · next h =>
        rw [h] at visited
        exact (ih _ _).after visited
      · next h =>
        rw [h] at visited
        exact visited

theorem quiet_recount (b : Nat) : Quiet m (m.recount b) := by
  unfold Mach.recount
  refine (Quiet.foldl (fun m _ => quiet_bumpF m _ _ _ _ _ _) _ _).after ((quiet_wr _ _ _ _).after ?_)
  exact Quiet.foldl (fun m _ => ite_keeps (.refl m) (quiet_setEnt m _ _ _ _)) _ _

theorem quiet_passDone (v : Nat) : Quiet m (m.passDone v) := by
  unfold Mach.passDone
  refine (Quiet.foldl (fun m _ => ite_keeps ?_ (.refl m)) _ _).after (quiet_setSlu m (by rfl))
  exact (quiet_wr _ _ _ _).after ((quiet_recount _ _).after (still_setBasin m _ _).toQuiet)

theorem sweepDue_setCtx (v k : Nat) (x : Option Ctx) : ((m.setCtx v k x).slu v).sweepDue = (m.slu v).sweepDue := by simp [Mach.setCtx]

theorem sweepDue_ctxFree1 (v k steps : Nat) : ((m.ctxFree1 v k steps).slu v).sweepDue = (m.slu v).sweepDue := by
  unfold Mach.ctxFree1
  split
  · rfl
  · exact (((queues_trc _ _ _ _ _ _).after (queues_bump _ _ _ (by decide))).toQuiet.sweepDue v).trans (sweepDue_setCtx m v k none)

/-- A context's end makes no SWEEP due. -/
theorem sweepDue_ctxDone (v k steps : Nat) : ((m.ctxDone c v k steps).slu v).sweepDue = (m.slu v).sweepDue := by
  unfold Mach.ctxDone Mach.ctxFinish
  split
  · rfl
  · split
    · exact sweepDue_ctxFree1 m v k steps
    · exact sweepDue_setCtx m v k _

theorem ctx_setSlu {v : Nat} {x : Slu} (h : x.ctxs = (m.slu v).ctxs) (k : Nat) : (m.setSlu v x).ctx v k = m.ctx v k := by
  simp [Mach.ctx, h]

variable {m c} {v k : Nat} {cx : Ctx} (hx : m.ctx v k = some cx) (hk : cx.ev.kind = 9)

include hx hk

/-- A SWEEP that has visited its buckets ends, and none is outstanding unless one was due. -/
theorem sweepEv_done {n : Nat} {z : Mach} (hn : n = cx.ev.arg / 2 ^ 16 % 2 ^ 16)
    (r : m.sweepRun c v k cx.ev.sender (cx.ev.arg / 2 ^ 32) n cx.ev.pos (4 * n + 1) = (none, z)) (d : (z.slu v).sweepDue = false) :
    (cx.posts = 0 → (m.sweepEv c v k).ctx v k = none) ∧ ((m.sweepEv c v k).slu v).sweepOut = false := by
  subst hn
  have q : Quiet m z := by
    have h := quiet_sweepRun m c v k cx.ev.sender (cx.ev.arg / 2 ^ 32) (cx.ev.arg / 2 ^ 16 % 2 ^ 16) cx.ev.pos (4 * (cx.ev.arg / 2 ^ 16 % 2 ^ 16) + 1)
    rwa [r] at h
  have dropped : Quiet m (z.dropMoves c v k) := (still_dropMoves z c v k).toQuiet.after q
  have due : (((z.dropMoves c v k).ctxDone c v k 72).slu v).sweepDue = false := by
    rw [sweepDue_ctxDone, (still_dropMoves z c v k).sweepDue, d]
  have ends : cx.posts = 0 → ((z.dropMoves c v k).ctxDone c v k 72).ctx v k = none := fun p => ctx_ctxFinish c dropped hx p _
  simp only [Mach.sweepEv, hx, hk, r, due, ne_eq, not_true_eq_false, if_false, Bool.false_eq_true]
  generalize (z.dropMoves c v k).ctxDone c v k 72 = w at ends
  have passed : ∀ (y : Mach) (q : Prop) [Decidable q], Quiet y (if q then y.passDone v else y) := fun y _ _ => ite_keeps (quiet_passDone y v) (.refl y)
  refine ⟨fun p => ?_, ?_⟩
  · rw [(passed _ _).ctx, ctx_setSlu w (by rfl), ends p]
  · rw [(passed _ _).sweepOut, slu_setSlu_same]

section Waits

variable {n pos : Nat} {full : Bool} {z : Mach} (hn : n = cx.ev.arg / 2 ^ 16 % 2 ^ 16)
  (r : m.sweepRun c v k cx.ev.sender (cx.ev.arg / 2 ^ 32) n cx.ev.pos (4 * n + 1) = (some (pos, full), z))

include hn r

theorem sweepEv_waits : m.sweepEv c v k =
    if !full || (cx.ev.waited && decide (pos = cx.ev.pos)) then z.setCtx v k (some { cx with ev := { cx.ev with pos := pos, waited := full } })
    else (z.setCtx v k (some { cx with ev := { cx.ev with pos := pos, waited := full } })).bump O.sweepStalls v := by
  subst hn
  simp only [Mach.sweepEv, hx, hk, r, ne_eq, not_true_eq_false, if_false]

/-- A SWEEP that waits keeps its place. -/
theorem ctx_sweepEv_waits : (m.sweepEv c v k).ctx v k = some { cx with ev := { cx.ev with pos := pos, waited := full } } := by
  rw [sweepEv_waits hx hk hn r]
  split
  · exact ctx_setCtx_same _ _ _ _
  · rw [(quiet_bump _ _ _ _).ctx, ctx_setCtx_same]

/-- A SWEEP that meets a full AGE list at a place where it did not wait before is counted as stalled (R375). -/
theorem sweepEv_stalls (hf : full = true) (h : cx.ev.waited = false ∨ pos ≠ cx.ev.pos) :
    (m.sweepEv c v k).rd O.sweepStalls v = (z.rd O.sweepStalls v + 1) % 2 ^ (8 * O.sweepStalls.len) := by
  have first : (!full || (cx.ev.waited && decide (pos = cx.ev.pos))) = false := by
    rcases h with h | h <;> simp [hf, h]
  rw [sweepEv_waits hx hk hn r, first]
  exact rd_bump_same _ _ _ _

theorem sweepEv_chained (hf : full = false) : (m.sweepEv c v k).rd O.sweepStalls v = z.rd O.sweepStalls v := by
  rw [sweepEv_waits hx hk hn r, hf]
  rfl

end Waits

end Sweep

end Sys2Proof.Machine

namespace Sys2Proof.Machine

/-! SPLIT and the growth of the table (R284, R286, R338). -/

section Writes

variable (m : Mach)

theorem queues_pcLeave (x : HReq) (k : Nat) : Queues m (m.pcLeave x k) := by
  unfold Mach.pcLeave
  dsimp only
  split
  · exact (queues_pcEnter _ _ _).after (queues_setPc m _ _)
  · exact .refl m

theorem queues_pcAdmitN (p n : Nat) : Queues m (m.pcAdmitN p n) := by
  induction n generalizing m with
  | zero => exact .refl m
  | succ n ih =>
    unfold Mach.pcAdmitN
    split
    · exact (ih _).after (Queues.foldl (fun m _ => queues_pcLeave m _ _) _ _)
    · exact .refl m

theorem queues_emptyNote (p : Nat) : Queues m (m.emptyNote p) := by
  unfold Mach.emptyNote
  exact ite_keeps (queues_setHchan m _ _) (.refl m)

theorem quiet_dropWrites (f : Nat → Bool) : Quiet m (m.dropWrites f) := by
  unfold Mach.dropWrites
  exact (Queues.foldl (fun m _ => (queues_emptyNote _ _).after (queues_pcAdmitN m _ _)) _ _).toQuiet.after (quiet_of_slu rfl)

theorem quiet_emptySlot (g : Nat) : Quiet m (m.emptySlot g) := by
  unfold Mach.emptySlot
  extract_lets n
  have h : Quiet m n := by
    unfold n
    split
    · exact quiet_setWay m _ _
    · exact .refl m
  clear_value n
  exact ((quiet_dropWrites n _).after h).trans (quiet_of_slu rfl)

end Writes

section Split

variable (m : Mach) (c : ModeCtl)

theorem quiet_splitBegin (b p : Nat) : Quiet m (m.splitBegin b p) := by
  unfold Mach.splitBegin
  split
  · exact .refl m
  · extract_lets n
    have h : Quiet m n := Quiet.foldl (fun m _ => quiet_emptySlot m _) _ _
    clear_value n
    exact h.trans (quiet_of_slu rfl)

theorem quiet_splitRun (v k b p n f : Nat) : Quiet m (m.splitRun c v k b p n f).2.2 := by
  induction f generalizing m n with
  | zero => exact .refl m
  | succ f ih =>
    unfold Mach.splitRun
    dsimp only
    split
    · exact .refl m
    · exact (ih _ _).after (still_freeIft m _ _ _).toQuiet
    · split
      · exact (ih _ _).after (still_freeIft m _ _ _).toQuiet
      · split
        · exact .refl m
        · split
          · next h => exact (ih _ _).after ((still_freeIft _ _ _ _).toQuiet.after (quiet_moveRec m h))
          · exact quiet_wayWaits m _ _ _
    · next g _ _ _ =>
      split
      · exact .refl m
      · have entered := still_enterOther m c v (.move true k) (rKey (m.slotRec g))
        split
        · next h =>
          rw [h] at entered
          exact (ih _ _).after entered.toQuiet
        · next h =>
          rw [h] at entered
          exact entered.toQuiet

theorem quiet_splitEnd (b p : Nat) : Quiet m (m.splitEnd b p) := quiet_of_slu rfl

/-! The end of a growth. -/

theorem bsnSplit_key_ne {i j : Nat} (h : i ≠ j) : O.bsnSplit.key i ≠ O.bsnSplit.key j := by
  simp only [ObjDef.key, O.bsnSplit, Nat.shiftLeft_eq]
  omega

theorem bsnSplit_sizeKey {j : Nat} (h : j < 16) : SizeKey (O.bsnSplit.key j) := by
  simp only [ObjDef.key, O.bsnSplit, Nat.shiftLeft_eq]
  omega

theorem rd_flwSizeLog2_wr (b x : Nat) : (m.wr O.bsnSplit b x).rd O.flwSizeLog2 = m.rd O.flwSizeLog2 :=
  rd_wr_ne m _ (key_ne_of_sub (by decide) (by decide) (by decide))

/-- The first split pointers at 0. -/
def Mach.splitsCleared (m : Mach) (n : Nat) : Mach := (List.range n).foldl (fun m b => m.wr O.bsnSplit b 0) m

theorem splitsCleared_succ (n : Nat) : m.splitsCleared (n + 1) = (m.splitsCleared n).wr O.bsnSplit n 0 := by
  simp [Mach.splitsCleared, List.range_succ]

theorem splitsCleared_dp (n : Nat) : (m.splitsCleared n).dp = m.dp := by
  induction n with
  | zero => rfl
  | succ n ih => rw [splitsCleared_succ, wr_dp, ih]

theorem rd_splitsCleared {n i : Nat} (h : i < n) : (m.splitsCleared n).rd O.bsnSplit i = 0 := by
  induction n with
  | zero => omega
  | succ n ih =>
    rw [splitsCleared_succ]
    by_cases e : i = n
    · rw [e, rd_wr_same]
    · rw [rd_wr_ne _ _ (bsnSplit_key_ne e), ih (by omega)]

theorem rd_flwSizeLog2_splitsCleared (n : Nat) : (m.splitsCleared n).rd O.flwSizeLog2 = m.rd O.flwSizeLog2 := by
  induction n with
  | zero => rfl
  | succ n ih => rw [splitsCleared_succ, rd_flwSizeLog2_wr, ih]

/-- The growth over. -/
def Mach.grown (m : Mach) : Mach := { m with dp.growing := false }

theorem grown_splits : m.grown.dp.splits = m.dp.splits := rfl
theorem grown_rd (o : ObjDef) (i : Nat) : m.grown.rd o i = m.rd o i := rfl
theorem quiet_grown : Quiet m m.grown := quiet_of_slu rfl

theorem growEnd_eq : m.growEnd = if (List.range 16).all fun b => decide (m.rd O.bsnSplit b = m.nb) then
    ((m.wr O.flwSizeLog2 0 (m.rd O.flwSizeLog2 + 1)).splitsCleared 16).grown else m := rfl

theorem quiet_growEnd : Quiet m m.growEnd := by
  rw [growEnd_eq]
  refine ite_keeps ((quiet_grown _).after ?_) (.refl m)
  exact quiet_of_slu (by rw [splitsCleared_dp, wr_dp])

theorem growEnd_splits : m.growEnd.dp.splits = m.dp.splits := by
  rw [growEnd_eq]
  exact ite_keeps (R := fun n => n.dp.splits = m.dp.splits) (by rw [grown_splits, splitsCleared_dp, wr_dp]) rfl

/-! The end of a SPLIT. -/

theorem held_setSlu (v : Nat) (x : Slu) : Held m (m.setSlu v x) := ⟨rfl, rfl, rfl, fun _ _ _ => rfl⟩

theorem held_splitDone (v k : Nat) : Held m (m.splitDone c v k) := by
  unfold Mach.splitDone
  dsimp only
  refine Held.trans ?_ (still_lookupsGo _ _ _).toHeld
  exact ((still_dropMoves m _ _ _).toHeld.trans (logged_ctxDone c _ _ _ _).held).trans (held_setSlu _ _ _)

theorem splitOut_splitDone (v k : Nat) : ((m.splitDone c v k).slu v).splitOut = false := by
  unfold Mach.splitDone
  dsimp only
  rw [(still_lookupsGo _ _ _).splitOut, slu_setSlu_same]

variable {m c} {n : Mach} {v k : Nat} {cx : Ctx} (hx : m.ctx v k = some cx)

include hx

theorem ctx_splitDone (q : Quiet m n) (p : cx.posts = 0) : (n.splitDone c v k).ctx v k = none := by
  unfold Mach.splitDone
  dsimp only
  rw [(still_lookupsGo _ _ _).ctx, ctx_setSlu _ (by rfl)]
  exact ctx_ctxFinish c ((still_dropMoves n c v k).toQuiet.after q) hx p _

section Event

variable (hk : cx.ev.kind = 10) {p j : Nat} (hp : p = cx.ev.arg / 2 ^ 32) (hj : j = cx.ev.sender % 16)

include hk hp hj

/-- A SPLIT of a growth that is over, or of a bucket that the pointer has passed, has no effect. -/
theorem splitEv_stale (h : m.dp.growing = false ∨ cx.ev.sender / 16 ≠ m.dp.growths ∨ m.rd O.bsnSplit j ≠ p) : m.splitEv c v k = m.splitDone c v k := by
  simp only [Mach.splitEv, hx, hk, ← hp, ← hj, ne_eq, not_true_eq_false, if_false]
  exact if_pos (by simpa [or_assoc] using h)

variable (growing : m.dp.growing = true) (growth : cx.ev.sender / 16 = m.dp.growths) (next : m.rd O.bsnSplit j = p)

include growing growth next

theorem splitEv_stopped (h : m.running .basin v = false) : m.splitEv c v k = m := by
  simp [-Nat.reducePow, Mach.splitEv, hx, hk, ← hp, ← hj, growing, growth, next, h]

theorem splitEv_waits (h : m.running .basin v = true) {i : Nat} {z : Mach}
    (r : (m.splitBegin j p).splitRun c v k j p cx.ev.pos 16 = (false, i, z)) :
    m.splitEv c v k = z.setCtx v k (some { cx with ev := { cx.ev with pos := i, waited := true } }) := by
  simp [-Nat.reducePow, Mach.splitEv, hx, hk, ← hp, ← hj, growing, growth, next, h, r]

theorem splitEv_splits (h : m.running .basin v = true) {i : Nat} {z : Mach}
    (r : (m.splitBegin j p).splitRun c v k j p cx.ev.pos 16 = (true, i, z)) : m.splitEv c v k = (z.splitEnd j p).growEnd.splitDone c v k := by
  simp [-Nat.reducePow, Mach.splitEv, hx, hk, ← hp, ← hj, growing, growth, next, h, r]

end Event

end Split

end Sys2Proof.Machine

namespace Sys2Proof.Machine

/-! What a SPLIT that ends leaves (R284, R286). -/

section SplitEnd

variable {m z : Mach} {c : ModeCtl} {v k p j : Nat}

/-- A pointer or the table's size reads the same after a SPLIT's end. -/
theorem rd_splitDone {o : ObjDef} {i : Nat} (h : SizeKey (o.key i)) : (m.splitDone c v k).rd o i = m.rd o i :=
  rd_of_key ((held_splitDone m c v k).sizes _ h)

theorem nb_wr_bsnSplit (m : Mach) (j x : Nat) : (m.wr O.bsnSplit j x).nb = m.nb := by
  rw [Mach.nb, rd_flwSizeLog2_wr, Mach.nb]

/-- Whether the growth is over once the split pointer of share `j` stands past bucket `p`. -/
def Mach.lastSplit (m : Mach) (j p : Nat) : Bool := (List.range 16).all fun i => decide ((m.wr O.bsnSplit j (p + 1)).rd O.bsnSplit i = m.nb)

theorem growEnd_splitEnd (m : Mach) (j p : Nat) : (m.splitEnd j p).growEnd =
    if m.lastSplit j p then (((m.splitEnd j p).wr O.flwSizeLog2 0 (m.rd O.flwSizeLog2 + 1)).splitsCleared 16).grown else m.splitEnd j p := by
  have size : (m.splitEnd j p).rd O.flwSizeLog2 = m.rd O.flwSizeLog2 := rd_flwSizeLog2_wr _ _ _
  have buckets : (m.splitEnd j p).nb = m.nb := nb_wr_bsnSplit _ _ _
  rw [growEnd_eq, size, buckets]
  rfl

/-- The last bucket split: L rises by one and the pointers return to 0 (R284). -/
theorem splitDone_grows (h : z.lastSplit j p = true) :
    ((z.splitEnd j p).growEnd.splitDone c v k).dp.growing = false ∧
      ((z.splitEnd j p).growEnd.splitDone c v k).rd O.flwSizeLog2 = z.rd O.flwSizeLog2 + 1 ∧
      ∀ i : Fin 16, ((z.splitEnd j p).growEnd.splitDone c v k).rd O.bsnSplit i = 0 := by
  rw [(held_splitDone _ c v k).growing, rd_splitDone (by decide), growEnd_splitEnd, if_pos h, grown_rd, rd_flwSizeLog2_splitsCleared, rd_wr_same]
  refine ⟨rfl, rfl, fun i => ?_⟩
  rw [rd_splitDone (bsnSplit_sizeKey i.isLt), grown_rd, rd_splitsCleared _ i.isLt]

/-- Else the pointer of its share has moved on (R286). -/
theorem splitDone_moves (hj : j < 16) (h : z.lastSplit j p = false) :
    ((z.splitEnd j p).growEnd.splitDone c v k).dp.growing = z.dp.growing ∧ ((z.splitEnd j p).growEnd.splitDone c v k).rd O.bsnSplit j = p + 1 := by
  rw [(held_splitDone _ c v k).growing, rd_splitDone (bsnSplit_sizeKey hj), growEnd_splitEnd, if_neg (by simp [h])]
  exact ⟨rfl, rd_wr_same _ _ _ _⟩

/-- The split under way of a share is over as its pointer moves. -/
theorem splits_splitDone : mget false ((z.splitEnd j p).growEnd.splitDone c v k).dp.splits j = false := by
  rw [(held_splitDone _ c v k).splits, growEnd_splits]
  exact mget_mset_same false z.dp.splits j false

/-- A SPLIT that has moved its records frees its context. -/
theorem ctx_splits {i n f : Nat} {cx : Ctx} (hx : m.ctx v k = some cx) (hp : cx.posts = 0)
    (r : (m.splitBegin j p).splitRun c v k j p n f = (true, i, z)) : ((z.splitEnd j p).growEnd.splitDone c v k).ctx v k = none := by
  have q := quiet_splitRun (m.splitBegin j p) c v k j p n f
  rw [r] at q
  exact ctx_splitDone hx ((quiet_growEnd _).after ((quiet_splitEnd z j p).after (q.after (quiet_splitBegin m j p)))) hp

end SplitEnd

/-- Settles O49: each kind of event of a mill by what its context holds and what its work finds, and the recount of the pools. -/
theorem millWork : Obligations.MillWork := by
  unfold Obligations.MillWork
  refine ⟨fun s b k cx e lo hi l hx hk he hlo hhi hb => completes_run l (exec_poolAlloc s b k) ⟨?_, ?_, ?_⟩,
    fun s b k cx e port l hx hk he hp => completes_run l (exec_portRelease s b k) ⟨ctx_portReleaseEv hx hk he hp, ?_⟩,
    fun s b k l => completes_run l (exec_age s b k) ⟨fun t => ?_, fun t => ?_, fun cx e x t => ⟨fun h => ?_, fun w y why h g => ?_⟩⟩,
    fun s b k cx l hx hk => completes_run l (exec_exportEvent s b k) ⟨ctx_exportEv hx hk, exportEv_refusal hx hk, fun h => ⟨exportEv_absent hx hk h, ?_⟩⟩,
    fun s b k n cx l hx hk hn => completes_run l (exec_sweep s b k) ⟨fun z r d => sweepEv_done hx hk hn r d, fun pos full z r =>
      ⟨ctx_sweepEv_waits hx hk hn r, fun hf g => sweepEv_stalls hx hk hn r hf g, fun hf => sweepEv_chained hx hk hn r hf⟩⟩,
    fun s b k p j cx l hx hk hp hj => completes_run l (exec_split s b k) ⟨fun h => ?_, fun growing growth next => ⟨?_, ?_, ?_⟩⟩,
    fun s ses l h => completes_run l (exec_poolRecount s ses) ?_,
    fun s l => completes_run l (exec_poolRecountDone s) ?_⟩
  · exact fun j bad hit => pool_poisoned hx hk he hlo hhi hb bad hit
  · exact fun hit => pool_exhausted hx hk he hlo hhi hb hit
  · intro i port hit bad hp
    obtain ⟨pool, allocs⟩ := pool_takes (c := s.mc) hx hk he hlo hhi hb bad hit hp
    rw [pool]
    exact ⟨mget_mset_same false _ port true, rfl, rfl, allocs⟩
  · cases h : mget false (s.m.ppool e).bits port with
    | true =>
      obtain ⟨pool, flt⟩ := pool_released (c := s.mc) hx hk he hp h
      refine (if_pos rfl).mpr ⟨?_, ?_, flt, fun lo hi hl hh => scan_released hx hk he hp h hl hh⟩
      · rw [pool]
        exact mget_mset_same false _ port false
      · rw [pool]
    | false => exact release_faults hx hk he hp b.isLt h
  · simp only [Mach.ageEv, t]
  · simp only [Mach.ageEv, t]
  · rw [ageEv_void t h]
    exact ⟨rfl, fun p => ctx_recDone _ (quiet_bump _ _ _ _) (ctx_of_turn t) p _ _ _ _ _ _ _⟩
  · rw [ageEv_deletes t h g]
    exact ⟨rfl, way_recDone_of _ (way_ageOut _ _ _ _ _ _ _) _ _ _ _ _ _ _ _,
      fun u p => ctx_recDone _ (quiet_ageOut _ _ u) (ctx_of_turn t) p _ _ _ _ _ _ _⟩
  · refine fun g r f => ⟨fun z hz => ?_, exportEv_waits hx hk h f⟩
    rcases hz with ⟨q, rfl⟩ | ⟨q, w, p⟩
    · exact exportEv_active hx hk h f q
    · exact exportEv_places hx hk h f q w p
  · have hj16 : j < 16 := by omega
    rw [splitEv_stale hx hk hp hj h]
    exact ⟨ctx_splitDone hx (.refl _), splitOut_splitDone _ _ _ _, (held_splitDone _ _ _ _).eddy, rd_splitDone (bsnSplit_sizeKey hj16)⟩
  · exact splitEv_stopped hx hk hp hj growing growth next
  · exact fun i z h r => splitEv_waits hx hk hp hj growing growth next h r
  · intro i z h r
    have hj16 : j < 16 := by omega
    rw [splitEv_splits hx hk hp hj growing growth next h r]
    refine ⟨splits_splitDone, fun q => ctx_splits hx q r, splitOut_splitDone _ _ _ _, ?_⟩
    change if z.lastSplit j p = true then _ else _
    split
    · next q => exact splitDone_grows q
    · next q => exact splitDone_moves hj16 (by simpa using q)
  · rw [guarded_admits h]
    simp only [Mach.poolRecount, Bool.and_eq_true, List.all_eq_true]
    split
    · exact ⟨rfl, rfl, rfl⟩
    · rfl
  · split
    · next h => exact poolRecountDone_good s.m h
    · next h => simp [Mach.poolRecountDone, h]

end Sys2Proof.Machine

namespace Sys2Proof.Machine

/-! Temperature (R641, R643): what a trip, the check against DIE-TEMP-LIMIT and a reading of a die each do and leave alone. -/

section Trip

variable {m n : Mach} (c : ModeCtl) (who : Nat)

theorem trip_again (h : m.pwr.tripped = true) : m.trip c who = m := if_pos h

/-- A first trip lowers THERMTRIP_N and every enable; the rest of it is the event, logged and counted. -/
theorem trip_first (h : m.pwr.tripped = false) : Raised (({ m with pwr.tripped := true } : Mach).wr O.railEn 0 0) (m.trip c who) := by
  rw [Mach.trip, h]
  exact (raised_adtEvent _ c 9 _).trans (raised_adt _ 30 1)

theorem trip_thermtripN : (m.trip c who).thermtripN = false := by
  cases h : m.pwr.tripped with
  | true => rw [trip_again c who h, Mach.thermtripN, h]; rfl
  | false => rw [Mach.thermtripN, (trip_first c who h).pwr]; rfl

theorem trip_railEn (h : m.pwr.tripped = false) : (m.trip c who).rd O.railEn = 0 := by
  rw [(trip_first c who h).rd (by decide) (by decide) (by decide), rd_wr_same]

/-- `n` differs from `m` at most in what a trip writes: THERMTRIP_N, RAIL-EN and what raising something writes. -/
structure Shut (m n : Mach) : Prop where
  flt : n.flt = m.flt
  warm : n.pwr.warm = m.pwr.warm
  leaves : Leaves (0xC0 :: raiseAreas) m n
  objs : ∀ k, Spare k → k ≠ O.railEn.key → ∀ d, mget d n.com.objs k = mget d m.com.objs k

namespace Shut

theorem refl (m : Mach) : Shut m m := ⟨rfl, rfl, .refl _ m, fun _ _ _ _ => rfl⟩

/-- An object other than RAIL-EN that raising something leaves alone reads as before. -/
theorem rd (h : Shut m n) {o : ObjDef} {i : Nat} (a : Spare (o.key i)) (b : o.key i ≠ O.railEn.key) : n.rd o i = m.rd o i :=
  rd_of_key (h.objs _ a b)

/-- A fault in the queue before a trip stands there after it. -/
theorem appendsFault {p : Mach} {tile cls detail : Nat} (h : Shut n p) (f : AppendsFault m n tile cls detail) : AppendsFault m p tile cls detail := by
  unfold AppendsFault at f ⊢
  rwa [h.flt, h.rd (by decide) (by decide)]

end Shut

theorem shut_trip (m : Mach) : Shut m (m.trip c who) := by
  cases h : m.pwr.tripped with
  | true =>
    rw [trip_again c who h]
    exact .refl m
  | false =>
    have r := trip_first c who h
    exact {
      flt := r.flt
      warm := by rw [r.pwr]; rfl
      leaves :=
        have lowered : Leaves (0xC0 :: raiseAreas) { m with pwr.tripped := true } (({ m with pwr.tripped := true } : Mach).wr O.railEn 0 0) :=
          leaves_wr _ 0 (by decide) (by decide) (by decide)
        have armed : Leaves (0xC0 :: raiseAreas) m { m with pwr.tripped := true } := ⟨rfl, rfl, rfl, rfl, rfl, fun _ _ _ _ _ => rfl⟩
        (armed.trans lowered).trans (r.leaves.mono fun _ => List.mem_cons_of_mem _)
      objs := fun k a b d => (r.objs k a d).trans (objs_wr_ne _ _ b d) }

end Trip

section Limit

variable {m : Mach} {s : Nat} {t : Int} (c : ModeCtl)

/-- DIE-TEMP reaching its limit raises a THERMAL fault and marks the die (R643). -/
theorem warmCheck_reached (reached : sgn 32 (m.rd O.dieTempLimit s) ≤ t) (cold : mget false m.pwr.warm s = false) :
    m.warmCheck c s t = ({ m with pwr.warm := mset false m.pwr.warm s true } : Mach).faultAt c 0xFFFF 0x0D s := by
  simp [Mach.warmCheck, reached, cold]

theorem warmCheck_warm (reached : sgn 32 (m.rd O.dieTempLimit s) ≤ t) (warm : mget false m.pwr.warm s = true) : m.warmCheck c s t = m := by
  simp [Mach.warmCheck, reached, warm]

/-- A fall of 5 °C below the limit ends the mark (R643). -/
theorem warmCheck_fallen (fallen : t ≤ sgn 32 (m.rd O.dieTempLimit s) - 80) :
    m.warmCheck c s t = { m with pwr.warm := mset false m.pwr.warm s false } := by
  have below : ¬ sgn 32 (m.rd O.dieTempLimit s) ≤ t := by omega
  simp [Mach.warmCheck, below, fallen]

theorem warmCheck_near (below : t < sgn 32 (m.rd O.dieTempLimit s)) (near : sgn 32 (m.rd O.dieTempLimit s) - 80 < t) : m.warmCheck c s t = m := by
  simp [Mach.warmCheck, Int.not_le.mpr below, Int.not_le.mpr near]

/-- The check changes no more than the die's mark and what a fault found writes. -/
theorem faulted_warmCheck (m : Mach) (s : Nat) (t : Int) : Faulted { m with pwr.warm := (m.warmCheck c s t).pwr.warm } (m.warmCheck c s t) := by
  by_cases reached : sgn 32 (m.rd O.dieTempLimit s) ≤ t
  · cases warm : mget false m.pwr.warm s with
    | true =>
      rw [warmCheck_warm c reached warm]
      exact .refl m
    | false =>
      rw [warmCheck_reached c reached warm]
      have f := (faultAt_spec { m with pwr.warm := mset false m.pwr.warm s true } c 0xFFFF 0x0D s).2
      rw [f.pwr]
      exact f
  · by_cases fallen : t ≤ sgn 32 (m.rd O.dieTempLimit s) - 80
    · rw [warmCheck_fallen c fallen]
      exact .refl _
    · rw [warmCheck_near c (Int.not_le.mp reached) (Int.not_le.mp fallen)]
      exact .refl m

/-- The record and the mark of a die that reaches its limit. -/
theorem warmCheck_record (reached : sgn 32 (m.rd O.dieTempLimit s) ≤ t) (cold : mget false m.pwr.warm s = false) :
    AppendsFault m (m.warmCheck c s t) 0xFFFF 0x0D s ∧ mget false (m.warmCheck c s t).pwr.warm s = true := by
  rw [warmCheck_reached c reached cold]
  obtain ⟨record, f⟩ := faultAt_spec { m with pwr.warm := mset false m.pwr.warm s true } c 0xFFFF 0x0D s
  refine ⟨record, ?_⟩
  rw [f.pwr]
  exact mget_mset_same false m.pwr.warm s true

theorem leaves_warmCheck (m : Mach) (s : Nat) (t : Int) : Leaves raiseAreas m (m.warmCheck c s t) :=
  have marked : Leaves raiseAreas m { m with pwr.warm := (m.warmCheck c s t).pwr.warm } := ⟨rfl, rfl, rfl, rfl, rfl, fun _ _ _ _ _ => rfl⟩
  marked.trans (faulted_warmCheck c m s t).leaves

theorem rd_warmCheck {o : ObjDef} {i : Nat} (a : o.area = 0xC0) (hs : o.sub < 256) (hi : o.item + i < 65536) : (m.warmCheck c s t).rd o i = m.rd o i :=
  (leaves_warmCheck c m s t).objs o i (by simp [a, raiseAreas]) hs hi

theorem tripped_warmCheck : (m.warmCheck c s t).pwr.tripped = m.pwr.tripped := by
  rw [(faulted_warmCheck c m s t).pwr]

theorem avs_warmCheck : (m.warmCheck c s t).pwr.avs = m.pwr.avs := by
  rw [(faulted_warmCheck c m s t).pwr]

end Limit

section Reading

/-- A die's temperature in DIE-TEMP, and in DIE-TEMP-PEAK where it is the highest so far. -/
def Mach.dieMarked (m : Mach) (s : Nat) (t : Int) : Mach :=
  let n := m.wr O.dieTemp s (unsgn 32 t)
  if sgn 32 (n.rd O.dieTempPeak s) < t then n.wr O.dieTempPeak s (unsgn 32 t) else n

/-- A die's temperature marked and checked against its limit. -/
def Mach.dieChecked (m : Mach) (c : ModeCtl) (s : Nat) (t : Int) : Mach := (m.dieMarked s t).warmCheck c s t

/-- The temperature at which a die trips, in 1/16 °C (R641). -/
def tripTemp (s : Nat) : Int := if s = 12 then 2000 else 1920

variable {m : Mach} {c : ModeCtl} {s : Nat} {t : Int}

theorem dieMarked_cases (m : Mach) (s : Nat) (t : Int) :
    m.dieMarked s t = (m.wr O.dieTemp s (unsgn 32 t)).wr O.dieTempPeak s (unsgn 32 t) ∨ m.dieMarked s t = m.wr O.dieTemp s (unsgn 32 t) := by
  by_cases higher : sgn 32 ((m.wr O.dieTemp s (unsgn 32 t)).rd O.dieTempPeak s) < t
  · exact .inl (if_pos higher)
  · exact .inr (if_neg higher)

@[simp] theorem dieMarked_pwr : (m.dieMarked s t).pwr = m.pwr := by
  rcases dieMarked_cases m s t with e | e <;> rw [e] <;> rfl

@[simp] theorem dieMarked_flt : (m.dieMarked s t).flt = m.flt := by
  rcases dieMarked_cases m s t with e | e <;> rw [e] <;> rfl

theorem rd_dieMarked_ne {o : ObjDef} {i : Nat} (h : o.key i ≠ O.dieTemp.key s) (g : o.key i ≠ O.dieTempPeak.key s) :
    (m.dieMarked s t).rd o i = m.rd o i := by
  rcases dieMarked_cases m s t with e | e
  · rw [e, rd_wr_ne _ _ g, rd_wr_ne _ _ h]
  · rw [e, rd_wr_ne _ _ h]

/-! A reading of one of the thirteen dies. -/

variable (hs : s < 13)

include hs

theorem die_item : 0x300 + s < 65536 := by omega

theorem rd_dieTemp_dieMarked : (m.dieMarked s t).rd O.dieTemp s = unsgn 32 t := by
  have apart : O.dieTemp.key s ≠ O.dieTempPeak.key s := key_ne (by decide) (by decide) (die_item hs) (die_item hs) (.inr (.inr (by decide)))
  rcases dieMarked_cases m s t with e | e
  · rw [e, rd_wr_ne _ _ apart, rd_wr_same]
  · rw [e, rd_wr_same]

theorem limit_dieMarked : (m.dieMarked s t).rd O.dieTempLimit s = m.rd O.dieTempLimit s :=
  rd_dieMarked_ne (key_ne (by decide) (by decide) (die_item hs) (die_item hs) (.inr (.inr (by decide))))
    (key_ne (by decide) (by decide) (die_item hs) (die_item hs) (.inr (.inr (by decide))))

theorem railEn_dieMarked : (m.dieMarked s t).rd O.railEn = m.rd O.railEn :=
  rd_dieMarked_ne (key_ne (by decide) (by decide) (by decide) (die_item hs) (.inr (.inr (by decide))))
    (key_ne (by decide) (by decide) (by decide) (die_item hs) (.inr (.inr (by decide))))

theorem leaves_dieMarked : Leaves (0xC0 :: raiseAreas) m (m.dieMarked s t) := by
  have temp : Leaves (0xC0 :: raiseAreas) m (m.wr O.dieTemp s (unsgn 32 t)) := leaves_wr _ _ (by decide) (by decide) (die_item hs)
  rcases dieMarked_cases m s t with e | e
  · rw [e]
    exact temp.trans (leaves_wr _ _ (by decide) (by decide) (die_item hs))
  · rwa [e]

end Reading

section Die

variable {m : Mach} {c : ModeCtl} {s : Nat} {t : Int}

/-- A reading is marked and checked against the limit; then the die trips or not. -/
theorem dieReading_eq (m : Mach) (c : ModeCtl) (s : Nat) (t : Int) :
    m.dieReading c s t =
      if tripTemp s ≤ t + m.tempOffset s then (m.dieChecked c s (t + m.tempOffset s)).trip c s else m.dieChecked c s (t + m.tempOffset s) := rfl

theorem dieReading_trips (hot : tripTemp s ≤ t + m.tempOffset s) : m.dieReading c s t = (m.dieChecked c s (t + m.tempOffset s)).trip c s :=
  (dieReading_eq m c s t).trans (if_pos hot)

theorem dieReading_holds (cool : ¬ tripTemp s ≤ t + m.tempOffset s) : m.dieReading c s t = m.dieChecked c s (t + m.tempOffset s) :=
  (dieReading_eq m c s t).trans (if_neg cool)

theorem shut_dieReading (m : Mach) (c : ModeCtl) (s : Nat) (t : Int) : Shut (m.dieChecked c s (t + m.tempOffset s)) (m.dieReading c s t) := by
  by_cases hot : tripTemp s ≤ t + m.tempOffset s
  · rw [dieReading_trips hot]
    exact shut_trip c s _
  · rw [dieReading_holds hot]
    exact .refl _

theorem tripped_dieChecked : (m.dieChecked c s t).pwr.tripped = m.pwr.tripped := by
  rw [Mach.dieChecked, tripped_warmCheck, dieMarked_pwr]

theorem avs_dieChecked : (m.dieChecked c s t).pwr.avs = m.pwr.avs := by
  rw [Mach.dieChecked, avs_warmCheck, dieMarked_pwr]

/-- THERMTRIP_N after a reading: low where it was low, or where the die is at its trip temperature (R641). -/
theorem thermtripN_dieReading : (m.dieReading c s t).thermtripN = (m.thermtripN && !decide (tripTemp s ≤ t + m.tempOffset s)) := by
  by_cases hot : tripTemp s ≤ t + m.tempOffset s
  · rw [dieReading_trips hot, trip_thermtripN]
    simp [hot]
  · rw [dieReading_holds hot, Mach.thermtripN, tripped_dieChecked]
    simp [hot, Mach.thermtripN]

variable (hs : s < 13)

include hs

theorem railEn_dieChecked : (m.dieChecked c s t).rd O.railEn = m.rd O.railEn := by
  rw [Mach.dieChecked, rd_warmCheck c rfl (by decide) (by decide), railEn_dieMarked hs]

theorem rd_dieTemp_dieReading : (m.dieReading c s t).rd O.dieTemp s = unsgn 32 (t + m.tempOffset s) := by
  have area : O.dieTemp.key s / 16777216 = 0xC0 := key_area (by decide) (die_item hs)
  have apart : O.dieTemp.key s ≠ O.railEn.key := key_ne (by decide) (by decide) (die_item hs) (by decide) (.inr (.inr (by decide)))
  rw [(shut_dieReading m c s t).rd ⟨by omega, by omega, by omega⟩ apart, Mach.dieChecked, rd_warmCheck c rfl (by decide) (die_item hs),
    rd_dieTemp_dieMarked hs]

theorem leaves_dieReading (m : Mach) (c : ModeCtl) (t : Int) : Leaves (0xC0 :: raiseAreas) m (m.dieReading c s t) :=
  ((leaves_dieMarked hs).trans ((leaves_warmCheck c _ s _).mono fun _ => List.mem_cons_of_mem _)).trans (shut_dieReading m c s t).leaves

/-! What a reading does to the fault queue and to the die's mark, by where the temperature stands against DIE-TEMP-LIMIT (R643). -/

theorem dieReading_record (reached : sgn 32 (m.rd O.dieTempLimit s) ≤ t + m.tempOffset s) (cold : mget false m.pwr.warm s = false) :
    AppendsFault m (m.dieReading c s t) 0xFFFF 0x0D s ∧ mget false (m.dieReading c s t).pwr.warm s = true := by
  have shut := shut_dieReading m c s t
  obtain ⟨record, warm⟩ := warmCheck_record (m := m.dieMarked s (t + m.tempOffset s)) (t := t + m.tempOffset s) c
    (by rwa [limit_dieMarked hs]) (by rwa [dieMarked_pwr])
  refine ⟨?_, by rw [shut.warm]; exact warm⟩
  unfold AppendsFault at record
  rw [dieMarked_flt] at record
  exact shut.appendsFault record

theorem dieReading_warm (reached : sgn 32 (m.rd O.dieTempLimit s) ≤ t + m.tempOffset s) (warm : mget false m.pwr.warm s = true) :
    (m.dieReading c s t).flt = m.flt := by
  rw [(shut_dieReading m c s t).flt, Mach.dieChecked, warmCheck_warm c (by rwa [limit_dieMarked hs]) (by rwa [dieMarked_pwr]), dieMarked_flt]

theorem dieReading_fallen (fallen : t + m.tempOffset s ≤ sgn 32 (m.rd O.dieTempLimit s) - 80) :
    (m.dieReading c s t).flt = m.flt ∧ mget false (m.dieReading c s t).pwr.warm s = false := by
  have shut := shut_dieReading m c s t
  rw [Mach.dieChecked, warmCheck_fallen c (by rwa [limit_dieMarked hs])] at shut
  rw [shut.flt, shut.warm]
  exact ⟨dieMarked_flt, mget_mset_same false _ s false⟩

theorem dieReading_near (below : t + m.tempOffset s < sgn 32 (m.rd O.dieTempLimit s)) (near : sgn 32 (m.rd O.dieTempLimit s) - 80 < t + m.tempOffset s) :
    (m.dieReading c s t).flt = m.flt ∧ (m.dieReading c s t).pwr.warm = m.pwr.warm := by
  have shut := shut_dieReading m c s t
  rw [Mach.dieChecked, warmCheck_near c (by rwa [limit_dieMarked hs]) (by rwa [limit_dieMarked hs])] at shut
  rw [shut.flt, shut.warm, dieMarked_pwr, dieMarked_flt]
  exact ⟨rfl, rfl⟩

theorem dieReading_below (below : t + m.tempOffset s < sgn 32 (m.rd O.dieTempLimit s)) : (m.dieReading c s t).flt = m.flt := by
  by_cases fallen : t + m.tempOffset s ≤ sgn 32 (m.rd O.dieTempLimit s) - 80
  · exact (dieReading_fallen hs fallen).1
  · exact (dieReading_near hs below (Int.not_le.mp fallen)).1

end Die

section Sensor

variable {m : Mach} {c : ModeCtl} {k : Nat} {t : Int}

theorem thermalTrip_die (h : k < 13) : m.thermalTrip c k t = m.dieReading c k t := if_pos h

theorem thermalTrip_stack (h : ¬ k < 13) :
    m.thermalTrip c k t = if 120 ≤ t then (m.wr O.stkTemp (k - 13) (unsgn 32 t)).trip c k else m.wr O.stkTemp (k - 13) (unsgn 32 t) := if_neg h

theorem leaves_thermalTrip (m : Mach) (c : ModeCtl) (hk : k < 21) (t : Int) : Leaves (0xC0 :: 0x78 :: raiseAreas) m (m.thermalTrip c k t) := by
  by_cases die : k < 13
  · rw [thermalTrip_die die]
    exact (leaves_dieReading die m c t).mono (by decide)
  · have item : 0x100 + (k - 13) < 65536 := by omega
    have temp : Leaves (0xC0 :: 0x78 :: raiseAreas) m (m.wr O.stkTemp (k - 13) (unsgn 32 t)) := leaves_wr _ _ (by decide) (by decide) item
    rw [thermalTrip_stack die]
    exact leaves_ite (temp.trans ((shut_trip c k _).leaves.mono (by decide))) temp

/-- A sensor's reading is at the temperature that trips the device (R641). -/
def Mach.TripsAt (m : Mach) (k : Nat) (t : Int) : Prop := if k < 13 then tripTemp k ≤ t + m.tempOffset k else 120 ≤ t

theorem thermalTrip_hot (up : m.pwr.tripped = false) (hot : m.TripsAt k t) :
    (m.thermalTrip c k t).thermtripN = false ∧ (m.thermalTrip c k t).rd O.railEn = 0 := by
  by_cases die : k < 13
  · rw [Mach.TripsAt, if_pos die] at hot
    rw [thermalTrip_die die, dieReading_trips hot]
    exact ⟨trip_thermtripN c k, trip_railEn c k (by rw [tripped_dieChecked, up])⟩
  · rw [Mach.TripsAt, if_neg die] at hot
    rw [thermalTrip_stack die, if_pos hot]
    exact ⟨trip_thermtripN c k, trip_railEn c k up⟩

theorem thermalTrip_cool (up : m.pwr.tripped = false) (cool : ¬ m.TripsAt k t) :
    (m.thermalTrip c k t).thermtripN = true ∧ (m.thermalTrip c k t).rd O.railEn = m.rd O.railEn ∧ (m.thermalTrip c k t).pwr.avs = m.pwr.avs ∧
      (13 ≤ k → (m.thermalTrip c k t).pwr = m.pwr) := by
  by_cases die : k < 13
  · rw [Mach.TripsAt, if_pos die] at cool
    rw [thermalTrip_die die, dieReading_holds cool, Mach.thermtripN, tripped_dieChecked, up]
    exact ⟨rfl, railEn_dieChecked die, avs_dieChecked, fun stack => absurd die (Nat.not_lt.mpr stack)⟩
  · have apart : O.railEn.key ≠ O.stkTemp.key (k - 13) := by
      simp only [ObjDef.key, O.railEn, O.stkTemp, Nat.shiftLeft_eq]
      omega
    rw [Mach.TripsAt, if_neg die] at cool
    rw [thermalTrip_stack die, if_neg cool, Mach.thermtripN, wr_pwr, up]
    exact ⟨rfl, rd_wr_ne _ _ apart, rfl, fun _ => rfl⟩

end Sensor

/-- Settles O2: a die or a stack at its trip temperature, and a die's reading against DIE-TEMP-LIMIT. -/
theorem temperatureActs : Obligations.TemperatureActs := by
  unfold Obligations.TemperatureActs
  refine ⟨fun s k t live up => completes_run live (exec_thermalTrip s k t) ⟨leaves_thermalTrip s.m s.mc k.isLt t, ?_⟩, fun s d t live i hi => ?_⟩
  · by_cases hot : s.m.TripsAt k t
    · exact (if_pos hot).mpr (thermalTrip_hot up hot)
    · exact (if_neg hot).mpr (thermalTrip_cool up hot)
  · have reading : exec i s = s.run fun c m => m.dieReading c d t := by
      simp only [List.mem_cons, List.not_mem_nil, or_false] at hi
      rcases hi with rfl | rfl
      · exact exec_dieTempLimit s d t
      · rw [exec_thermalTrip]
        exact congrArg s.run (funext fun c => funext fun m => thermalTrip_die d.isLt)
    exact completes_run live reading ⟨rd_dieTemp_dieReading d.isLt, leaves_dieReading d.isLt s.m s.mc t, thermtripN_dieReading,
      dieReading_record d.isLt, dieReading_warm d.isLt, fun below => ⟨dieReading_below d.isLt below, fun fallen => (dieReading_fallen d.isLt fallen).2,
        fun near => congrArg (mget false · d) (dieReading_near d.isLt below near).2⟩⟩

end Sys2Proof.Machine
